-- ==== Sys2Proof/Word.lean ====
section
/-!
DEFINITION. The word types of the JX960 (R3, R4, R72, R162): the machine's registers and code words are 32 bits
wide, pairs are 64 bits, memory is addressed by the byte, and an operand field of a code word is 7 bits wide.
-/
namespace Sys2Proof

/-- One byte of memory. -/
abbrev Byte := BitVec 8
/-- A general register of one lane, or one code word (R4, R162). -/
abbrev Word := BitVec 32
/-- A register pair, or a global address (R4). -/
abbrev DWord := BitVec 64
/-- A 7-bit operand field of an instruction word (R162, R164). -/
abbrev Field := BitVec 7

end Sys2Proof
end

