-- ==== Sys2Proof/Syntax.lean ====
section
/-!
DEFINITION. The steps of the package: one constructor of `Instr` for every row of spec/opcode_table.json. A row
with an encoding carries the fields of its instruction word (R162): `d`, `a`, `b` are the 7-bit operand fields
and `x`, `y`, `z` the reuse hints ua, ub and ud. A row without an encoding is an event of the package
(an Amiah step, an arriving packet, a host command, an engine step): its arguments are what the environment
supplies, which is either the choice the spec leaves to the agent that makes it or the content that arrives.
-/
namespace Sys2Proof

/-- A fabric packet: its header flit (R323) and its payload bytes in ascending address order (R322). -/
structure Packet where
  header : BitVec 512
  payload : List Byte
  deriving DecidableEq, Repr

/-- One boot-stage image (R408): its stage, its bytes, its signature and its version. -/
structure BootImage where
  stage : Nat
  bytes : List Byte
  signature : List Byte
  version : Nat
  /-- the public key that travels with an image that Skeana signs (R409) -/
  key : List Byte := []
  deriving DecidableEq, Repr

/-- An out-of-turn request received by the framer (R391): the sending package, its send time, the partition,
the urgent context, the footprint mask on the requesting package, and the gang of the victim: each package's yard
port and its context. -/
structure UrgentRequest where
  yardPort : Nat
  sendTime : Nat
  vf : Nat
  ctx : Nat
  footprint : BitVec 18
  gang : List (Nat × Nat)
  deriving DecidableEq, Repr

/-- A register that REGISTER_WRITE can name (R7): one that has a field map and no step of its own. -/
inductive RegName where
  /-- cf of one lane (R175) -/
  | cf (sid lane : Nat)
  /-- the mode register of a strand (R174) -/
  | mode (sid : Nat)
  /-- the slope control register of a cluster (R399) -/
  | slope (cluster : Nat)
  /-- the matrix status word of a bent (R312) -/
  | matrixStatus (bent : Nat)
  deriving DecidableEq, Repr

/-- One access of a host-die application core to package memory (R16, R120, R123). -/
inductive HostAccess where
  /-- a load of `n` bytes; `acquire` when a FENCE R,RW follows it -/
  | load (pa n : Nat) (acquire : Bool)
  /-- a store; `release` when a FENCE RW,W precedes it -/
  | store (pa : Nat) (bytes : List Byte) (release : Bool)
  deriving DecidableEq, Repr

/-- The steps of the package, one constructor for each row of spec/opcode_table.json. -/
inductive Instr where
  /-- ADD (R211): Adds two 32-bit words modulo 2^32 and writes the carry to C. -/
  | add (d a b : Field) (x y z : Bool)
  /-- SUB (R211): Subtracts two 32-bit words and writes the borrow to C. -/
  | sub (d a b : Field) (x y z : Bool)
  /-- MUL (R211): Writes the low 32 bits of the product of two words. -/
  | mul (d a b : Field) (x y z : Bool)
  /-- MULHI_S (R211): Writes the high 32 bits of the signed product. -/
  | mulhiS (d a b : Field) (x y z : Bool)
  /-- MULHI_N (R211): Writes the high 32 bits of the unsigned product. -/
  | mulhiN (d a b : Field) (x y z : Bool)
  /-- MAD (R211): Writes a × b + d modulo 2^32, with d as a source. -/
  | mad (d a b : Field) (x y z : Bool)
  /-- ADDC (R211): Adds two words and the carry C, and writes the new carry. -/
  | addc (d a b : Field) (x y z : Bool)
  /-- SUBB (R211): Subtracts b and the borrow C from a, and writes the new borrow. -/
  | subb (d a b : Field) (x y z : Bool)
  /-- MIN_S (R211): Writes the smaller of two words taken as signed. -/
  | minS (d a b : Field) (x y z : Bool)
  /-- MIN_N (R211): Writes the smaller of two words taken as unsigned. -/
  | minN (d a b : Field) (x y z : Bool)
  /-- MAX_S (R211): Writes the larger of two words taken as signed. -/
  | maxS (d a b : Field) (x y z : Bool)
  /-- MAX_N (R211): Writes the larger of two words taken as unsigned. -/
  | maxN (d a b : Field) (x y z : Bool)
  /-- ABS (R211): Writes the absolute value of a signed word, without saturation. -/
  | abs (d a b : Field) (x y z : Bool)
  /-- NEG (R211): Writes 0 - a and sets C when a is nonzero. -/
  | neg (d a b : Field) (x y z : Bool)
  /-- AND (R212): Writes the bitwise AND of two words. -/
  | and (d a b : Field) (x y z : Bool)
  /-- OR (R212): Writes the bitwise OR of two words. -/
  | or (d a b : Field) (x y z : Bool)
  /-- XOR (R212): Writes the bitwise XOR of two words. -/
  | xor (d a b : Field) (x y z : Bool)
  /-- ANDN (R212): Writes a AND NOT b. -/
  | andn (d a b : Field) (x y z : Bool)
  /-- NOT (R212): Writes the bitwise complement of a. -/
  | not (d a b : Field) (x y z : Bool)
  /-- SHL (R212): Shifts a left by the whole word b, giving 0 for amounts of 32 or more. -/
  | shl (d a b : Field) (x y z : Bool)
  /-- SHR (R212): Shifts a right logically by the whole word b. -/
  | shr (d a b : Field) (x y z : Bool)
  /-- SAR (R212): Shifts a right arithmetically by the whole word b. -/
  | sar (d a b : Field) (x y z : Bool)
  /-- ROL (R212): Rotates a left by b mod 32. -/
  | rol (d a b : Field) (x y z : Bool)
  /-- BFX_S (R213): Extracts a sign-extended bit field described by b. -/
  | bfxS (d a b : Field) (x y z : Bool)
  /-- BFX_N (R213): Extracts a zero-extended bit field described by b. -/
  | bfxN (d a b : Field) (x y z : Bool)
  /-- BFI (R213): Inserts the low bits of a into the bit field of d that b describes. -/
  | bfi (d a b : Field) (x y z : Bool)
  /-- POPC (R214): Counts the 1 bits of a. -/
  | popc (d a b : Field) (x y z : Bool)
  /-- CLZ (R214): Counts the leading zeros of a. -/
  | clz (d a b : Field) (x y z : Bool)
  /-- CTZ (R214): Counts the trailing zeros of a. -/
  | ctz (d a b : Field) (x y z : Bool)
  /-- BREV (R214): Reverses the bit order of a. -/
  | brev (d a b : Field) (x y z : Bool)
  /-- PERMB (R215): Assembles a word from bytes of a and d selected by the nibbles of b, with optional sign fill. -/
  | permb (d a b : Field) (x y z : Bool)
  /-- SEL (R216): Writes b if a is nonzero and otherwise keeps d. -/
  | sel (d a b : Field) (x y z : Bool)
  /-- MOV (R216): Copies a to d. -/
  | mov (d a b : Field) (x y z : Bool)
  /-- CMP_EQ (R217): Writes 1 if a equals b, and 0 otherwise. -/
  | cmpEq (d a b : Field) (x y z : Bool)
  /-- CMP_NE (R217): Writes 1 if a differs from b, and 0 otherwise. -/
  | cmpNe (d a b : Field) (x y z : Bool)
  /-- CMP_LT_S (R217): Writes 1 if a is less than b as signed values. -/
  | cmpLtS (d a b : Field) (x y z : Bool)
  /-- CMP_LE_S (R217): Writes 1 if a is less than or equal to b as signed values. -/
  | cmpLeS (d a b : Field) (x y z : Bool)
  /-- CMP_LT_N (R217): Writes 1 if a is less than b as unsigned values. -/
  | cmpLtN (d a b : Field) (x y z : Bool)
  /-- CMP_LE_N (R217): Writes 1 if a is less than or equal to b as unsigned values. -/
  | cmpLeN (d a b : Field) (x y z : Bool)
  /-- ADDW (R218): Adds two 64-bit pairs and writes the carry to C. -/
  | addw (d a b : Field) (x y z : Bool)
  /-- SUBW (R218): Subtracts two 64-bit pairs and writes the borrow to C. -/
  | subw (d a b : Field) (x y z : Bool)
  /-- MULW_S (R218): Writes the signed 64-bit product of two words to a pair. -/
  | mulwS (d a b : Field) (x y z : Bool)
  /-- MULW_N (R218): Writes the unsigned 64-bit product of two words to a pair. -/
  | mulwN (d a b : Field) (x y z : Bool)
  /-- MADW_N (R218): Adds the unsigned product of two words to the pair d and writes the carry to C. -/
  | madwN (d a b : Field) (x y z : Bool)
  /-- FADD (R226): Adds two FP32 values with one rounding in the mode. -/
  | fadd (d a b : Field) (x y z : Bool)
  /-- FSUB (R226): Subtracts two FP32 values with one rounding. -/
  | fsub (d a b : Field) (x y z : Bool)
  /-- FMUL (R226): Multiplies two FP32 values with one rounding. -/
  | fmul (d a b : Field) (x y z : Bool)
  /-- FFMA (R226): Computes a × b + d in FP32 with one rounding. -/
  | ffma (d a b : Field) (x y z : Bool)
  /-- FMIN (R227): Writes the IEEE minimumNumber of two FP32 values. -/
  | fmin (d a b : Field) (x y z : Bool)
  /-- FMAX (R227): Writes the IEEE maximumNumber of two FP32 values. -/
  | fmax (d a b : Field) (x y z : Bool)
  /-- FCMP_EQ (R228): Writes 1 when two FP32 values are equal. -/
  | fcmpEq (d a b : Field) (x y z : Bool)
  /-- FCMP_LT (R228): Writes 1 when a is less than b in FP32. -/
  | fcmpLt (d a b : Field) (x y z : Bool)
  /-- FCMP_LE (R228): Writes 1 when a is less than or equal to b in FP32. -/
  | fcmpLe (d a b : Field) (x y z : Bool)
  /-- FCMP_UO (R228): Writes 1 when either FP32 operand is a NaN. -/
  | fcmpUo (d a b : Field) (x y z : Bool)
  /-- FRND (R229): Rounds an FP32 value to an integral value in the selected rounding. -/
  | frnd (d a b : Field) (x y z : Bool)
  /-- FFRC (R229): Writes x - trunc(x) exactly. -/
  | ffrc (d a b : Field) (x y z : Bool)
  /-- FCLASS (R230): Writes a one-hot class mask of a value in the selected format. -/
  | fclass (d a b : Field) (x y z : Bool)
  /-- FLDEXP (R226): Scales an FP32 value by 2 to the power of a signed integer. -/
  | fldexp (d a b : Field) (x y z : Bool)
  /-- CVTI (R231): Converts FP32 to the selected integer type. -/
  | cvti (d a b : Field) (x y z : Bool)
  /-- CVTF (R231): Converts the selected integer type to FP32. -/
  | cvtf (d a b : Field) (x y z : Bool)
  /-- CVTH (R232): Converts between FP32 and one half of a packed 16-bit register. -/
  | cvth (d a b : Field) (x y z : Bool)
  /-- CVTW (R233): Converts between 64-bit integers and FP64 or FP32. -/
  | cvtw (d a b : Field) (x y z : Bool)
  /-- HADD2 (R235): Adds the two packed 16-bit elements independently. -/
  | hadd2 (d a b : Field) (x y z : Bool)
  /-- HMUL2 (R235): Multiplies the two packed 16-bit elements independently. -/
  | hmul2 (d a b : Field) (x y z : Bool)
  /-- HFMA2 (R235): Fused multiply-adds the two packed 16-bit elements independently. -/
  | hfma2 (d a b : Field) (x y z : Bool)
  /-- HMIN2 (R235): Takes the minimumNumber of each packed 16-bit element pair. -/
  | hmin2 (d a b : Field) (x y z : Bool)
  /-- HMAX2 (R235): Takes the maximumNumber of each packed 16-bit element pair. -/
  | hmax2 (d a b : Field) (x y z : Bool)
  /-- DADD (R226): Adds two FP64 pairs with one rounding. -/
  | dadd (d a b : Field) (x y z : Bool)
  /-- DMUL (R226): Multiplies two FP64 pairs with one rounding. -/
  | dmul (d a b : Field) (x y z : Bool)
  /-- DFMA (R226): Computes a × b + d in FP64 with one rounding. -/
  | dfma (d a b : Field) (x y z : Bool)
  /-- DMIN (R227): Writes the minimumNumber of two FP64 values. -/
  | dmin (d a b : Field) (x y z : Bool)
  /-- DMAX (R227): Writes the maximumNumber of two FP64 values. -/
  | dmax (d a b : Field) (x y z : Bool)
  /-- DCMP_EQ (R228): Writes 1 when two FP64 values are equal. -/
  | dcmpEq (d a b : Field) (x y z : Bool)
  /-- DCMP_LT (R228): Writes 1 when a is less than b in FP64. -/
  | dcmpLt (d a b : Field) (x y z : Bool)
  /-- DCVT (R234): Converts between FP64 and FP32 or the 32-bit integers. -/
  | dcvt (d a b : Field) (x y z : Bool)
  /-- DRND (R229): Rounds an FP64 value to an integral value in the selected rounding. -/
  | drnd (d a b : Field) (x y z : Bool)
  /-- FRCP (R238): Issues a correctly rounded FP32 reciprocal on the special-function pipe. -/
  | frcp (d a b : Field) (x y z : Bool)
  /-- FRSQ (R238): Issues a correctly rounded FP32 reciprocal square root. -/
  | frsq (d a b : Field) (x y z : Bool)
  /-- FSQRT (R238): Issues a correctly rounded FP32 square root. -/
  | fsqrt (d a b : Field) (x y z : Bool)
  /-- FEXP2 (R238): Issues a correctly rounded FP32 power of two. -/
  | fexp2 (d a b : Field) (x y z : Bool)
  /-- FLOG2 (R238): Issues a correctly rounded FP32 base-2 logarithm. -/
  | flog2 (d a b : Field) (x y z : Bool)
  /-- FSIN (R238): Issues a correctly rounded FP32 sine. -/
  | fsin (d a b : Field) (x y z : Bool)
  /-- FCOS (R238): Issues a correctly rounded FP32 cosine. -/
  | fcos (d a b : Field) (x y z : Bool)
  /-- FTANH (R238): Issues a correctly rounded FP32 hyperbolic tangent. -/
  | ftanh (d a b : Field) (x y z : Bool)
  /-- FDIV (R238): Issues a correctly rounded FP32 division. -/
  | fdiv (d a b : Field) (x y z : Bool)
  /-- ACT (R242): Evaluates the selected activation-table slot by piecewise-linear interpolation. -/
  | act (d a b : Field) (x y z : Bool)
  /-- ACTLD (R241): Checks, possibly parks, and then loads an activation-table record into a slot. -/
  | actld (d a b : Field) (x y z : Bool)
  /-- DRCP (R238): Issues a correctly rounded FP64 reciprocal. -/
  | drcp (d a b : Field) (x y z : Bool)
  /-- DSQRT (R238): Issues a correctly rounded FP64 square root. -/
  | dsqrt (d a b : Field) (x y z : Bool)
  /-- DDIV (R238): Issues a correctly rounded FP64 division. -/
  | ddiv (d a b : Field) (x y z : Bool)
  /-- SHFL (R271): Reads a from the given position of the lane's sub-group. -/
  | shfl (d a b : Field) (x y z : Bool)
  /-- SHFLUP (R271): Reads a from b positions lower in the sub-group. -/
  | shflup (d a b : Field) (x y z : Bool)
  /-- SHFLDN (R271): Reads a from b positions higher in the sub-group. -/
  | shfldn (d a b : Field) (x y z : Bool)
  /-- SHFLX (R271): Reads a from the position XOR b in the sub-group. -/
  | shflx (d a b : Field) (x y z : Bool)
  /-- VOTE (R272): Writes the mask word of contributing lanes whose test bit is set. -/
  | vote (d a b : Field) (x y z : Bool)
  /-- VANY (R272): Writes 1 if any contributing lane's test bit is set. -/
  | vany (d a b : Field) (x y z : Bool)
  /-- VALL (R272): Writes 1 if every contributing lane's test bit is set. -/
  | vall (d a b : Field) (x y z : Bool)
  /-- REDADD (R273): Issues an integer sum of the contributing lanes. -/
  | redadd (d a b : Field) (x y z : Bool)
  /-- REDFADD (R273): Issues an FP32 sum of the contributing lanes by the fixed tree. -/
  | redfadd (d a b : Field) (x y z : Bool)
  /-- REDMIN (R273): Issues a minimum of the contributing lanes in the selected type. -/
  | redmin (d a b : Field) (x y z : Bool)
  /-- REDMAX (R273): Issues a maximum of the contributing lanes in the selected type. -/
  | redmax (d a b : Field) (x y z : Bool)
  /-- SCANADD (R274): Issues an inclusive or exclusive prefix sum over the contributing lanes. -/
  | scanadd (d a b : Field) (x y z : Bool)
  /-- FIRSTL (R272): Writes the lowest contributing lane whose test bit is set, or 96. -/
  | firstl (d a b : Field) (x y z : Bool)
  /-- DVDECL (R275): Declares a dovetail channel and captures its per-lane defaults. -/
  | dvdecl (d a b : Field) (x y z : Bool)
  /-- DVPUB (R276): Publishes the next boundary round of a channel, parking at a fifth unconsumed round. -/
  | dvpub (d a b : Field) (x y z : Bool)
  /-- DVEND (R67): Ends a dovetail channel, satisfying the successor and consuming the predecessor's rounds. -/
  | dvend (d a b : Field) (x y z : Bool)
  /-- SMLD (R284): Loads a small matrix or vector per lane from lane slice or global memory. -/
  | smld (d a b : Field) (x y z : Bool)
  /-- SMST (R284): Stores a small matrix or vector per lane to lane slice or global memory. -/
  | smst (d a b : Field) (x y z : Bool)
  /-- SMMUL (R287): Issues a per-lane small matrix product A·B. -/
  | smmul (d a b : Field) (x y z : Bool)
  /-- SMMULT (R287): Issues a per-lane small matrix product A·Bᵀ. -/
  | smmult (d a b : Field) (x y z : Bool)
  /-- SMTMUL (R287): Issues a per-lane small matrix product Aᵀ·B. -/
  | smtmul (d a b : Field) (x y z : Bool)
  /-- SMADD (R286): Issues an element-wise small matrix addition. -/
  | smadd (d a b : Field) (x y z : Bool)
  /-- SMSUB (R286): Issues an element-wise small matrix subtraction. -/
  | smsub (d a b : Field) (x y z : Bool)
  /-- SMSCL (R286): Issues a small matrix scaled by a scalar. -/
  | smscl (d a b : Field) (x y z : Bool)
  /-- SMTRN (R286): Issues a bitwise small matrix transpose. -/
  | smtrn (d a b : Field) (x y z : Bool)
  /-- SMMV (R287): Issues a per-lane small matrix-vector product. -/
  | smmv (d a b : Field) (x y z : Bool)
  /-- SMCHOL (R289): Issues an in-place per-lane Cholesky factorisation with bad-pivot substitution. -/
  | smchol (d a b : Field) (x y z : Bool)
  /-- SMLU (R290): Issues an in-place per-lane LU factorisation with partial pivoting and writes the pivot word. -/
  | smlu (d a b : Field) (x y z : Bool)
  /-- SMSOLV (R291): Issues a per-lane solve using Cholesky or LU factors. -/
  | smsolv (d a b : Field) (x y z : Bool)
  /-- SMDET (R292): Issues a per-lane determinant from Cholesky or LU factors. -/
  | smdet (d a b : Field) (x y z : Bool)
  /-- SMID (R286): Issues a write of the identity or zero matrix. -/
  | smid (d a b : Field) (x y z : Bool)
  /-- SMCOPY (R286): Issues a bitwise small matrix copy. -/
  | smcopy (d a b : Field) (x y z : Bool)
  /-- LDP (R251): Issues a load from the lane's own lane slice. -/
  | ldp (d a b : Field) (x y z : Bool)
  /-- STP (R251): Issues a store to the lane's own lane slice. -/
  | stp (d a b : Field) (x y z : Bool)
  /-- LDK (R251): Issues a load from the crew's core scratchpad. -/
  | ldk (d a b : Field) (x y z : Bool)
  /-- STK (R251): Issues a store to the crew's core scratchpad. -/
  | stk (d a b : Field) (x y z : Bool)
  /-- LDQ (R251): Issues a load from the bent's cluster-shared allocation. -/
  | ldq (d a b : Field) (x y z : Bool)
  /-- STQ (R251): Issues a store to the bent's cluster-shared allocation. -/
  | stq (d a b : Field) (x y z : Bool)
  /-- LDD (R251): Issues a load from the context's die-scratchpad share. -/
  | ldd (d a b : Field) (x y z : Bool)
  /-- STD (R251): Issues a store to the context's die-scratchpad share. -/
  | std (d a b : Field) (x y z : Bool)
  /-- LD (R251): Issues a global load through translation, L1 and L2 under its policy. -/
  | ld (d a b : Field) (x y z : Bool)
  /-- ST (R251): Issues a global store performed at the home L2 slice. -/
  | st (d a b : Field) (x y z : Bool)
  /-- LDKT (R252): Issues a swizzled core-scratchpad load. -/
  | ldkt (d a b : Field) (x y z : Bool)
  /-- STKT (R252): Issues a swizzled core-scratchpad store. -/
  | stkt (d a b : Field) (x y z : Bool)
  /-- PFM (R253): Requests lines into L2 and optionally L1, dropping any lane that would fail a check. -/
  | pfm (d a b : Field) (x y z : Bool)
  /-- LLOCK (R254): Pins L2 lines per lane and writes each lane's status. -/
  | llock (d a b : Field) (x y z : Bool)
  /-- LUNLK (R254): Unpins L2 lines that the context pinned. -/
  | lunlk (d a b : Field) (x y z : Bool)
  /-- LQRY (R254): Returns the lock quota, the pin state of the line and the pinned count. -/
  | lqry (d a b : Field) (x y z : Bool)
  /-- RLD (R255): Sends a READ packet per lane to a peer package. -/
  | rld (d a b : Field) (x y z : Bool)
  /-- RST (R255): Sends a WRITE packet per lane to a peer package. -/
  | rst (d a b : Field) (x y z : Bool)
  /-- ATOM (R259): Performs an indivisible read-modify-write per lane on a global word. -/
  | atom (d a b : Field) (x y z : Bool)
  /-- ATOMK (R259): Performs an indivisible read-modify-write per lane in core scratchpad. -/
  | atomk (d a b : Field) (x y z : Bool)
  /-- ATOMQ (R259): Performs an indivisible read-modify-write per lane in cluster-shared memory. -/
  | atomq (d a b : Field) (x y z : Bool)
  /-- ACAS (R259): Performs a 32-bit compare-and-swap per lane on a global word. -/
  | acas (d a b : Field) (x y z : Bool)
  /-- ACAS64 (R259): Performs a 64-bit compare-and-swap per lane. -/
  | acas64 (d a b : Field) (x y z : Bool)
  /-- ACAS128 (R259): Performs a single-copy atomic 128-bit compare-and-swap per lane. -/
  | acas128 (d a b : Field) (x y z : Bool)
  /-- RATOM (R259): Sends an ATOMIC packet per lane to a peer package. -/
  | ratom (d a b : Field) (x y z : Bool)
  /-- RCAS (R259): Sends a 64-bit CAS packet per lane to a peer package. -/
  | rcas (d a b : Field) (x y z : Bool)
  /-- ACQ (R261): Waits for earlier loads and atomics, then discards unowned L1 words. -/
  | acq (d a b : Field) (x y z : Bool)
  /-- REL (R262): Waits until every earlier access of the strand is performed and acknowledged. -/
  | rel (d a b : Field) (x y z : Bool)
  /-- FENCE (R263): Waits as REL, takes its place in the package FENCE order, then acts as ACQ. -/
  | fence (d a b : Field) (x y z : Bool)
  /-- TFENCE (R263): Waits for earlier stores so that later page-table walks observe them. -/
  | tfence (d a b : Field) (x y z : Bool)
  /-- IFENCE (R263): Waits for earlier stores so that later clause fetches observe them, and discards prefetched clauses. -/
  | ifence (d a b : Field) (x y z : Bool)
  /-- SHLD (R300): Loads a 64-byte shape record into a shape register. -/
  | shld (d a b : Field) (x y z : Bool)
  /-- SHST (R300): Stores a shape register to memory. -/
  | shst (d a b : Field) (x y z : Bool)
  /-- SHSET (R300): Writes one selected field of a shape register. -/
  | shset (d a b : Field) (x y z : Bool)
  /-- SHGET (R300): Reads one selected field of a shape register into d. -/
  | shget (d a b : Field) (x y z : Bool)
  /-- SHIDX (R300): Clears the five index counters of a shape register. -/
  | shidx (d a b : Field) (x y z : Bool)
  /-- SWADD (R304): Starts a sweep that writes a + b element by element. -/
  | swadd (d a b : Field) (x y z : Bool)
  /-- SWMUL (R304): Starts a sweep that writes a × b. -/
  | swmul (d a b : Field) (x y z : Bool)
  /-- SWFMA (R304): Starts a sweep that writes a × b + d with one rounding. -/
  | swfma (d a b : Field) (x y z : Bool)
  /-- SWMAX (R304): Starts a sweep that writes maximumNumber(a, b). -/
  | swmax (d a b : Field) (x y z : Bool)
  /-- SWCVT (R304): Starts a sweep that converts a to D's format. -/
  | swcvt (d a b : Field) (x y z : Bool)
  /-- SWACT (R304): Starts a sweep that evaluates the activation slot on a. -/
  | swact (d a b : Field) (x y z : Bool)
  /-- SWCPY (R302): Starts a sweep that copies a bit for bit. -/
  | swcpy (d a b : Field) (x y z : Bool)
  /-- SWRED (R306): Starts a sweep that reduces A along dimension 0 by sum or maximum. -/
  | swred (d a b : Field) (x y z : Bool)
  /-- SWTRN (R303): Starts a sweep that transposes dimensions 0 and 1 bit for bit. -/
  | swtrn (d a b : Field) (x y z : Bool)
  /-- CPQ (R345): Reserves a sequence number on a copy chain, writes the entry and posts it. -/
  | cpq (d a b : Field) (x y z : Bool)
  /-- XFQ (R345): Reserves a sequence number on a fabric chain, writes the entry and posts it. -/
  | xfq (d a b : Field) (x y z : Bool)
  /-- WAITSEQ (R349): Parks the strand until a global word reaches its target, then acquires. -/
  | waitseq (d a b : Field) (x y z : Bool)
  /-- POLLQ (R350): Parks until a named collective ring is non-empty, then returns the ring and acquires. -/
  | pollq (d a b : Field) (x y z : Bool)
  /-- XSEND (R351): Issues a bulk fabric write or reduce transfer described by a register block. -/
  | xsend (d a b : Field) (x y z : Bool)
  /-- XPUTV (R352): Sends one element per lane to remote addresses as WRITE packets. -/
  | xputv (d a b : Field) (x y z : Bool)
  /-- XREDV (R352): Sends one element per lane to be combined remotely as REDUCE packets. -/
  | xredv (d a b : Field) (x y z : Bool)
  /-- LCSET (R353): Arms or rearms a landing-counter watch and returns its slot. -/
  | lcset (d a b : Field) (x y z : Bool)
  /-- LCWAIT (R353): Parks until an owned watch has fired, then acquires and frees it. -/
  | lcwait (d a b : Field) (x y z : Bool)
  /-- LCRD (R353): Reads a landing counter as one relaxed 8-byte load. -/
  | lcrd (d a b : Field) (x y z : Bool)
  /-- PUBL (R354): Requests the swap of a twin buffer's selector as a release. -/
  | publ (d a b : Field) (x y z : Bool)
  /-- SPAWN (R355): Copies a launch descriptor into the spawn queue and raises the spawn-tree counter. -/
  | spawn (d a b : Field) (x y z : Bool)
  /-- SCARF (R42): Ends the strand and leaves a scarf packet for the crew's continuation. -/
  | scarf (d a b : Field) (x y z : Bool)
  /-- TRIG (R357): Requests an addition of 1 to the launch's trigger count once earlier accesses are performed. -/
  | trig (d a b : Field) (x y z : Bool)
  /-- WAITDEP (R46): Parks until every dependence of the launch is satisfied, then acquires. -/
  | waitdep (d a b : Field) (x y z : Bool)
  /-- BRA (R199): Transfers control unconditionally at the end of the clause. -/
  | bra (d a b : Field) (x y z : Bool)
  /-- BRZ (R199): Branches when the uniform condition is zero. -/
  | brz (d a b : Field) (x y z : Bool)
  /-- BRNZ (R199): Branches when the uniform condition is nonzero. -/
  | brnz (d a b : Field) (x y z : Bool)
  /-- BRNONE (R199): Branches when no active lane has bit 0 of a set. -/
  | brnone (d a b : Field) (x y z : Bool)
  /-- CALL (R199): Writes the return address to a pair and branches. -/
  | call (d a b : Field) (x y z : Bool)
  /-- RET (R199): Transfers control to the address in a pair. -/
  | ret (d a b : Field) (x y z : Bool)
  /-- EXIT (R200): Makes the active present lanes absent. -/
  | exit (d a b : Field) (x y z : Bool)
  /-- BAR (R201): Arrives at a crew barrier after a release wait and departs with an acquire when the instance completes. -/
  | bar (d a b : Field) (x y z : Bool)
  /-- BARQ (R201): Arrives at a bent barrier that includes the truss strand. -/
  | barq (d a b : Field) (x y z : Bool)
  /-- SETM (R203): Writes one field, or the whole, of the mode register. -/
  | setm (d a b : Field) (x y z : Bool)
  /-- GETM (R203): Reads one field, or the whole, of the mode register. -/
  | getm (d a b : Field) (x y z : Bool)
  /-- TRAP (R204): Raises Software TRAP with code n and an argument. -/
  | trap (d a b : Field) (x y z : Bool)
  /-- TRAP_PARK (R204): Parks a strand in its handler until host software resumes or kills it. -/
  | trapPark (d a : Field) (x y z : Bool)
  /-- RTE (R205): Returns from the handler, restoring temporaries, mode and em. -/
  | rte (d a b : Field) (x y z : Bool)
  /-- SREAD (R207): Reads a system register selected by n. -/
  | sread (d a b : Field) (x y z : Bool)
  /-- SWRITE (R207): Writes a privileged system register without behaviour of its own. -/
  | swrite (d a b : Field) (x y z : Bool)
  /-- SWRITE_INVALIDATE_START (R150): Starts an invalidation of the strand's own context and completes when it completes. -/
  | swriteInvalidateStart (d a : Field) (x y z : Bool)
  /-- NOP (R198): Occupies its slot without effect. -/
  | nop (d a b : Field) (x y z : Bool)
  /-- MMA (R309): Queues a matrix product accumulated into a tile. -/
  | mma (d a b : Field) (x y z : Bool)
  /-- MMAZ (R309): Queues a matrix product into a tile that is zeroed first. -/
  | mmaz (d a b : Field) (x y z : Bool)
  /-- MMAC (R309): Queues a matrix product whose A operand is chained from another tile. -/
  | mmac (d a b : Field) (x y z : Bool)
  /-- ACCZ (R310): Queues the zeroing of a tile. -/
  | accz (d a b : Field) (x y z : Bool)
  /-- ACCLD (R310): Queues a load of a tile from a shape. -/
  | accld (d a b : Field) (x y z : Bool)
  /-- ACCST (R310): Queues a store of a tile to a shape, with down-conversion. -/
  | accst (d a b : Field) (x y z : Bool)
  /-- ACCRD (R315): Reads one tile row into lanes 0–63 as FP32, or raises Accumulator Busy. -/
  | accrd (d a b : Field) (x y z : Bool)
  /-- ACCWR (R315): Writes lanes 0–63 into one tile row, or raises Accumulator Busy. -/
  | accwr (d a b : Field) (x y z : Bool)
  /-- ACCWAIT (R312): Stops the truss strand until the queued operations on a tile complete, then acquires. -/
  | accwait (d a b : Field) (x y z : Bool)
  /-- MSTAT (R312): Reads the matrix status word or sequence counts, with selector 5 also clearing sticky bits. -/
  | mstat (d a b : Field) (x y z : Bool)
  /-- PACKAGE_RESET (R408): Package reset starts Amiah core 0 from ROM and runs the measured boot. -/
  | packageReset (flash : List BootImage)
  /-- PCIE_LINK_TRAIN (R413): Trains the PCIe port as root port or endpoint according to the strap. -/
  | pcieLinkTrain (rootPort : Bool) (rate width : Nat)
  /-- FABRIC_LINK_TRAIN (R319): Trains a fabric link and reads the package's yard port number. -/
  | fabricLinkTrain (port yardPort : Nat)
  /-- CLAUSE_ISSUE (R48): The core scheduler chooses a ready strand for a free pipe and issues its next clause. -/
  | clauseIssue (core : Nat)
  /-- AGING_COUNTER_EXPIRY (R49): A strand's aging counter reaches 65,536 and the strand gains first claim to issue. -/
  | agingCounterExpiry (sid : Nat)
  /-- YIELD_EXPIRY (R166): The 16-cycle yield interval of a yielding strand ends and it becomes ready again. -/
  | yieldExpiry (sid : Nat)
  /-- MEMORY_OP_COMPLETE (R169): An outstanding flag-A operation completes, writes its result and clears its flag. -/
  | memoryOpComplete (sid op : Nat)
  /-- FLAG_B_OP_COMPLETE (R239): A special-function, reduction, small-matrix or tile-access operation completes and clears flag B. -/
  | flagBOpComplete (sid op : Nat)
  /-- STRAND_END (R200): A strand with no present lane ends once its outstanding operations complete. -/
  | strandEnd (sid : Nat)
  /-- TREE_COMPLETION (R370): Amiah writes the completion record of a tree whose counter reached 0, once its stores are performed. -/
  | treeCompletion (tree : Nat)
  /-- BENT_DISPATCH (R35): Amiah places the next bent of a launch on a cluster once resources and pinned pages allow. -/
  | bentDispatch (launch cluster : Nat) (cores : List Nat)
  /-- CLUSTER_START (R24): A cluster starts executing a partition's work at least 16 ns after the previous cluster start. -/
  | clusterStart (cluster : Nat)
  /-- CHILD_ACCEPT (R369): Amiah accepts the oldest child of the spawn queue and resolves its producer tags. -/
  | childAccept (ctx : Nat)
  /-- TRIGGER_ADD (R357): The launch's trigger count rises by 1 after the strand's earlier accesses are performed. -/
  | triggerAdd (sid op : Nat)
  /-- WAITDEP_RESUME (R46): A strand parked in WAITDEP resumes with an acquire when its dependences are satisfied. -/
  | waitdepResume (sid : Nat)
  /-- WAITSEQ_RESUME (R349): A strand parked in WAITSEQ resumes when the word reaches its target. -/
  | waitseqResume (sid : Nat)
  /-- LCWAIT_RESUME (R353): A strand parked in LCWAIT resumes when its watch fires. -/
  | lcwaitResume (sid : Nat)
  /-- POLLQ_RESUME (R350): A strand parked in POLLQ resumes when a watched ring becomes non-empty. -/
  | pollqResume (sid : Nat)
  /-- PRESENCE_RESUME (R106): A strand or engine waiting on absent scratchpad lines resumes when they become present. -/
  | presenceResume (sid : Nat)
  /-- OTT_ENTRY_RETRY (R116): A strand parked for an outstanding-transaction entry retries when one of its entries frees. -/
  | ottEntryRetry (sid : Nat)
  /-- SPAWN_QUEUE_RESUME (R355): A strand parked on a full spawn queue resumes when an entry frees. -/
  | spawnQueueResume (sid : Nat)
  /-- ACTLD_PARK_END (R241): An ACTLD parked in step 2 continues when no other strand selects the slot. -/
  | actldParkEnd (sid : Nat)
  /-- DOVETAIL_READ_RESUME (R65): A strand parked at a boundary read resumes when the round is published or satisfied by an end. -/
  | dovetailReadResume (sid : Nat)
  /-- DVPUB_PARK_RESUME (R66): A publisher parked at a fifth round completes when its successor consumes a round. -/
  | dvpubParkResume (sid : Nat)
  /-- PAGE_WALK (R138): A page-table walk resolves a translation through three levels and the frame-key check. -/
  | pageWalk (ctx va : Nat) (forWrite : Bool)
  /-- ELASTIC_FAULT_RESOLVE (R157): Amiah maps or refuses the page of an elastic fault and the parked work resumes or fails. -/
  | elasticFaultResolve (ctx page : Nat) (frames : Option (List Nat))
  /-- INVALIDATION_COMPLETE (R150): An invalidation request completes once every TLB, lane page register and engine is swept. -/
  | invalidationComplete (req : Nat)
  /-- CODEBOOK_REGION_SET (R95): Amiah changes a codebook region register after writing back and invalidating its alias lines. -/
  | codebookRegionSet (die index : Nat) (value : BitVec 512)
  /-- TWIN_SWAP (R113): A PUBL's swap takes place once engine writers and count-checked readers have finished. -/
  | twinSwap (ctx index : Nat)
  /-- ENGINE_ENTRY_ACCEPT (R347): An engine accepts the next posted entry of a chain and checks it. -/
  | engineEntryAccept (chain : Nat)
  /-- CHAIN_WATCH_POLL (R346): An engine looks at the next slot of a watched chain at most every 2 µs. -/
  | chainWatchPoll (ctx chain : Nat)
  /-- COPY_LINE_DELIVERED (R108): The copy engine completes one 128-byte line of a destination and its presence may be set. -/
  | copyLineDelivered (entry : Nat)
  /-- ENTRY_COMPLETE (R347): A chain entry completes with its status and bytes done, and completed and the sequence word advance. -/
  | entryComplete (entry : Nat)
  /-- FABRIC_PACKET_SEND (R320): The fabric engine sends the next packet of a transfer on a live plane. -/
  | fabricPacketSend (entry : Nat)
  /-- WRITE (R332): A target performs a WRITE packet and adds its bytes to the landing counter. -/
  | write (p : Packet)
  /-- REDUCE (R352): A target combines each element of a REDUCE packet by an indivisible read-modify-write. -/
  | reduce (p : Packet)
  /-- READ (R255): A target performs a remote READ and replies with the data. -/
  | read (p : Packet)
  /-- ATOMIC (R258): A target performs a remote ATOMIC and replies with the old value. -/
  | atomic (p : Packet)
  /-- CAS (R259): A target performs a remote compare-and-swap and replies with the old value. -/
  | cas (p : Packet)
  /-- READ_RESPONSE (R255): The issuer receives read data and completes the RLD. -/
  | readResponse (p : Packet)
  /-- ATOMIC_RESPONSE (R259): The issuer receives an old value and completes the RATOM or RCAS. -/
  | atomicResponse (p : Packet)
  /-- LANDING_ACK (R334): The issuer receives acknowledgement that a packet's bytes are performed and counted. -/
  | landingAck (p : Packet)
  /-- NACK_RETRY (R329): The issuer receives NACK RETRY and schedules a resend after 1 µs. -/
  | nackRetry (p : Packet)
  /-- NACK_STALE (R338): The issuer receives NACK STALE and fails the operation as stale. -/
  | nackStale (p : Packet)
  /-- NACK_FAIL (R331): The issuer receives NACK FAIL with a target-side cause and fails the operation. -/
  | nackFail (p : Packet)
  /-- FAULT_HOLD_PERFORM (R329): A packet held for a target-side elastic fault is performed when Amiah resolves it. -/
  | faultHoldPerform (vf : Nat)
  /-- RETRY_RESEND (R329): The issuer resends a packet unchanged 1 µs after NACK RETRY. -/
  | retryResend (tag : Nat)
  /-- REMOTE_TIMEOUT (R339): An operation or entry without reply 20 µs after send on a down plane fails. -/
  | remoteTimeout (tag : Nat)
  /-- LINK_DOWN (R339): A link that fails its retries is declared down together with its plane. -/
  | linkDown (port : Nat)
  /-- PLANE_RETRAIN (R339): Amiah retrains a down link and returns its plane to use. -/
  | planeRetrain (port : Nat)
  /-- PTP_EVENT (R340): A PTP event or general message on channel 25 is timestamped and delivered to Amiah. -/
  | ptpEvent (port stamp : Nat) (msg : Packet)
  /-- PTP_MEASUREMENT (R379): Amiah measures the package's offset and disciplines the time base. -/
  | ptpMeasurement (offset : Int)
  /-- MANAGEMENT_MESSAGE (R324): A management packet arrives on channel 24 for Amiah. -/
  | managementMessage (p : Packet)
  /-- FRAMER_ANNOUNCE (R381): The host die announces its framing priority every 100 µs. -/
  | framerAnnounce (priority yardPort : Nat)
  /-- FRAMER_TAKEOVER (R381): The next host die takes over as framer when the framer is no longer heard, and republishes entries. -/
  | framerTakeover (yardPort : Nat)
  /-- RAISING_TABLE (R382): A raising-table entry arrives and is accepted, refused or triggers a republish request. -/
  | raisingTable (packet : Packet)
  /-- RAISING_REPUBLISH_REQUEST (R382): The framer receives a request to republish a package's unretired entries. -/
  | raisingRepublishRequest (yardPort : Nat)
  /-- OUT_OF_TURN_REQUEST (R391): The framer receives a latency-critical request and publishes kind-1 entries for T 3 µs after it. -/
  | outOfTurnRequest (r : UrgentRequest)
  /-- RAISING_HALT (R384): At a scheduled entry's time the affected clusters stop, halt and save the outgoing context. -/
  | raisingHalt (seq : Nat)
  /-- OUT_OF_TURN_HALT (R391): At a kind-1 entry's time the victim halts, footprint clusters are saved and others held in place. -/
  | outOfTurnHalt (seq : Nat)
  /-- OUT_OF_TURN_RESUME (R392): At a kind-2 entry's time the urgent context is saved and the victim restored or resumed. -/
  | outOfTurnResume (seq : Nat)
  /-- RUN_LIMIT_EXPIRY (R392): An urgent tree's run limit expires and the framer publishes the kind-2 entry. -/
  | runLimitExpiry (tree : Nat)
  /-- DRAIN_WINDOW_END (R337): The drain window ends and previous-generation packets become stale. -/
  | drainWindowEnd (vf : Nat)
  /-- RAISING_RESTORE (R386): A cluster restores the incoming context after its save and the drain window end. -/
  | raisingRestore (cluster : Nat)
  /-- AMIAH_RING_POLL (R363): Amiah reads the tail of every enabled launch ring at least every 2 µs. -/
  | amiahRingPoll (ctx ring : Nat)
  /-- LAUNCH_PACKET (R38): Amiah serves a LAUNCH packet and accepts one seed launch. -/
  | launchPacket (ctx ring : Nat)
  /-- RING_WAIT_PACKET (R365): Amiah serves a WAIT packet and holds the ring until the word reaches the value. -/
  | ringWaitPacket (ctx ring : Nat)
  /-- RING_WAIT_SATISFIED (R365): A held WAIT packet is done when its word reaches the value. -/
  | ringWaitSatisfied (ctx ring : Nat)
  /-- RING_WRITE_PACKET (R365): Amiah serves a WRITE packet as a release write of a value. -/
  | ringWritePacket (ctx ring : Nat)
  /-- FENCE_PACKET (R365): Amiah serves a FENCE packet, optionally waiting for trees and invalidating. -/
  | fencePacket (ctx ring : Nat)
  /-- FENCE_PACKET_DONE (R365): A held FENCE packet is done when earlier trees have completed and its invalidation has completed. -/
  | fencePacketDone (ctx ring : Nat)
  /-- LEASE_PACKET (R155): Amiah serves a LEASE packet and registers or rejects the lease. -/
  | leasePacket (ctx ring : Nat)
  /-- LEASE_REPLACE (R368): A held LEASE packet replaces its lease once every tree using the ID has ended. -/
  | leaseReplace (ctx ring : Nat)
  /-- PAD_PACKET (R365): Amiah skips a PAD packet. -/
  | padPacket (ctx ring : Nat)
  /-- CREATE (R361): Host command creating a context from a context record. -/
  | create (cmd record ctx twinFrame saveFrame : Nat)
  /-- DESTROY (R372): Host command ending every tree of a context with KILLED and destroying it. -/
  | destroy (cmd ctx : Nat)
  /-- RESUME_STRAND (R204): Host command ending a strand's TRAP #park. -/
  | resumeStrand (cmd ctx slot : Nat)
  /-- KILL_STRAND (R372): Host command ending one strand. -/
  | killStrand (cmd ctx slot : Nat)
  /-- KILL_TREE (R394): Host command ending a tree named by its seed sequence with KILLED. -/
  | killTree (cmd ctx seedSeq : Nat)
  /-- RING_RESTART (R366): Host command rechecking a ring descriptor and clearing its stopped bit. -/
  | ringRestart (cmd ctx ring : Nat)
  /-- GANG_SET (R330): Host command rereading the gang and communicator tables. -/
  | gangSet (cmd ctx : Nat)
  /-- TWIN_SET (R111): Host command writing one twin-table entry. -/
  | twinSet (cmd ctx index : Nat) (descriptor : BitVec 512)
  /-- CHAIN_WATCH (R346): Host command adding a chain to the context's watched chains. -/
  | chainWatch (cmd ctx va : Nat)
  /-- CHAIN_UNWATCH (R346): Host command removing a chain from the watched chains. -/
  | chainUnwatch (cmd ctx va : Nat)
  /-- DIRTY_ON (R160): Host command enabling a virtual function's dirty log. -/
  | dirtyOn (cmd vf bitmap : Nat)
  /-- DIRTY_ROUND (R161): Host command snapshotting and clearing the dirty log and invalidating the function's contexts. -/
  | dirtyRound (cmd vf snapshot : Nat)
  /-- STOP (R373): Host command halting and saving a virtual function and holding its service. -/
  | stopVf (cmd vf : Nat)
  /-- EXPORT (R419): Host command writing a virtual function's migration image. -/
  | exportImage (cmd vf image bytes : Nat)
  /-- IMPORT (R374): Host command checking an image, re-keying its frames and recreating its contexts. -/
  | importImage (cmd image vf : Nat) (keys : List Nat)
  /-- START (R375): Host command restarting a virtual function from its save areas under the next generation. -/
  | startVf (cmd vf : Nat)
  /-- DIRTY_OFF (R372): Host command disabling the dirty log. -/
  | dirtyOff (cmd vf : Nat)
  /-- DEVWIN_SET (R148): Host command setting a virtual function's device-window list. -/
  | devwinSet (cmd vf list : Nat)
  /-- ATTEST (R411): Host command writing a signed attestation report and key-ID list. -/
  | attest (cmd vf nonce report : Nat)
  /-- ENERGY_INTERVAL (R371): At each accounting interval Amiah charges energy and refills quotas less debt. -/
  | energyInterval (charges : List (Nat × Nat))
  /-- ENERGY_EXHAUSTED (R403): A context's charge reaches its quota and its strands park at the next boundary. -/
  | energyExhausted (ctx charge : Nat)
  /-- POWER_METER_SAMPLE (R400): Amiah meters power every 10 µs and lowers function or package clocks above a limit. -/
  | powerMeterSample (package : Nat) (functions : List Nat)
  /-- RETURN_TO_NOMINAL (R401): After 10 ms at least 5 % below the limit, the clock ceilings are raised again with kind 10. -/
  | returnToNominal (ceiling : Nat)
  /-- SLOPE_WINDOW (R396): A 64-cycle window ends and the slope governor bounds the next window's step count. -/
  | slopeWindow (cluster ready : Nat)
  /-- HBM_TEMP_READING (R406): Amiah reads each stack's temperature every 100 µs and changes its thermal level. -/
  | hbmTempReading (temps : List Int)
  /-- MATRIX_OP_START (R311): A queued matrix operation starts once earlier operations on its tiles have completed. -/
  | matrixOpStart (bent seq : Nat)
  /-- MATRIX_OP_COMPLETE (R311): A matrix-queue operation completes or fails, updating tiles and the status word. -/
  | matrixOpComplete (bent seq : Nat)
  /-- SWEEP_GROUP (R305): A sweep completes one group of up to 96 elements and advances D's counters. -/
  | sweepGroup (sid op : Nat)
  /-- SET_SLOPE_STEP (R399): Management sets the slope step, which takes effect at the next window. -/
  | setSlopeStep (cluster step : Nat)
  /-- SET_POWER_LIMITS (R400): Management sets the package and function power limits. -/
  | setPowerLimits (package : Nat) (functions : List Nat)
  /-- SET_ACCOUNTING_INTERVAL (R371): Management sets the energy accounting interval. -/
  | setAccountingInterval (ns : Nat)
  /-- SET_FRAMING_PRIORITY (R381): Management sets the host die's framing priority. -/
  | setFramingPriority (priority : Nat)
  /-- SET_SHARES (R405): Amiah sets a function's fabric and HBM shares and extends M3. -/
  | setShares (vf fabric : Nat) (hbm : List Nat)
  /-- PLDM_FIRMWARE_STAGE (R414): Firmware is staged through PLDM to take effect at the next reset. -/
  | pldmFirmwareStage (image : BootImage)
  /-- SPDM_ATTESTATION (R411): A verifier obtains the attestation report through SPDM. -/
  | spdmAttestation (vf : Nat) (nonce : BitVec 512)
  /-- ERROR_COUNT_READ (R415): Management reads the per-unit corrected-error counts. -/
  | errorCountRead (unit : Nat)
  /-- REGISTER_WRITE (R7): A write to a register that has no row of its own. -/
  | registerWrite (reg : RegName) (value : BitVec 64)
  /-- APPLICATION_CORE_ACCESS (R16): A host-die application core performs a load, store or release write to package memory as an agent of the ordering model. -/
  | applicationCoreAccess (a : HostAccess)
  /-- FRAME_RECLAIM (R110): Amiah reclaims an HBM frame, first unpinning its L2 lines and lowering the owners' pinned counts. -/
  | frameReclaim (frame : Nat)
  /-- SCHEDULED_RAISING_PUBLISH (R382): The framer publishes a scheduled kind-0 raising-table entry to a package on channel 25. -/
  | scheduledRaisingPublish (yardPort : Nat) (e : BitVec 256)
  deriving DecidableEq, Repr

end Sys2Proof
end

