-- ==== Sys2Proof/WellFormed.lean ====
section
/-!
DEFINITION. Well-formed steps. An instruction form is ill-formed only where its word is another row's word: TRAP with
b = 64 is TRAP_PARK (R204) and SWRITE with b = 33 is SWRITE_INVALIDATE_START (R207). An event is ill-formed when it
names a part that the package does not have (R12, R17, R18).
-/
namespace Sys2Proof

/-- A strand key: a context 0-63 and a place below 9,216 + 144. -/
def validSid (sid : Nat) : Bool := decide (sid / 16384 < 64) && decide (sid % 16384 < 9360)
/-- A context number, 0-63 (R18). -/
def validCtx (ctx : Nat) : Bool := decide (ctx < 64)
/-- A cluster number, 0-143 (R12). -/
def validCluster (c : Nat) : Bool := decide (c < 144)
/-- A virtual function number, 0-7 (R17). -/
def validVf (v : Nat) : Bool := decide (v < 8)
/-- A fabric port number, 0-47 (R12). -/
def validPort (p : Nat) : Bool := decide (p < 48)
/-- A launch ring number, 0-15 (R18). -/
def validRing (r : Nat) : Bool := decide (r < 16)
/-- A packet's payload is at most 4,096 bytes (R322). -/
def validPacket (p : Packet) : Bool := decide (p.payload.length ≤ 4096)

/-- The check on a step. -/
def Instr.wf : Instr → Bool
  | .trap _ _ b _ _ _ => b != 64
  | .swrite _ _ b _ _ _ => b != 33
  | .clauseIssue core => decide (core < 720)
  | .agingCounterExpiry sid | .yieldExpiry sid | .strandEnd sid => validSid sid
  | .memoryOpComplete sid _ | .flagBOpComplete sid _ | .triggerAdd sid _ | .sweepGroup sid _ => validSid sid
  | .waitdepResume sid | .waitseqResume sid | .lcwaitResume sid | .pollqResume sid | .presenceResume sid => validSid sid
  | .ottEntryRetry sid | .spawnQueueResume sid | .actldParkEnd sid | .dovetailReadResume sid => validSid sid
  | .dvpubParkResume sid => validSid sid
  | .bentDispatch _ cluster cores => validCluster cluster && cores.all (decide <| · < 4) && decide cores.Nodup
  | .clusterStart c | .raisingRestore c => validCluster c
  | .slopeWindow c _ | .setSlopeStep c _ => validCluster c
  | .childAccept ctx | .chainWatchPoll ctx _ | .energyExhausted ctx _ => validCtx ctx
  | .pageWalk ctx va _ => validCtx ctx && decide (va < 2 ^ 55)
  | .elasticFaultResolve ctx page _ => validCtx ctx && decide (page < 2 ^ 39)
  | .codebookRegionSet die index _ => decide (die < 4) && decide (index < 64)
  | .twinSwap ctx index => validCtx ctx && decide (index < 128)
  | .write p | .reduce p | .read p | .atomic p | .cas p => validPacket p
  | .readResponse p | .atomicResponse p | .landingAck p | .nackRetry p | .nackStale p | .nackFail p => validPacket p
  | .managementMessage p => validPacket p
  | .ptpEvent port _ p => validPort port && validPacket p
  | .fabricLinkTrain port yardPort => validPort port && decide (yardPort < 512)
  | .linkDown port | .planeRetrain port => validPort port
  | .framerAnnounce priority yardPort => decide (priority < 256) && decide (yardPort < 512)
  | .framerTakeover yardPort | .raisingRepublishRequest yardPort => decide (yardPort < 512)
  | .scheduledRaisingPublish yardPort _ => decide (yardPort < 512)
  | .outOfTurnRequest r => validVf r.vf && validCtx r.ctx && decide (r.yardPort < 512)
  | .raisingHalt seq | .outOfTurnHalt seq | .outOfTurnResume seq => decide (seq < 256)
  | .drainWindowEnd vf | .faultHoldPerform vf => validVf vf
  | .amiahRingPoll ctx ring => validCtx ctx && decide (ring < 80)
  | .launchPacket ctx ring | .ringWaitPacket ctx ring => validCtx ctx && validRing ring
  | .ringWaitSatisfied ctx ring | .ringWritePacket ctx ring | .fencePacket ctx ring => validCtx ctx && validRing ring
  | .fencePacketDone ctx ring | .leasePacket ctx ring | .leaseReplace ctx ring => validCtx ctx && validRing ring
  | .padPacket ctx ring => validCtx ctx && validRing ring
  | .create _ _ ctx _ _ => validCtx ctx
  | .destroy _ ctx | .gangSet _ ctx | .chainWatch _ ctx _ | .chainUnwatch _ ctx _ | .killTree _ ctx _ => validCtx ctx
  | .resumeStrand _ ctx slot | .killStrand _ ctx slot => validCtx ctx && decide (slot < 9360)
  | .ringRestart _ ctx ring => validCtx ctx && decide (ring < 80)
  | .twinSet _ ctx index _ => validCtx ctx && decide (index < 128)
  | .dirtyOn _ vf _ | .dirtyRound _ vf _ | .stopVf _ vf | .exportImage _ vf _ _ | .importImage _ _ vf _ => validVf vf
  | .startVf _ vf | .dirtyOff _ vf | .devwinSet _ vf _ | .attest _ vf _ _ | .spdmAttestation vf _ => validVf vf
  | .setShares vf _ _ => validVf vf
  | .setFramingPriority p => decide (p < 256)
  | .frameReclaim f => decide (f < 9437184)
  | _ => true

end Sys2Proof
end

