-- ==== Sys2Proof/Decode.lean ====
section
/-!
DEFINITION. The decoder of instruction words and clause words (R162, R166, R180) and the encoder. Decoding is total:
a word that is no instruction is refused by name.
-/
namespace Sys2Proof

/-- Why bytes are no instruction. -/
inductive DecodeError where
  /-- fewer than four bytes -/
  | truncated
  /-- an opcode that the map of R180 leaves reserved -/
  | reserved (opcode : Nat)
  /-- opcodes 0xF0-0xF7: the header marker (R166) -/
  | headerMarker
  /-- opcodes 0xF8-0xFF: the trailer marker (R166) -/
  | trailerMarker
  deriving DecidableEq, Repr

/-- Opcode, bits [31:24] (R162). -/
def wordOpcode (w : Word) : Nat := (w.extractLsb' 24 8).toNat
/-- d, bits [23:17]. -/
def wordD (w : Word) : Field := w.extractLsb' 17 7
/-- a, bits [16:10]. -/
def wordA (w : Word) : Field := w.extractLsb' 10 7
/-- b, bits [9:3]. -/
def wordB (w : Word) : Field := w.extractLsb' 3 7

/-- The instruction of an opcode with the fields of its word (R180). -/
def instrOf (opcode : Nat) (d a b : Field) (x y z : Bool) : Except DecodeError Instr :=
  match opcode with
  | 0x00 => .ok (.add d a b x y z)
  | 0x01 => .ok (.sub d a b x y z)
  | 0x02 => .ok (.mul d a b x y z)
  | 0x03 => .ok (.mulhiS d a b x y z)
  | 0x04 => .ok (.mulhiN d a b x y z)
  | 0x05 => .ok (.mad d a b x y z)
  | 0x06 => .ok (.addc d a b x y z)
  | 0x07 => .ok (.subb d a b x y z)
  | 0x08 => .ok (.minS d a b x y z)
  | 0x09 => .ok (.minN d a b x y z)
  | 0x0A => .ok (.maxS d a b x y z)
  | 0x0B => .ok (.maxN d a b x y z)
  | 0x0C => .ok (.abs d a b x y z)
  | 0x0D => .ok (.neg d a b x y z)
  | 0x0E => .ok (.and d a b x y z)
  | 0x0F => .ok (.or d a b x y z)
  | 0x10 => .ok (.xor d a b x y z)
  | 0x11 => .ok (.andn d a b x y z)
  | 0x12 => .ok (.not d a b x y z)
  | 0x13 => .ok (.shl d a b x y z)
  | 0x14 => .ok (.shr d a b x y z)
  | 0x15 => .ok (.sar d a b x y z)
  | 0x16 => .ok (.rol d a b x y z)
  | 0x17 => .ok (.bfxS d a b x y z)
  | 0x18 => .ok (.bfxN d a b x y z)
  | 0x19 => .ok (.bfi d a b x y z)
  | 0x1A => .ok (.popc d a b x y z)
  | 0x1B => .ok (.clz d a b x y z)
  | 0x1C => .ok (.ctz d a b x y z)
  | 0x1D => .ok (.brev d a b x y z)
  | 0x1E => .ok (.permb d a b x y z)
  | 0x1F => .ok (.sel d a b x y z)
  | 0x20 => .ok (.mov d a b x y z)
  | 0x21 => .ok (.cmpEq d a b x y z)
  | 0x22 => .ok (.cmpNe d a b x y z)
  | 0x23 => .ok (.cmpLtS d a b x y z)
  | 0x24 => .ok (.cmpLeS d a b x y z)
  | 0x25 => .ok (.cmpLtN d a b x y z)
  | 0x26 => .ok (.cmpLeN d a b x y z)
  | 0x27 => .ok (.addw d a b x y z)
  | 0x28 => .ok (.subw d a b x y z)
  | 0x29 => .ok (.mulwS d a b x y z)
  | 0x2A => .ok (.mulwN d a b x y z)
  | 0x2B => .ok (.madwN d a b x y z)
  | 0x30 => .ok (.fadd d a b x y z)
  | 0x31 => .ok (.fsub d a b x y z)
  | 0x32 => .ok (.fmul d a b x y z)
  | 0x33 => .ok (.ffma d a b x y z)
  | 0x34 => .ok (.fmin d a b x y z)
  | 0x35 => .ok (.fmax d a b x y z)
  | 0x36 => .ok (.fcmpEq d a b x y z)
  | 0x37 => .ok (.fcmpLt d a b x y z)
  | 0x38 => .ok (.fcmpLe d a b x y z)
  | 0x39 => .ok (.fcmpUo d a b x y z)
  | 0x3A => .ok (.frnd d a b x y z)
  | 0x3B => .ok (.ffrc d a b x y z)
  | 0x3C => .ok (.fclass d a b x y z)
  | 0x3D => .ok (.fldexp d a b x y z)
  | 0x3E => .ok (.cvti d a b x y z)
  | 0x3F => .ok (.cvtf d a b x y z)
  | 0x40 => .ok (.cvth d a b x y z)
  | 0x41 => .ok (.cvtw d a b x y z)
  | 0x42 => .ok (.hadd2 d a b x y z)
  | 0x43 => .ok (.hmul2 d a b x y z)
  | 0x44 => .ok (.hfma2 d a b x y z)
  | 0x45 => .ok (.hmin2 d a b x y z)
  | 0x46 => .ok (.hmax2 d a b x y z)
  | 0x47 => .ok (.dadd d a b x y z)
  | 0x48 => .ok (.dmul d a b x y z)
  | 0x49 => .ok (.dfma d a b x y z)
  | 0x4A => .ok (.dmin d a b x y z)
  | 0x4B => .ok (.dmax d a b x y z)
  | 0x4C => .ok (.dcmpEq d a b x y z)
  | 0x4D => .ok (.dcmpLt d a b x y z)
  | 0x4E => .ok (.dcvt d a b x y z)
  | 0x4F => .ok (.drnd d a b x y z)
  | 0x50 => .ok (.frcp d a b x y z)
  | 0x51 => .ok (.frsq d a b x y z)
  | 0x52 => .ok (.fsqrt d a b x y z)
  | 0x53 => .ok (.fexp2 d a b x y z)
  | 0x54 => .ok (.flog2 d a b x y z)
  | 0x55 => .ok (.fsin d a b x y z)
  | 0x56 => .ok (.fcos d a b x y z)
  | 0x57 => .ok (.ftanh d a b x y z)
  | 0x58 => .ok (.fdiv d a b x y z)
  | 0x59 => .ok (.act d a b x y z)
  | 0x5A => .ok (.actld d a b x y z)
  | 0x5B => .ok (.drcp d a b x y z)
  | 0x5C => .ok (.dsqrt d a b x y z)
  | 0x5D => .ok (.ddiv d a b x y z)
  | 0x60 => .ok (.shfl d a b x y z)
  | 0x61 => .ok (.shflup d a b x y z)
  | 0x62 => .ok (.shfldn d a b x y z)
  | 0x63 => .ok (.shflx d a b x y z)
  | 0x64 => .ok (.vote d a b x y z)
  | 0x65 => .ok (.vany d a b x y z)
  | 0x66 => .ok (.vall d a b x y z)
  | 0x67 => .ok (.redadd d a b x y z)
  | 0x68 => .ok (.redfadd d a b x y z)
  | 0x69 => .ok (.redmin d a b x y z)
  | 0x6A => .ok (.redmax d a b x y z)
  | 0x6B => .ok (.scanadd d a b x y z)
  | 0x6C => .ok (.firstl d a b x y z)
  | 0x6D => .ok (.dvdecl d a b x y z)
  | 0x6E => .ok (.dvpub d a b x y z)
  | 0x6F => .ok (.dvend d a b x y z)
  | 0x70 => .ok (.smld d a b x y z)
  | 0x71 => .ok (.smst d a b x y z)
  | 0x72 => .ok (.smmul d a b x y z)
  | 0x73 => .ok (.smmult d a b x y z)
  | 0x74 => .ok (.smtmul d a b x y z)
  | 0x75 => .ok (.smadd d a b x y z)
  | 0x76 => .ok (.smsub d a b x y z)
  | 0x77 => .ok (.smscl d a b x y z)
  | 0x78 => .ok (.smtrn d a b x y z)
  | 0x79 => .ok (.smmv d a b x y z)
  | 0x7A => .ok (.smchol d a b x y z)
  | 0x7B => .ok (.smlu d a b x y z)
  | 0x7C => .ok (.smsolv d a b x y z)
  | 0x7D => .ok (.smdet d a b x y z)
  | 0x7E => .ok (.smid d a b x y z)
  | 0x7F => .ok (.smcopy d a b x y z)
  | 0x80 => .ok (.ldp d a b x y z)
  | 0x81 => .ok (.stp d a b x y z)
  | 0x82 => .ok (.ldk d a b x y z)
  | 0x83 => .ok (.stk d a b x y z)
  | 0x84 => .ok (.ldq d a b x y z)
  | 0x85 => .ok (.stq d a b x y z)
  | 0x86 => .ok (.ldd d a b x y z)
  | 0x87 => .ok (.std d a b x y z)
  | 0x88 => .ok (.ld d a b x y z)
  | 0x89 => .ok (.st d a b x y z)
  | 0x8A => .ok (.ldkt d a b x y z)
  | 0x8B => .ok (.stkt d a b x y z)
  | 0x8C => .ok (.pfm d a b x y z)
  | 0x8D => .ok (.llock d a b x y z)
  | 0x8E => .ok (.lunlk d a b x y z)
  | 0x8F => .ok (.lqry d a b x y z)
  | 0x90 => .ok (.rld d a b x y z)
  | 0x91 => .ok (.rst d a b x y z)
  | 0xA0 => .ok (.atom d a b x y z)
  | 0xA1 => .ok (.atomk d a b x y z)
  | 0xA2 => .ok (.atomq d a b x y z)
  | 0xA3 => .ok (.acas d a b x y z)
  | 0xA4 => .ok (.acas64 d a b x y z)
  | 0xA5 => .ok (.acas128 d a b x y z)
  | 0xA6 => .ok (.ratom d a b x y z)
  | 0xA7 => .ok (.rcas d a b x y z)
  | 0xA8 => .ok (.acq d a b x y z)
  | 0xA9 => .ok (.rel d a b x y z)
  | 0xAA => .ok (.fence d a b x y z)
  | 0xAB => .ok (.tfence d a b x y z)
  | 0xAC => .ok (.ifence d a b x y z)
  | 0xB0 => .ok (.shld d a b x y z)
  | 0xB1 => .ok (.shst d a b x y z)
  | 0xB2 => .ok (.shset d a b x y z)
  | 0xB3 => .ok (.shget d a b x y z)
  | 0xB4 => .ok (.shidx d a b x y z)
  | 0xB5 => .ok (.swadd d a b x y z)
  | 0xB6 => .ok (.swmul d a b x y z)
  | 0xB7 => .ok (.swfma d a b x y z)
  | 0xB8 => .ok (.swmax d a b x y z)
  | 0xB9 => .ok (.swcvt d a b x y z)
  | 0xBA => .ok (.swact d a b x y z)
  | 0xBB => .ok (.swcpy d a b x y z)
  | 0xBC => .ok (.swred d a b x y z)
  | 0xBD => .ok (.swtrn d a b x y z)
  | 0xC0 => .ok (.cpq d a b x y z)
  | 0xC1 => .ok (.xfq d a b x y z)
  | 0xC2 => .ok (.waitseq d a b x y z)
  | 0xC3 => .ok (.pollq d a b x y z)
  | 0xC4 => .ok (.xsend d a b x y z)
  | 0xC5 => .ok (.xputv d a b x y z)
  | 0xC6 => .ok (.xredv d a b x y z)
  | 0xC7 => .ok (.lcset d a b x y z)
  | 0xC8 => .ok (.lcwait d a b x y z)
  | 0xC9 => .ok (.lcrd d a b x y z)
  | 0xCA => .ok (.publ d a b x y z)
  | 0xCB => .ok (.spawn d a b x y z)
  | 0xCC => .ok (.scarf d a b x y z)
  | 0xCD => .ok (.trig d a b x y z)
  | 0xCE => .ok (.waitdep d a b x y z)
  | 0xD0 => .ok (.bra d a b x y z)
  | 0xD1 => .ok (.brz d a b x y z)
  | 0xD2 => .ok (.brnz d a b x y z)
  | 0xD3 => .ok (.brnone d a b x y z)
  | 0xD4 => .ok (.call d a b x y z)
  | 0xD5 => .ok (.ret d a b x y z)
  | 0xD6 => .ok (.exit d a b x y z)
  | 0xD7 => .ok (.bar d a b x y z)
  | 0xD8 => .ok (.barq d a b x y z)
  | 0xD9 => .ok (.setm d a b x y z)
  | 0xDA => .ok (.getm d a b x y z)
  | 0xDB => .ok (if b = 64 then .trapPark d a x y z else .trap d a b x y z)
  | 0xDC => .ok (.rte d a b x y z)
  | 0xDD => .ok (.sread d a b x y z)
  | 0xDE => .ok (if b = 33 then .swriteInvalidateStart d a x y z else .swrite d a b x y z)
  | 0xDF => .ok (.nop d a b x y z)
  | 0xE0 => .ok (.mma d a b x y z)
  | 0xE1 => .ok (.mmaz d a b x y z)
  | 0xE2 => .ok (.mmac d a b x y z)
  | 0xE3 => .ok (.accz d a b x y z)
  | 0xE4 => .ok (.accld d a b x y z)
  | 0xE5 => .ok (.accst d a b x y z)
  | 0xE6 => .ok (.accrd d a b x y z)
  | 0xE7 => .ok (.accwr d a b x y z)
  | 0xE8 => .ok (.accwait d a b x y z)
  | 0xE9 => .ok (.mstat d a b x y z)
  | n => .error (if n < 0xF0 then .reserved n else if n < 0xF8 then .headerMarker else .trailerMarker)

/-- The instruction of a code word (R162): ua, ub and ud are bits 2, 1 and 0. -/
def decodeWord (w : Word) : Except DecodeError Instr :=
  instrOf (wordOpcode w) (wordD w) (wordA w) (wordB w) (w.getLsbD 2) (w.getLsbD 1) (w.getLsbD 0)

/-- Four bytes as a little-endian word (R4, R162). -/
def wordOfBytes (b0 b1 b2 b3 : Byte) : Word := b3 ++ b2 ++ b1 ++ b0

/-- The instruction at the head of a byte list, with the bytes that follow it. -/
def decode : List Byte → Except DecodeError (Instr × List Byte)
  | b0 :: b1 :: b2 :: b3 :: rest =>
    match decodeWord (wordOfBytes b0 b1 b2 b3) with
    | .ok i => .ok (i, rest)
    | .error e => .error e
  | _ => .error .truncated

/-- Opcode and fields of an instruction; events have none. -/
def Instr.parts : Instr → Option (Nat × Field × Field × Field × Bool × Bool × Bool)
  | .add d a b x y z => some (0x00, d, a, b, x, y, z)
  | .sub d a b x y z => some (0x01, d, a, b, x, y, z)
  | .mul d a b x y z => some (0x02, d, a, b, x, y, z)
  | .mulhiS d a b x y z => some (0x03, d, a, b, x, y, z)
  | .mulhiN d a b x y z => some (0x04, d, a, b, x, y, z)
  | .mad d a b x y z => some (0x05, d, a, b, x, y, z)
  | .addc d a b x y z => some (0x06, d, a, b, x, y, z)
  | .subb d a b x y z => some (0x07, d, a, b, x, y, z)
  | .minS d a b x y z => some (0x08, d, a, b, x, y, z)
  | .minN d a b x y z => some (0x09, d, a, b, x, y, z)
  | .maxS d a b x y z => some (0x0A, d, a, b, x, y, z)
  | .maxN d a b x y z => some (0x0B, d, a, b, x, y, z)
  | .abs d a b x y z => some (0x0C, d, a, b, x, y, z)
  | .neg d a b x y z => some (0x0D, d, a, b, x, y, z)
  | .and d a b x y z => some (0x0E, d, a, b, x, y, z)
  | .or d a b x y z => some (0x0F, d, a, b, x, y, z)
  | .xor d a b x y z => some (0x10, d, a, b, x, y, z)
  | .andn d a b x y z => some (0x11, d, a, b, x, y, z)
  | .not d a b x y z => some (0x12, d, a, b, x, y, z)
  | .shl d a b x y z => some (0x13, d, a, b, x, y, z)
  | .shr d a b x y z => some (0x14, d, a, b, x, y, z)
  | .sar d a b x y z => some (0x15, d, a, b, x, y, z)
  | .rol d a b x y z => some (0x16, d, a, b, x, y, z)
  | .bfxS d a b x y z => some (0x17, d, a, b, x, y, z)
  | .bfxN d a b x y z => some (0x18, d, a, b, x, y, z)
  | .bfi d a b x y z => some (0x19, d, a, b, x, y, z)
  | .popc d a b x y z => some (0x1A, d, a, b, x, y, z)
  | .clz d a b x y z => some (0x1B, d, a, b, x, y, z)
  | .ctz d a b x y z => some (0x1C, d, a, b, x, y, z)
  | .brev d a b x y z => some (0x1D, d, a, b, x, y, z)
  | .permb d a b x y z => some (0x1E, d, a, b, x, y, z)
  | .sel d a b x y z => some (0x1F, d, a, b, x, y, z)
  | .mov d a b x y z => some (0x20, d, a, b, x, y, z)
  | .cmpEq d a b x y z => some (0x21, d, a, b, x, y, z)
  | .cmpNe d a b x y z => some (0x22, d, a, b, x, y, z)
  | .cmpLtS d a b x y z => some (0x23, d, a, b, x, y, z)
  | .cmpLeS d a b x y z => some (0x24, d, a, b, x, y, z)
  | .cmpLtN d a b x y z => some (0x25, d, a, b, x, y, z)
  | .cmpLeN d a b x y z => some (0x26, d, a, b, x, y, z)
  | .addw d a b x y z => some (0x27, d, a, b, x, y, z)
  | .subw d a b x y z => some (0x28, d, a, b, x, y, z)
  | .mulwS d a b x y z => some (0x29, d, a, b, x, y, z)
  | .mulwN d a b x y z => some (0x2A, d, a, b, x, y, z)
  | .madwN d a b x y z => some (0x2B, d, a, b, x, y, z)
  | .fadd d a b x y z => some (0x30, d, a, b, x, y, z)
  | .fsub d a b x y z => some (0x31, d, a, b, x, y, z)
  | .fmul d a b x y z => some (0x32, d, a, b, x, y, z)
  | .ffma d a b x y z => some (0x33, d, a, b, x, y, z)
  | .fmin d a b x y z => some (0x34, d, a, b, x, y, z)
  | .fmax d a b x y z => some (0x35, d, a, b, x, y, z)
  | .fcmpEq d a b x y z => some (0x36, d, a, b, x, y, z)
  | .fcmpLt d a b x y z => some (0x37, d, a, b, x, y, z)
  | .fcmpLe d a b x y z => some (0x38, d, a, b, x, y, z)
  | .fcmpUo d a b x y z => some (0x39, d, a, b, x, y, z)
  | .frnd d a b x y z => some (0x3A, d, a, b, x, y, z)
  | .ffrc d a b x y z => some (0x3B, d, a, b, x, y, z)
  | .fclass d a b x y z => some (0x3C, d, a, b, x, y, z)
  | .fldexp d a b x y z => some (0x3D, d, a, b, x, y, z)
  | .cvti d a b x y z => some (0x3E, d, a, b, x, y, z)
  | .cvtf d a b x y z => some (0x3F, d, a, b, x, y, z)
  | .cvth d a b x y z => some (0x40, d, a, b, x, y, z)
  | .cvtw d a b x y z => some (0x41, d, a, b, x, y, z)
  | .hadd2 d a b x y z => some (0x42, d, a, b, x, y, z)
  | .hmul2 d a b x y z => some (0x43, d, a, b, x, y, z)
  | .hfma2 d a b x y z => some (0x44, d, a, b, x, y, z)
  | .hmin2 d a b x y z => some (0x45, d, a, b, x, y, z)
  | .hmax2 d a b x y z => some (0x46, d, a, b, x, y, z)
  | .dadd d a b x y z => some (0x47, d, a, b, x, y, z)
  | .dmul d a b x y z => some (0x48, d, a, b, x, y, z)
  | .dfma d a b x y z => some (0x49, d, a, b, x, y, z)
  | .dmin d a b x y z => some (0x4A, d, a, b, x, y, z)
  | .dmax d a b x y z => some (0x4B, d, a, b, x, y, z)
  | .dcmpEq d a b x y z => some (0x4C, d, a, b, x, y, z)
  | .dcmpLt d a b x y z => some (0x4D, d, a, b, x, y, z)
  | .dcvt d a b x y z => some (0x4E, d, a, b, x, y, z)
  | .drnd d a b x y z => some (0x4F, d, a, b, x, y, z)
  | .frcp d a b x y z => some (0x50, d, a, b, x, y, z)
  | .frsq d a b x y z => some (0x51, d, a, b, x, y, z)
  | .fsqrt d a b x y z => some (0x52, d, a, b, x, y, z)
  | .fexp2 d a b x y z => some (0x53, d, a, b, x, y, z)
  | .flog2 d a b x y z => some (0x54, d, a, b, x, y, z)
  | .fsin d a b x y z => some (0x55, d, a, b, x, y, z)
  | .fcos d a b x y z => some (0x56, d, a, b, x, y, z)
  | .ftanh d a b x y z => some (0x57, d, a, b, x, y, z)
  | .fdiv d a b x y z => some (0x58, d, a, b, x, y, z)
  | .act d a b x y z => some (0x59, d, a, b, x, y, z)
  | .actld d a b x y z => some (0x5A, d, a, b, x, y, z)
  | .drcp d a b x y z => some (0x5B, d, a, b, x, y, z)
  | .dsqrt d a b x y z => some (0x5C, d, a, b, x, y, z)
  | .ddiv d a b x y z => some (0x5D, d, a, b, x, y, z)
  | .shfl d a b x y z => some (0x60, d, a, b, x, y, z)
  | .shflup d a b x y z => some (0x61, d, a, b, x, y, z)
  | .shfldn d a b x y z => some (0x62, d, a, b, x, y, z)
  | .shflx d a b x y z => some (0x63, d, a, b, x, y, z)
  | .vote d a b x y z => some (0x64, d, a, b, x, y, z)
  | .vany d a b x y z => some (0x65, d, a, b, x, y, z)
  | .vall d a b x y z => some (0x66, d, a, b, x, y, z)
  | .redadd d a b x y z => some (0x67, d, a, b, x, y, z)
  | .redfadd d a b x y z => some (0x68, d, a, b, x, y, z)
  | .redmin d a b x y z => some (0x69, d, a, b, x, y, z)
  | .redmax d a b x y z => some (0x6A, d, a, b, x, y, z)
  | .scanadd d a b x y z => some (0x6B, d, a, b, x, y, z)
  | .firstl d a b x y z => some (0x6C, d, a, b, x, y, z)
  | .dvdecl d a b x y z => some (0x6D, d, a, b, x, y, z)
  | .dvpub d a b x y z => some (0x6E, d, a, b, x, y, z)
  | .dvend d a b x y z => some (0x6F, d, a, b, x, y, z)
  | .smld d a b x y z => some (0x70, d, a, b, x, y, z)
  | .smst d a b x y z => some (0x71, d, a, b, x, y, z)
  | .smmul d a b x y z => some (0x72, d, a, b, x, y, z)
  | .smmult d a b x y z => some (0x73, d, a, b, x, y, z)
  | .smtmul d a b x y z => some (0x74, d, a, b, x, y, z)
  | .smadd d a b x y z => some (0x75, d, a, b, x, y, z)
  | .smsub d a b x y z => some (0x76, d, a, b, x, y, z)
  | .smscl d a b x y z => some (0x77, d, a, b, x, y, z)
  | .smtrn d a b x y z => some (0x78, d, a, b, x, y, z)
  | .smmv d a b x y z => some (0x79, d, a, b, x, y, z)
  | .smchol d a b x y z => some (0x7A, d, a, b, x, y, z)
  | .smlu d a b x y z => some (0x7B, d, a, b, x, y, z)
  | .smsolv d a b x y z => some (0x7C, d, a, b, x, y, z)
  | .smdet d a b x y z => some (0x7D, d, a, b, x, y, z)
  | .smid d a b x y z => some (0x7E, d, a, b, x, y, z)
  | .smcopy d a b x y z => some (0x7F, d, a, b, x, y, z)
  | .ldp d a b x y z => some (0x80, d, a, b, x, y, z)
  | .stp d a b x y z => some (0x81, d, a, b, x, y, z)
  | .ldk d a b x y z => some (0x82, d, a, b, x, y, z)
  | .stk d a b x y z => some (0x83, d, a, b, x, y, z)
  | .ldq d a b x y z => some (0x84, d, a, b, x, y, z)
  | .stq d a b x y z => some (0x85, d, a, b, x, y, z)
  | .ldd d a b x y z => some (0x86, d, a, b, x, y, z)
  | .std d a b x y z => some (0x87, d, a, b, x, y, z)
  | .ld d a b x y z => some (0x88, d, a, b, x, y, z)
  | .st d a b x y z => some (0x89, d, a, b, x, y, z)
  | .ldkt d a b x y z => some (0x8A, d, a, b, x, y, z)
  | .stkt d a b x y z => some (0x8B, d, a, b, x, y, z)
  | .pfm d a b x y z => some (0x8C, d, a, b, x, y, z)
  | .llock d a b x y z => some (0x8D, d, a, b, x, y, z)
  | .lunlk d a b x y z => some (0x8E, d, a, b, x, y, z)
  | .lqry d a b x y z => some (0x8F, d, a, b, x, y, z)
  | .rld d a b x y z => some (0x90, d, a, b, x, y, z)
  | .rst d a b x y z => some (0x91, d, a, b, x, y, z)
  | .atom d a b x y z => some (0xA0, d, a, b, x, y, z)
  | .atomk d a b x y z => some (0xA1, d, a, b, x, y, z)
  | .atomq d a b x y z => some (0xA2, d, a, b, x, y, z)
  | .acas d a b x y z => some (0xA3, d, a, b, x, y, z)
  | .acas64 d a b x y z => some (0xA4, d, a, b, x, y, z)
  | .acas128 d a b x y z => some (0xA5, d, a, b, x, y, z)
  | .ratom d a b x y z => some (0xA6, d, a, b, x, y, z)
  | .rcas d a b x y z => some (0xA7, d, a, b, x, y, z)
  | .acq d a b x y z => some (0xA8, d, a, b, x, y, z)
  | .rel d a b x y z => some (0xA9, d, a, b, x, y, z)
  | .fence d a b x y z => some (0xAA, d, a, b, x, y, z)
  | .tfence d a b x y z => some (0xAB, d, a, b, x, y, z)
  | .ifence d a b x y z => some (0xAC, d, a, b, x, y, z)
  | .shld d a b x y z => some (0xB0, d, a, b, x, y, z)
  | .shst d a b x y z => some (0xB1, d, a, b, x, y, z)
  | .shset d a b x y z => some (0xB2, d, a, b, x, y, z)
  | .shget d a b x y z => some (0xB3, d, a, b, x, y, z)
  | .shidx d a b x y z => some (0xB4, d, a, b, x, y, z)
  | .swadd d a b x y z => some (0xB5, d, a, b, x, y, z)
  | .swmul d a b x y z => some (0xB6, d, a, b, x, y, z)
  | .swfma d a b x y z => some (0xB7, d, a, b, x, y, z)
  | .swmax d a b x y z => some (0xB8, d, a, b, x, y, z)
  | .swcvt d a b x y z => some (0xB9, d, a, b, x, y, z)
  | .swact d a b x y z => some (0xBA, d, a, b, x, y, z)
  | .swcpy d a b x y z => some (0xBB, d, a, b, x, y, z)
  | .swred d a b x y z => some (0xBC, d, a, b, x, y, z)
  | .swtrn d a b x y z => some (0xBD, d, a, b, x, y, z)
  | .cpq d a b x y z => some (0xC0, d, a, b, x, y, z)
  | .xfq d a b x y z => some (0xC1, d, a, b, x, y, z)
  | .waitseq d a b x y z => some (0xC2, d, a, b, x, y, z)
  | .pollq d a b x y z => some (0xC3, d, a, b, x, y, z)
  | .xsend d a b x y z => some (0xC4, d, a, b, x, y, z)
  | .xputv d a b x y z => some (0xC5, d, a, b, x, y, z)
  | .xredv d a b x y z => some (0xC6, d, a, b, x, y, z)
  | .lcset d a b x y z => some (0xC7, d, a, b, x, y, z)
  | .lcwait d a b x y z => some (0xC8, d, a, b, x, y, z)
  | .lcrd d a b x y z => some (0xC9, d, a, b, x, y, z)
  | .publ d a b x y z => some (0xCA, d, a, b, x, y, z)
  | .spawn d a b x y z => some (0xCB, d, a, b, x, y, z)
  | .scarf d a b x y z => some (0xCC, d, a, b, x, y, z)
  | .trig d a b x y z => some (0xCD, d, a, b, x, y, z)
  | .waitdep d a b x y z => some (0xCE, d, a, b, x, y, z)
  | .bra d a b x y z => some (0xD0, d, a, b, x, y, z)
  | .brz d a b x y z => some (0xD1, d, a, b, x, y, z)
  | .brnz d a b x y z => some (0xD2, d, a, b, x, y, z)
  | .brnone d a b x y z => some (0xD3, d, a, b, x, y, z)
  | .call d a b x y z => some (0xD4, d, a, b, x, y, z)
  | .ret d a b x y z => some (0xD5, d, a, b, x, y, z)
  | .exit d a b x y z => some (0xD6, d, a, b, x, y, z)
  | .bar d a b x y z => some (0xD7, d, a, b, x, y, z)
  | .barq d a b x y z => some (0xD8, d, a, b, x, y, z)
  | .setm d a b x y z => some (0xD9, d, a, b, x, y, z)
  | .getm d a b x y z => some (0xDA, d, a, b, x, y, z)
  | .trap d a b x y z => some (0xDB, d, a, b, x, y, z)
  | .trapPark d a x y z => some (0xDB, d, a, 64, x, y, z)
  | .rte d a b x y z => some (0xDC, d, a, b, x, y, z)
  | .sread d a b x y z => some (0xDD, d, a, b, x, y, z)
  | .swrite d a b x y z => some (0xDE, d, a, b, x, y, z)
  | .swriteInvalidateStart d a x y z => some (0xDE, d, a, 33, x, y, z)
  | .nop d a b x y z => some (0xDF, d, a, b, x, y, z)
  | .mma d a b x y z => some (0xE0, d, a, b, x, y, z)
  | .mmaz d a b x y z => some (0xE1, d, a, b, x, y, z)
  | .mmac d a b x y z => some (0xE2, d, a, b, x, y, z)
  | .accz d a b x y z => some (0xE3, d, a, b, x, y, z)
  | .accld d a b x y z => some (0xE4, d, a, b, x, y, z)
  | .accst d a b x y z => some (0xE5, d, a, b, x, y, z)
  | .accrd d a b x y z => some (0xE6, d, a, b, x, y, z)
  | .accwr d a b x y z => some (0xE7, d, a, b, x, y, z)
  | .accwait d a b x y z => some (0xE8, d, a, b, x, y, z)
  | .mstat d a b x y z => some (0xE9, d, a, b, x, y, z)
  | .packageReset _ => none
  | .pcieLinkTrain _ _ _ => none
  | .fabricLinkTrain _ _ => none
  | .clauseIssue _ => none
  | .agingCounterExpiry _ => none
  | .yieldExpiry _ => none
  | .memoryOpComplete _ _ => none
  | .flagBOpComplete _ _ => none
  | .strandEnd _ => none
  | .treeCompletion _ => none
  | .bentDispatch _ _ _ => none
  | .clusterStart _ => none
  | .childAccept _ => none
  | .triggerAdd _ _ => none
  | .waitdepResume _ => none
  | .waitseqResume _ => none
  | .lcwaitResume _ => none
  | .pollqResume _ => none
  | .presenceResume _ => none
  | .ottEntryRetry _ => none
  | .spawnQueueResume _ => none
  | .actldParkEnd _ => none
  | .dovetailReadResume _ => none
  | .dvpubParkResume _ => none
  | .pageWalk _ _ _ => none
  | .elasticFaultResolve _ _ _ => none
  | .invalidationComplete _ => none
  | .codebookRegionSet _ _ _ => none
  | .twinSwap _ _ => none
  | .engineEntryAccept _ => none
  | .chainWatchPoll _ _ => none
  | .copyLineDelivered _ => none
  | .entryComplete _ => none
  | .fabricPacketSend _ => none
  | .write _ => none
  | .reduce _ => none
  | .read _ => none
  | .atomic _ => none
  | .cas _ => none
  | .readResponse _ => none
  | .atomicResponse _ => none
  | .landingAck _ => none
  | .nackRetry _ => none
  | .nackStale _ => none
  | .nackFail _ => none
  | .faultHoldPerform _ => none
  | .retryResend _ => none
  | .remoteTimeout _ => none
  | .linkDown _ => none
  | .planeRetrain _ => none
  | .ptpEvent _ _ _ => none
  | .ptpMeasurement _ => none
  | .managementMessage _ => none
  | .framerAnnounce _ _ => none
  | .framerTakeover _ => none
  | .raisingTable _ => none
  | .raisingRepublishRequest _ => none
  | .outOfTurnRequest _ => none
  | .raisingHalt _ => none
  | .outOfTurnHalt _ => none
  | .outOfTurnResume _ => none
  | .runLimitExpiry _ => none
  | .drainWindowEnd _ => none
  | .raisingRestore _ => none
  | .amiahRingPoll _ _ => none
  | .launchPacket _ _ => none
  | .ringWaitPacket _ _ => none
  | .ringWaitSatisfied _ _ => none
  | .ringWritePacket _ _ => none
  | .fencePacket _ _ => none
  | .fencePacketDone _ _ => none
  | .leasePacket _ _ => none
  | .leaseReplace _ _ => none
  | .padPacket _ _ => none
  | .create _ _ _ _ _ => none
  | .destroy _ _ => none
  | .resumeStrand _ _ _ => none
  | .killStrand _ _ _ => none
  | .killTree _ _ _ => none
  | .ringRestart _ _ _ => none
  | .gangSet _ _ => none
  | .twinSet _ _ _ _ => none
  | .chainWatch _ _ _ => none
  | .chainUnwatch _ _ _ => none
  | .dirtyOn _ _ _ => none
  | .dirtyRound _ _ _ => none
  | .stopVf _ _ => none
  | .exportImage _ _ _ _ => none
  | .importImage _ _ _ _ => none
  | .startVf _ _ => none
  | .dirtyOff _ _ => none
  | .devwinSet _ _ _ => none
  | .attest _ _ _ _ => none
  | .energyInterval _ => none
  | .energyExhausted _ _ => none
  | .powerMeterSample _ _ => none
  | .returnToNominal _ => none
  | .slopeWindow _ _ => none
  | .hbmTempReading _ => none
  | .matrixOpStart _ _ => none
  | .matrixOpComplete _ _ => none
  | .sweepGroup _ _ => none
  | .setSlopeStep _ _ => none
  | .setPowerLimits _ _ => none
  | .setAccountingInterval _ => none
  | .setFramingPriority _ => none
  | .setShares _ _ _ => none
  | .pldmFirmwareStage _ => none
  | .spdmAttestation _ _ => none
  | .errorCountRead _ => none
  | .registerWrite _ _ => none
  | .applicationCoreAccess _ => none
  | .frameReclaim _ => none
  | .scheduledRaisingPublish _ _ => none

/-- The code word with the given opcode and fields (R162). -/
def packWord (opcode : Nat) (d a b : Field) (x y z : Bool) : Word :=
  BitVec.ofNat 8 opcode ++ d ++ a ++ b ++ BitVec.ofBool x ++ BitVec.ofBool y ++ BitVec.ofBool z

/-- The code word of an instruction; events have none. -/
def encode (i : Instr) : Option Word :=
  match i.parts with
  | some (op, d, a, b, x, y, z) => some (packWord op d a b x y z)
  | none => none

/-- The four bytes of a word in memory order (R162). -/
def wordBytes (w : Word) : List Byte :=
  [w.extractLsb' 0 8, w.extractLsb' 8 8, w.extractLsb' 16 8, w.extractLsb' 24 8]

/-- The decoder on a table word: an instruction is one 32-bit word, stored little-endian; bits at or above `nbits`
are 0. -/
def decodeTableWord (nbits w : Nat) : Option Instr :=
  match decode (wordBytes (BitVec.ofNat 32 (w % 2 ^ nbits))) with
  | .ok (i, _) => some i
  | .error _ => none

/-- Clause header fields (R166). -/
structure Header where
  count : Nat
  wait : BitVec 12
  flagA : Nat
  flagB : Nat
  yielding : Bool
  reserved : Bool
  deriving DecidableEq, Repr

/-- The header of a word that carries the header marker 0b1_1110. -/
def decodeHeader (w : Word) : Option Header :=
  if w.extractLsb' 27 5 = 0b11110 then
    some { count := (w.extractLsb' 22 5).toNat + 1, wait := w.extractLsb' 10 12,
           flagA := (w.extractLsb' 6 4).toNat, flagB := (w.extractLsb' 2 4).toNat,
           yielding := w.getLsbD 1, reserved := w.getLsbD 0 }
  else none

/-- Clause trailer fields (R166). -/
structure Trailer where
  literals : Nat
  exportCount : Nat
  exports : List Nat
  deriving DecidableEq, Repr

/-- The trailer of a word that carries the trailer marker 0b1_1111. -/
def decodeTrailer (w : Word) : Option Trailer :=
  if w.extractLsb' 27 5 = 0b11111 then
    some { literals := (w.extractLsb' 24 3).toNat, exportCount := (w.extractLsb' 21 3).toNat,
           exports := [(w.extractLsb' 14 7).toNat, (w.extractLsb' 7 7).toNat, (w.extractLsb' 0 7).toNat] }
  else none

/-- The word of a header with a count, a wait mask, flags A and B and the yield bit. -/
def encodeHeader (count : Nat) (wait : BitVec 12) (flagA flagB : Nat) (yielding : Bool) : Word :=
  (0b11110 : BitVec 5) ++ BitVec.ofNat 5 (count - 1) ++ wait ++ BitVec.ofNat 4 flagA ++ BitVec.ofNat 4 flagB
    ++ BitVec.ofBool yielding ++ (0 : BitVec 1)

/-- The word of a trailer with a literal count and no exports. -/
def encodeTrailer (literals : Nat) : Word :=
  (0b11111 : BitVec 5) ++ BitVec.ofNat 3 literals ++ (0 : BitVec 24)

end Sys2Proof
end

