-- ==== Sys2Proof/Config.lean ====
section
/-!
DEFINITION. What the spec leaves open, as constants with no body: nothing can be proved of their values. `fresh` is a
counter of the state that selects a new value for each use.
-/
namespace Sys2Proof.Config

/-- The undefined value of temporary `code` of a lane before its first write in a clause (R168). -/
opaque freeTemp (fresh code lane : Nat) : Word
/-- Nanoseconds that pass before a turn that the environment has not timed (R6, R22). -/
opaque elapsed (fresh : Nat) : Nat
/-- Does the L1 still hold a line that it held before (R104, R417)? -/
opaque l1Keeps (fresh line : Nat) : Bool
/-- Is a cached translation still held when it is used (R149)? -/
opaque tlbKeeps (fresh page level : Nat) : Bool
/-- The alignment that PFM asks of an address, as a power of two (R253): the spec states none. -/
opaque prefetchAlign : Nat
/-- Does a translation use an installed span entry rather than the page's own leaf (R144)? -/
opaque spanRule (fresh page : Nat) : Bool
/-- The slice and set of a line on its home die (R102, R109); the spec gives no mapping. -/
opaque l2Set (line : Nat) : Nat
/-- Which lines stay in a cache when lines of a full set, or of a full L1, are replaced (R104, R417). -/
opaque stayRank (fresh line : Nat) : Nat
/-- A byte that a device returns to a load (R260). -/
opaque deviceByte (fresh addr : Nat) : Byte
/-- The order in which the captures of one step reach their list (R85): those of lower rank first. -/
opaque captureRank (fresh index : Nat) : Nat
/-- The code that stands for "nearest" in a table that decodes to no finite value (R93). -/
opaque noFiniteCode (x : Nat) : Nat
/-- Does a store to a block of codes, performed after a write-back to the block, leave the block without what was written back
(R97)? -/
opaque blockWins (fresh block : Nat) : Bool
/-- Does L2 evict a codebook alias line in a step (R96)? -/
opaque evicts (fresh line : Nat) : Bool
/-- Rows that an ACCLD or ACCST has done when a halt stops it at a row boundary (R317). -/
opaque haltRow (fresh seq : Nat) : Nat
/-- Where Amiah looks for a free HBM frame (R418). -/
opaque pickFrame (fresh : Nat) : Nat
/-- Nanoseconds beyond 3 µs by which the framer publishes a kind-2 entry ahead of its time (R392, R417). -/
opaque resumeLead (fresh : Nat) : Nat
/-- The order in which the cores of a function are reserved for a context's collective crews (R335): those of lower rank
first. -/
opaque reservedRank (ctx core : Nat) : Nat
/-- The order in which clusters are chosen for a footprint (R391): those of lower rank first. -/
opaque footprintRank (fresh cluster : Nat) : Nat
/-- The framer's list of latency-critical contexts: footprint size and run limit of a listed one (R391). -/
opaque latencyCritical (fresh vf ctx : Nat) : Option (Nat × Nat)
/-- The clock, above 0.95 GHz and counted in MHz, to which Amiah lowers a ceiling (R400, R401). -/
opaque loweredClock (fresh : Nat) : Nat
/-- The step ceiling, above 8, to which Amiah lowers a function's clusters (R400). -/
opaque loweredCeiling (fresh : Nat) : Nat
/-- The bytes of the configuration that are hashed for M3 at a change (R409). -/
opaque configImage (fresh : Nat) : List Byte
/-- Where Amiah looks for a free key ID (R146). -/
opaque pickKey (fresh : Nat) : Nat
/-- The HBM share in an attestation report of a function whose shares differ from stack to stack (R411). -/
opaque reportShare (fresh : Nat) : Nat
/-- The digest of Skeana's public key that the ROM holds (R409). -/
opaque romDigest : List Byte
/-- The package's fused secret, and the device identity key pair's private half that Amiah derives from a secret (R410). -/
opaque fusedSecret : List Byte
opaque identityKey (secret : List Byte) : List Byte
/-- The private half of the attestation key pair that Amiah generates at a boot (R410). -/
opaque attestationKey (boot : Nat) : List Byte
/-- Falcon-1024: the public half of a private key, a signature under a private key, and verification under a public key
(R408 to R411). -/
opaque falconPublic (key : List Byte) : List Byte
opaque falconSign (key data : List Byte) : List Byte
opaque falconVerify (key data signature : List Byte) : Bool
/-- By how much, ns, Amiah moves the time base forward at a measurement that finds it behind (R340, R379). -/
opaque slew (fresh : Nat) : Nat
/-- The entries of a former framer that are not reached yet, with their packages, as the host operating system of the framer that
takes over knows them (R381). -/
opaque formerEntries (fresh : Nat) : List (Nat × BitVec 256)
/-- Energy of one depth step of a matrix operation, and of one instruction of a strand, µJ (R402). -/
opaque stepEnergy (fresh : Nat) : Nat
opaque instrEnergy (fresh op : Nat) : Nat
/-- Energy of a function's shim operations, µJ (R398). -/
opaque shimEnergy (shims : Nat) : Nat
/-- Opaque bytes of an image block from byte 192 on, of a context at a save (R419). -/
opaque imageRest (fresh ctx : Nat) : List Byte

end Sys2Proof.Config
end

