-- ==== Sys2Proof/Machine/State.lean ====
section
/-!
DEFINITION. The state of one JX960 package as plain data (R12, R14, R26 to R419), the reasons a step can stop, and
the state after reset. Every register and store the spec names has one home here.

Keys. A context is 0-63. A strand is keyed by `sid = context * 16384 + place`, where place is the strand-slot
number of R12 (0-9215) or 9216 + cluster for a truss strand. A core's private tables are keyed by
`ck = context * 1024 + q`, where q is the core (0-575) or 576 + cluster for a truss core. A context's strands and
bents stay under their keys while the context is saved (R387): `Cluster.occupant` says whose state a cluster runs.
-/
namespace Sys2Proof.Machine

/-- A finite map from numbers, as a list of pairs; the first pair with a key counts. -/
abbrev AMap (α : Type) := List (Nat × α)

/-- A byte store in canonical form: addresses strictly rising, no entry 0; an unlisted address reads 0. -/
abbrev Mem := List Host.Cell

/-- Where one byte range of an access lies once it has been checked and translated (R98). -/
inductive Loc where
  /-- package HBM or a codebook window, by physical address -/
  | hbm (pa : Nat)
  /-- a byte of a twin buffer by its side-A physical address: the side is chosen when it is performed (R112) -/
  | twin (ctx idx pa : Nat)
  /-- a PCIe or device range (R137, R260) -/
  | dev (pa : Nat)
  /-- the lane slice of a lane of a strand -/
  | lane (sid lane off : Nat)
  /-- the core scratchpad of a crew of a bent -/
  | core (bent crew off : Nat)
  /-- the cluster-shared allocation of a bent -/
  | clus (bent off : Nat)
  /-- the die-scratchpad share of a context -/
  | die (ctx off : Nat)
  deriving DecidableEq, Repr

/-- One lane's access of one instruction: the register it fills or empties, where it goes, and a store's bytes. -/
structure LaneAcc where
  lane : Nat
  reg : Nat
  loc : Loc
  bytes : Nat
  data : List Byte := []
  compare : List Byte := []
  deriving DecidableEq, Repr

/-- One lane's remote operation in flight (R255): its tag and whether its reply has come. -/
structure RemoteLane where
  lane : Nat
  /-- register that its value fills; 128 for none -/
  reg : Nat
  addr : DWord
  tag : Nat
  answered : Bool := false
  failed : Option Nat := none
  deriving DecidableEq, Repr

/-- An activation-table slot (R240). -/
structure ActSlot where
  lo : Word
  hi : Word
  linear : Bool
  inv : Word
  knots : List Word
  deriving DecidableEq, Repr

/-- A running sweep (R302 to R307): the operation, its shape registers, its captured records and what it has reached. -/
structure Sweep where
  code : Nat
  shD : Nat
  shA : Nat
  shB : Nat
  recA : BitVec 512
  recB : BitVec 512
  sel : Nat
  mode : DWord
  lowLane : Nat
  /-- the activation slot as SWACT captured it (R304) -/
  slot : Option ActSlot := none
  /-- SWRED's running total of the output in progress -/
  total : Option Word := none
  /-- the address whose elastic fault it waits for (R307) -/
  elastic : Option Nat := none
  deriving DecidableEq, Repr

/-- What an outstanding flag-A or flag-B operation does when it completes (R169). -/
inductive OpKind where
  /-- a load of width code `w` under a cache policy (R251) -/
  | load (w policy : Nat) (accs : List LaneAcc)
  /-- a store under a cache policy (R251) -/
  | store (policy : Nat) (accs : List LaneAcc)
  /-- an ATOM, ATOMK or ATOMQ (R259) -/
  | atomic (code : Nat) (wide : Bool) (accs : List LaneAcc)
  /-- an ACAS form (R259) -/
  | cas (accs : List LaneAcc)
  /-- a prefetch (R253) -/
  | prefetch (policy : Nat) (accs : List LaneAcc)
  /-- LLOCK, LUNLK or LQRY (R254) -/
  | lock (accs : List LaneAcc)
  | unlock (accs : List LaneAcc)
  | query (accs : List LaneAcc)
  /-- register writes and cf bits of a flag-B form, computed at issue (R169, R239) -/
  | regs (writes : List (Nat × Nat × Word)) (flags : List (Nat × Word)) (columns : List (Nat × Word))
  /-- ACCRD and ACCWR (R315): the tile, and the values that land in registers or in a row of the tile -/
  | tileRead (tile : Nat) (writes : List (Nat × Nat × Word))
  | tileWrite (tile row : Nat) (vals : List (Nat × Word))
  /-- an ACTLD in step 3 (R241) -/
  | actLoad (slot : Nat) (locs : List Loc)
  /-- RLD, RST, RATOM or RCAS (R255, R259); `w` is the width code of the destination, 7 for none -/
  | remote (w : Nat) (lanes : List RemoteLane)
  /-- a sweep -/
  | sweep (s : Sweep)
  /-- SHLD and SHST (R300) -/
  | shapeLoad (sh : Nat) (loc : Loc)
  | shapeStore (loc : Loc) (data : List Byte)
  /-- CPQ (false) or XFQ (true) (R345); `elastic` is the address whose elastic fault it waits for -/
  | post (fabric : Bool) (reg : Nat) (desc : DWord) (entry : List Word) (elastic : Option Nat)
  /-- XSEND and XPUTV/XREDV, waiting for their transfers (R351, R352) -/
  | send (reg entry : Nat)
  | putv (entries : List (Nat × Nat))
  /-- LCRD (R353) -/
  | counterRead (reg : Nat) (loc : Loc)
  /-- PUBL waiting for its swap (R354) -/
  | publish (twin : Nat)
  /-- SPAWN (R355) -/
  | spawn (reg : Nat) (loc : Loc)
  /-- TRIG's pending addition, which holds no flag (R357) -/
  | trigger
  deriving DecidableEq, Repr

/-- An outstanding operation of a strand: its number, its completion flag (15 for none), the register codes it is to
write, whether it holds an entry of the outstanding-transaction table (R116), and its effect (R169). -/
structure Op where
  id : Nat
  flag : Nat
  dests : List Nat
  entry : Bool
  kind : OpKind
  deriving DecidableEq, Repr

/-- A failed operation whose failure the strand has not observed yet (R256, R307). -/
structure OpFailure where
  /-- the number of the operation: of several failures the oldest operation's is taken first -/
  op : Nat
  flag : Nat
  /-- registers, cf as 123, that the operation was to write, and shape registers that it used -/
  regs : List Nat
  shapes : List Nat := []
  cause : Nat
  reason : Nat
  lanes : BitVec 96
  addr : DWord
  extra0 : Word
  extra1 : Word
  extra2 : Word
  deriving DecidableEq, Repr

/-- Why a strand is parked (R51). -/
inductive Park where
  /-- the byte ranges whose lines it waits for -/
  | presence (need : List (Loc × Nat))
  /-- the channels whose rounds it waits for, with the lanes that read them -/
  | dovetail (needs : List (Nat × List Nat))
  | publish5 (channel : Nat)
  | lcwait (watch : Nat)
  /-- `met` once the word has been at the target (R349) -/
  | waitseq (loc : Loc) (target : DWord) (met : Bool)
  | pollq (mask : DWord) (reg : Nat)
  | waitdep
  | table
  | spawnQueue
  | actSlot (slot : Nat)
  /-- the lane and the address of the fault; `fetch` for that of a clause -/
  | elastic (lane va : Nat) (fetch : Bool)
  | energy
  | trapPark
  deriving DecidableEq, Repr

/-- The trap frame that handler entry saves (R205). -/
structure Frame where
  clause : DWord
  slot : Nat
  temps : AMap (AMap Word)
  mode : DWord
  em : BitVec 96
  deriving DecidableEq, Repr

/-- One strand, vector or truss (R26 to R29, R164 to R175, R389). -/
structure Strand where
  launch : Nat
  bent : Nat
  crew : Nat
  sn : Nat
  truss : Bool
  nregs : Nat
  /-- lanes not beyond the item count and not exited (R26, R28) -/
  present : BitVec 96
  /-- em0-em2, bit j for lane j (R27) -/
  em : BitVec 96
  /-- v0-v99: register, then lane -/
  v : AMap (AMap Word) := []
  /-- t0-t7; a lane that nothing has written in this clause is not listed (R168) -/
  t : AMap (AMap Word) := []
  /-- cf of each lane (R175) -/
  cf : AMap Word := []
  /-- the mode register (R174) -/
  mode : DWord
  /-- sh0-sh15 (R298) -/
  sh : AMap (BitVec 512) := []
  /-- header address of the current or next clause -/
  clause : DWord
  /-- next instruction: 0 before a clause, else its word index, the header being word 0 (R171) -/
  slot : Nat := 0
  /-- the words of the clause in execution, header first, as fetched (R167, R173) -/
  words : List Word := []
  /-- a clause is in execution -/
  executing : Bool := false
  /-- target of a control transfer that takes effect at the end of the clause (R172) -/
  jump : Option DWord := none
  ops : List Op := []
  failures : List OpFailure := []
  park : Option Park := none
  /-- cycles ready and not issued (R49) -/
  aging : Nat := 0
  lastIssue : Nat := 0
  /-- cycle count of the cluster at which a yield ends (R166) -/
  yieldUntil : Option Nat := none
  /-- registers that earlier clauses named as exports (R48) -/
  exports : List Nat := []
  /-- POLLQ's last ring (R350) -/
  pollLast : Nat := 63
  handler : Bool := false
  frame : Option Frame := none
  /-- trap record, words 0-11 (R206) -/
  trapRecord : AMap Word := []
  /-- arrivals at BAR 0-3 and BARQ 0-3 (at 4-7) (R201) -/
  arrivals : AMap Nat := []
  /-- the barrier whose instruction this strand has arrived at and not left -/
  atBarrier : Option Nat := none
  /-- the instance of that barrier is complete (R201) -/
  departing : Bool := false
  /-- the invalidate address register (R207) -/
  invalAddr : DWord := 0
  /-- the invalidation its SWRITE waits for (R207) -/
  invalidation : Option Nat := none
  /-- no lane is present, or the strand was killed: it issues nothing more (R200) -/
  finished : Bool := false
  /-- STRAND_END has happened; the slot stays held until the crew ends (R42) -/
  ended : Bool := false
  /-- lane slices: byte o of lane j at 4096 * j + o -/
  slice : Mem := []
  /-- of a saved strand: its first physical register and the first byte of its lane slices in the images of its save (R387,
  R389) -/
  regBase : Nat := 0
  sliceBase : Nat := 0
  /-- of a saved strand: the ended strand whose boundary buffers the save kept in this strand's part (R70, R387) -/
  retained : Option Nat := none
  deriving DecidableEq, Repr

/-- A scarf packet (R42): the strand that left it, the entry, the strand count and the argument words. -/
structure ScarfPacket where
  sn : Nat
  entry : DWord
  count : Nat
  args : List Word
  deriving DecidableEq, Repr

/-- A created crew of a bent (R31, R42, R98, R105). -/
structure Crew where
  core : Nat
  firstSn : Nat
  /-- the held slots, in strand order (R42) -/
  sids : List Nat
  scarfs : List ScarfPacket := []
  kspad : Mem := []
  /-- absent lines: (line, copy entry), entry 0 for a line a failed copy left absent (R105, R119) -/
  absent : List (Nat × Nat) := []
  /-- of a saved crew: where its scratchpad begins in the image of its save (R387) -/
  spadAt : Nat := 0
  deriving DecidableEq, Repr

/-- An accumulator tile: its kind and its pairs, pair (i, j) at 64 * i + j, s in the low word (R86, R308). -/
structure Tile where
  isInt : Bool := false
  pairs : AMap DWord := []
  deriving DecidableEq, Repr

/-- An operation in the matrix queue with its captured records (R311). `code` is the opcode's low digit. -/
structure MatOp where
  seq : Nat
  code : Nat
  tile : Nat
  recA : BitVec 512
  recB : BitVec 512
  mode : DWord
  /-- operations of the truss strand that its entry releases towards it (R128) -/
  after : List Nat := []
  started : Bool := false
  nextRow : Nat := 0
  /-- depth steps made (R396) -/
  steps : Nat := 0
  /-- the address whose elastic fault it waits for (R157) -/
  elastic : Option Nat := none
  deriving DecidableEq, Repr

/-- A placed bent (R31, R34): its cluster, crews, cluster-shared allocation, accumulator tiles and matrix queue. -/
structure Bent where
  ctx : Nat
  launch : Nat
  index : Nat
  cluster : Nat
  crews : AMap Crew := []
  /-- sid of the truss strand (R34) -/
  truss : Option Nat := none
  /-- the cluster-shared allocation: its part of each core position's window (R33) -/
  qspad : AMap Mem := []
  absent : List (Nat × Nat) := []
  tiles : AMap Tile := []
  matq : List MatOp := []
  /-- bytes that an ACCST has written and that no program observes before the truss strand has waited for it (R115): the
  operation's tile, the location and the bytes, oldest first -/
  hidden : List (Nat × Loc × List Byte) := []
  /-- last sequence number issued (R311) -/
  mseq : Nat := 0
  /-- sticky bits of the matrix status word (R312) -/
  mFailed : Bool := false
  mNV : Bool := false
  mUF : Bool := false
  mOF : Bool := false
  /-- first failed operation since the last clear, 0 if none -/
  mFirstFailed : Nat := 0
  /-- of a saved bent: where its part of each window begins in the image of its save (R387) -/
  windowStart : Nat := 0
  deriving DecidableEq, Repr

/-- A lease range (R155). -/
structure LeaseRange where
  base : Nat
  pages : Nat
  elastic : Bool
  deriving DecidableEq, Repr

/-- A dovetail channel of a strand (R59, R64 to R67, R70). -/
structure Channel where
  vs : Nat
  dist : Nat
  self : Bool
  defaults : AMap Word
  /-- publication count p_c -/
  count : Nat := 0
  /-- unconsumed published rounds: round number, then lanes 96 - k to 95 -/
  rounds : AMap (List Word) := []
  ended : Bool := false
  /-- lanes 96 - k to 95 at the end or DVEND -/
  final : List Word := []
  deriving DecidableEq, Repr

/-- The dovetail state of one strand of a launch; it outlives the strand's slot (R66, R70). -/
structure Dovetail where
  chans : AMap Channel := []
  ended : Bool := false
  deriving DecidableEq, Repr

/-- An accepted launch (R30, R39, R45, R46). -/
structure Launch where
  ctx : Nat
  tree : Nat
  /-- the launch descriptor (R367) -/
  desc : BitVec 512
  /-- the lease bound at acceptance (R368) -/
  lease : List LeaseRange
  leaseId : Nat
  /-- producers still awaited: launch and required trigger count -/
  deps : List (Nat × Nat) := []
  /-- trigger count, modulo 2^32 -/
  trig : Nat := 0
  nextBent : Nat := 0
  /-- bents dispatched and not yet ended -/
  liveBents : Nat := 0
  ended : Bool := false
  dovetail : AMap Dovetail := []
  deriving DecidableEq, Repr

/-- A launch tree (R39, R369, R370). -/
structure Tree where
  ctx : Nat
  /-- seed sequence: ring in [63:56], ring count in [55:0] -/
  seedSeq : DWord
  /-- spawn-tree counter, 48 bits -/
  counter : Nat
  /-- first failure status recorded -/
  status : Option Nat := none
  record : DWord
  args : DWord
  lease : List LeaseRange
  /-- ended early: the tree was terminated -/
  killed : Bool := false
  /-- out-of-turn: its run limit in ns (R391) -/
  urgent : Option Nat := none
  deriving DecidableEq, Repr

/-- Where a translation is cached (R149, R150): the last-page register of a lane, the TLB of a core (0-575, or 576 +
cluster for a truss core), the last-level TLB of a die, or what the engines hold for a virtual function. -/
inductive TlbHome where
  | lane (sid lane : Nat)
  | core (core : Nat)
  | die (die : Nat)
  | engine (vf : Nat)
  deriving DecidableEq, Repr

/-- A page of cached translation (R143, R149): what a walk installed. -/
structure TlbEntry where
  home : TlbHome
  ctx : Nat
  vpn : Nat
  /-- pages in the entry: 1, 32 or 1,024 -/
  span : Nat
  leaf : DWord
  /-- pages of the entry whose dirty bit is known to be set -/
  dirty : List Nat := []
  deriving DecidableEq, Repr

/-- An invalidation request (R150). -/
structure Invalidation where
  ctx : Nat
  first : Nat
  /-- 0 for the whole context -/
  pages : Nat
  deriving DecidableEq, Repr

/-- What holds a launch ring at its head packet (R365, R368). -/
inductive RingHold where
  /-- `met` once the word has been at the value (R349) -/
  | word (loc : Loc) (value : DWord) (met : Bool)
  | fence (trees : List Nat) (invalidation : Option Nat)
  | lease (id : Nat) (ranges : List LeaseRange)
  deriving DecidableEq, Repr

/-- Amiah's view of one ring descriptor (R362, R363). -/
structure Ring where
  /-- the descriptor was checked when enable rose -/
  checked : Bool := false
  /-- tail as last acquired -/
  tail : Nat := 0
  unreadable : Bool := false
  hold : Option RingHold := none
  /-- trees started from earlier packets of the ring -/
  trees : List Nat := []
  deriving DecidableEq, Repr

/-- A child in the spawn queue (R355, R369). -/
structure Spawned where
  tree : Nat
  desc : BitVec 512
  deriving DecidableEq, Repr

/-- A context (R361). -/
structure Ctx where
  /-- the context record as copied at CREATE -/
  record : BitVec 1024
  vf : Nat
  /-- physical address of the twin table that Amiah maps (R111) -/
  twinPa : Nat
  /-- physical address of the save area (R387) -/
  saveArea : Nat
  /-- local clusters whose sections of the save area are valid (R390) -/
  saved : BitVec 18 := 0
  dspad : Mem := []
  absent : List (Nat × Nat) := []
  leases : AMap (List LeaseRange) := []
  rings : AMap Ring := []
  spawnQueue : List Spawned := []
  /-- gang table as last read: rank, then entry (R330) -/
  gang : AMap DWord := []
  /-- communicator table as last read (R336) -/
  comms : AMap (List Nat) := []
  /-- sequence of the last collective request on each communicator (R335) -/
  collectives : AMap Nat := []
  /-- watched chains: descriptor addresses (R346) -/
  watched : List DWord := []
  /-- tag bindings: tag, then the most recently accepted launch (R45) -/
  tags : AMap Nat := []
  /-- energy charged in this interval, debt and park count, µJ (R402, R403, R390) -/
  charge : Nat := 0
  debt : Nat := 0
  parks : Nat := 0
  exhausted : Bool := false
  /-- derating records held until the context is restored (R407) -/
  heldRecords : List (List Byte) := []
  deriving DecidableEq, Repr

/-- A cluster of the package (R24, R384 to R392). -/
structure Cluster where
  /-- the context whose state the cluster holds -/
  occupant : Option Nat := none
  /-- the occupant has had its cluster start -/
  started : Bool := false
  /-- halted in place (R391) -/
  halted : Bool := false
  /-- a cluster start is due, and its place in the order of starts (R36, R392) -/
  pending : Option Nat := none
  /-- its restore at a raising is due (R386) -/
  restore : Bool := false
  /-- energy metered and not charged yet, µJ (R371, R402) -/
  meter : Nat := 0
  deriving DecidableEq, Repr

/-- A virtual function (R17, R337, R380, R382). -/
structure Vf where
  resident : Option Nat := none
  /-- 8-bit generation -/
  gen : Nat := 0
  /-- end of the open drain window -/
  drainEnd : Option Nat := none
  /-- the context of the entry whose restore is awaited -/
  incoming : Option Nat := none
  lastStart : Option Nat := none
  stopped : Bool := false
  heldOutOfStep : Bool := false
  heldRefused : Bool := false
  /-- an entry accepted since the refusal has ended that cause of the hold, and is to be acted on (R382) -/
  released : Bool := false
  /-- the context that a hold has halted, or whose restore it keeps back (R380) -/
  held : Option Nat := none
  /-- a STOP has halted the function and waits for its packets to drain (R373) -/
  stopping : Bool := false
  /-- the open kind-1 entry: sequence, victim context, footprint, time (R391) -/
  openOut : Option (Nat × Nat × Nat × Nat) := none
  /-- raisings decide its resident context: it has been raised, held or stopped -/
  raised : Bool := false
  /-- a kind-0 entry closed its open kind-1 entry (R382) -/
  outClosed : Bool := false
  /-- an out-of-turn request that no kind-1 entry has answered: is its tree over already (R391, R392)? -/
  request : Option Bool := none
  /-- dirty log enabled: address of the bitmap (R160) -/
  dirtyOn : Option Nat := none
  /-- device windows: base, length in pages (R148) -/
  devWin : List (Nat × Nat) := []
  /-- requests held for a target-side elastic fault (R329) -/
  faultHold : List Packet := []
  drainNs : Nat := 2000
  deriving DecidableEq, Repr

/-- A landing-counter watch (R333, R353). -/
structure Watch where
  owner : Nat
  loc : Loc
  target : DWord
  fired : Bool
  deriving DecidableEq, Repr

/-- A core's private tables for one context (R240, R333). -/
structure Core where
  watches : AMap Watch := []
  acts : AMap ActSlot := []
  deriving DecidableEq, Repr

/-- Who posted a chain entry with CPQ or XFQ: the number its entry will have, its strand, tree and lease, and the
operations of the strand that its entry is released after (R128, R158). -/
structure Poster where
  id : Nat
  sid : Nat
  tree : Nat
  lease : List LeaseRange
  after : List Nat
  deriving DecidableEq, Repr

/-- A chain as its engine holds it (R342, R347). -/
structure Chain where
  ctx : Nat
  desc : DWord
  fabric : Bool
  /-- next sequence number to accept -/
  next : Nat
  /-- highest n such that every entry numbered ≤ n has completed -/
  completed : Nat
  /-- service stopped by a bookkeeping fault -/
  halted : Bool := false
  /-- the descriptor as the engine last read it -/
  seen : BitVec 512 := 0
  /-- posters of the entries not accepted yet, by sequence number -/
  posted : AMap Poster := []
  /-- completed entries above `completed` -/
  finished : List Nat := []
  /-- the engine has been made to look at the next slot and has not found it empty since (R346) -/
  look : Bool := false
  /-- bytes copied to global memory that no program observes before the sequence word tells of them (R115): the entry, the
  encoded address, the location and the bytes, oldest first -/
  hidden : List (Nat × Nat × Loc × List Byte) := []
  deriving DecidableEq, Repr

/-- A running engine command: a chain entry or a transfer of a strand (R343, R347, R351, R352). -/
structure Entry where
  ctx : Nat
  vf : Nat
  /-- chain key and sequence, or none for a strand's transfer -/
  chain : Option (Nat × Nat)
  /-- the strand that posted it, and its tree and lease -/
  sid : Option Nat
  tree : Option Nat
  lease : List LeaseRange
  /-- 1 copy, 2 fabric write, 3 fabric reduce -/
  kind : Nat
  source : DWord
  dest : DWord
  counter : DWord
  hasCounter : Bool
  peer : Nat
  format : Nat
  reduction : Nat
  length : Nat
  /-- bytes copied (copy), or payload bytes handed to packets (fabric) -/
  done : Nat := 0
  /-- when it was accepted, among the other numbers of the package (R113) -/
  accepted : Nat := 0
  /-- reads its source twin under an expected count (R114) -/
  expect : Bool := false
  /-- twins that the source reaches into, and the sides it reads, B as true, once chosen (R112, R348) -/
  srcTwins : List Nat := []
  sides : AMap Bool := []
  /-- twins that the destination reaches into, with their context (R113) -/
  destTwins : List (Nat × Nat) := []
  /-- where its scratchpad source and destination begin, from acceptance on (R343) -/
  srcAt : Option Loc := none
  destAt : Option Loc := none
  /-- payload of a lane's element, for XPUTV and XREDV -/
  inlineData : Option (List Byte) := none
  /-- packets sent, oldest first: payload bytes, acknowledged -/
  acks : List (Nat × Bool) := []
  /-- operations of the issuing strand that are performed before the entry acts (R128) -/
  after : List Nat := []
  /-- the address whose elastic fault it waits for (R157) -/
  elastic : Option Nat := none
  /-- R344 status once it has ended, and cause -/
  status : Option Nat := none
  cause : Nat := 0
  deriving DecidableEq, Repr

/-- A packet sent and not answered (R328, R339). -/
structure Sent where
  tag : Nat
  packet : Packet
  plane : Nat
  time : Nat
  /-- the strand operation it belongs to, or the entry and packet number -/
  sid : Option Nat
  entry : Option (Nat × Nat)
  resend : Bool := false
  /-- not sent yet: an earlier operation of its strand to the same bytes is open (R131) -/
  queued : Bool := false
  deriving DecidableEq, Repr

/-- A message Amiah sends on a system channel, or reports to management or the framer. -/
inductive Msg where
  | republish (expected : Nat)
  | urgent (r : UrgentRequest)
  /-- the urgent tree of a request is over: the victim, its footprint and its gang (R392) -/
  | urgentOver (r : UrgentRequest)
  | announce (priority yardPort : Nat)
  | step (inStep : Bool)
  | planeDown (plane : Nat)
  | bootFailed (stage : Nat)
  | errorEvent (line : Nat)
  | aliasError (pa : Nat)
  | chainError (chain : Nat)
  | attestation (bytes : List Byte)
  | errorCounts (unit count : Nat)
  deriving DecidableEq, Repr

/-- A line of a codebook window held decoded in L2 (R96). -/
structure AliasLine where
  die : Nat
  index : Nat
  /-- the virtual function in whose ways it lies (R103) -/
  vf : Nat
  bytes : List Byte
  dirty : Bool
  /-- allocated by a stream access: the next line to be replaced in its set (R104) -/
  next : Bool := false
  deriving DecidableEq, Repr

/-- What an image block holds of a context besides its record (R374): its structured state, the pages that its tree maps,
as (page, frame), its twin descriptors, and whether it was the function's resident context. -/
structure Exported where
  ctx : Nat
  vf : Nat
  gen : Nat
  resident : Bool
  context : Ctx
  strands : AMap Strand
  bents : AMap Bent
  launches : AMap Launch
  trees : AMap Tree
  cores : AMap Core
  chains : AMap Chain
  entries : AMap Entry
  pages : List (Nat × Nat)
  twins : List Byte
  /-- the ring table with every head and tail, the fault queue descriptor, and every chain descriptor, by address -/
  ringTable : List Byte
  faultQueue : List Byte
  chainDescs : List (Nat × List Byte)
  deriving DecidableEq, Repr

/-- The slope governor of one cluster (R396 to R399). -/
structure Slope where
  /-- the step field of the slope control register -/
  step : Nat := 4
  /-- the step in force in the current window (R399) -/
  active : Nat := 4
  /-- n of the last complete window -/
  last : Nat := 0
  /-- real steps of the current window so far -/
  steps : Nat := 0
  /-- steps that operations which a halt has brought to their end still make, in this window and the next ones -/
  owed : Nat := 0
  /-- shim operations of the last window -/
  shims : Nat := 0
  /-- context that issued the cluster's last real step (R398) -/
  charged : Option Nat := none
  /-- context that had issued the last real step when the current window began: it is charged for the window's shims -/
  payer : Option Nat := none
  /-- windows of 64 cycles that have ended (R396) -/
  windows : Nat := 0
  deriving DecidableEq, Repr

/-- Everything that executes: strands, memories, contexts, engines, fabric and raisings. -/
structure Pkg where
  /-- the strand whose instruction a word step executes -/
  cur : Option Nat := none
  /-- counts the choices the spec leaves open; selects the free values -/
  fresh : Nat := 0
  /-- time base, ns (R22) -/
  time : Nat := 0
  /-- thousandths of a cycle of each cluster since package reset (R21, R207) -/
  phases : AMap Nat := []
  /-- counts clause issues, to order them (R49) -/
  issues : Nat := 0
  nextId : Nat := 1
  strands : AMap Strand := []
  bents : AMap Bent := []
  launches : AMap Launch := []
  trees : AMap Tree := []
  ctxs : AMap Ctx := []
  clusters : AMap Cluster := []
  slopes : AMap Slope := []
  /-- lowered step ceiling of a function's clusters (R400) -/
  stepCeilings : AMap Nat := []
  vfs : AMap Vf := []
  cores : AMap Core := []
  /-- package HBM, by physical address -/
  mem : Mem := []
  /-- host-die memory, where host commands place their records (R148, R372) -/
  hostMem : Mem := []
  /-- the ring descriptor of the host command queue (R372) -/
  hostRing : BitVec 512 := 0
  /-- 128-byte lines with an uncorrectable error (R266, R415) -/
  badLines : List Nat := []
  /-- 128-byte lines of scratchpads and lane slices with an uncorrectable error, by their first byte (R415) -/
  badSpots : List Loc := []
  /-- cached words of each core's L1, by word number (R102, R135) -/
  l1 : AMap (AMap Word) := []
  /-- owning core of each written word (R135) -/
  owner : AMap Nat := []
  /-- pinned L2 lines: line, context (R109) -/
  pinned : AMap Nat := []
  tlb : List TlbEntry := []
  invalidations : AMap Invalidation := []
  /-- frame-key table: frame, then entry (R147) -/
  frameKeys : AMap (BitVec 16) := []
  /-- virtual function to which a key ID is assigned (R146) -/
  keyVf : AMap Nat := []
  /-- codebook region registers, die * 64 + index (R95) -/
  regions : AMap (BitVec 512) := []
  aliasLines : AMap AliasLine := []
  /-- what a block of 32 code bytes held before its last write-back, by block number, until a store to it (R97) -/
  codeBefore : AMap (List Byte) := []
  /-- writes to device ranges, oldest first (R260) -/
  devWrites : List (Nat × List Byte) := []
  chains : AMap Chain := []
  entries : AMap Entry := []
  sent : List Sent := []
  /-- packets that left the package, oldest first -/
  outbox : List Packet := []
  yardPort : Nat := 0
  planesDown : List Nat := []
  /-- when each plane last went down (R339) -/
  planeFailures : AMap Nat := []
  linkErrors : Nat := 0
  /-- raising table, unretired entries (R382) -/
  raisings : List (BitVec 256) := []
  lastRaisingSeq : Nat := 255
  inStep : Bool := true
  goodOffsets : Nat := 0
  /-- system-channel messages sent and reports made, oldest first -/
  msgs : List Msg := []
  /-- entries the framer has published, oldest first, with their packages (R382) -/
  published : List (Nat × BitVec 256) := []
  /-- host dies heard: yard port, then (priority, time) (R381) -/
  framers : AMap (Nat × Nat) := []
  framer : Option Nat := none
  framingPriority : Nat := 255
  /-- packages, by yard port, that have reported to the framer that they are out of step (R379, R393) -/
  outOfStep : List Nat := []
  /-- ends of out-of-turn pre-emptions that this host die, the framer before a changeover, has still to publish (R381, R392) -/
  owedEnds : List UrgentRequest := []
  /-- PTP timestamps taken: port, time (R340) -/
  ptpStamps : List (Nat × Nat) := []
  mgmtInbox : List Packet := []
  /-- what the application cores' loads returned, oldest first: address and bytes (R16) -/
  hostLoads : List (Nat × List Byte) := []
  /-- what the opaque bytes of each exported image block stand for (R419) -/
  images : List (List Byte × Exported) := []
  deriving DecidableEq, Repr

/-- Power, clocks, energy interval, thermal levels and shares (R327, R371, R396 to R407). -/
structure Power where
  packageLimit : Nat := 2400
  functionLimits : AMap Nat := []
  /-- clock ceiling of the package, MHz -/
  ceiling : Nat := 1300
  /-- lowered supply clock of a function's clusters, MHz -/
  functionClocks : AMap Nat := []
  /-- what the meters gave for the package and for each function in the last 1 ms, W, newest first (R400) -/
  packageWatts : List Nat := []
  functionWatts : AMap (List Nat) := []
  /-- consecutive 10 µs samples at which the average was at least 5 % below the package limit -/
  calmSamples : Nat := 0
  /-- thermal level of each stack (R406) -/
  levels : AMap Nat := []
  /-- samples of 10 µs that the meters have given (R400) -/
  samples : Nat := 0
  /-- accounting interval, ns (R371), and when the present one began -/
  interval : Nat := 1000000
  intervalStart : Nat := 0
  /-- fabric share of each function, in 64ths (R327) -/
  fabricShares : AMap Nat := []
  /-- HBM share by function * 16 + stack, in 64ths (R405) -/
  hbmShares : AMap Nat := []
  deriving DecidableEq, Repr

/-- Boot, measurements, identity, host links and error counts (R408 to R415). -/
structure Platform where
  /-- boot stages completed -/
  booted : Nat := 0
  bootFailed : Option Nat := none
  /-- M0-M3, as 64 bytes each; those not listed hold 0 (R409) -/
  measurements : AMap (List Byte) := []
  /-- boots so far: selects the fresh attestation key (R410) -/
  boots : Nat := 0
  /-- the private half of the device identity key pair that Amiah derived at this boot (R410) -/
  identityKey : List Byte := []
  /-- the private half of this boot's attestation key pair (R410) -/
  attestationKey : List Byte := []
  /-- the identity key's signature over the attestation key's public half (R410) -/
  certificate : List Byte := []
  /-- anti-rollback counters of the stages -/
  rollback : AMap Nat := []
  /-- the owner's public key, if it is fused (R408) -/
  ownerKey : Option (List Byte) := none
  /-- the strap that makes the PCIe port a root port, as the board sets it, and as it was sampled at reset (R413) -/
  strap : Bool := false
  rootPort : Bool := false
  /-- PCIe link: root port, rate, width (R413) -/
  pcie : Option (Bool × Nat × Nat) := none
  trainedPorts : List Nat := []
  /-- firmware staged for the next reset (R414) -/
  staged : List BootImage := []
  /-- corrected-error counts by unit (R415) -/
  corrected : AMap Nat := []
  /-- sent on the management interface, oldest first -/
  reports : List Msg := []
  deriving DecidableEq, Repr

/-- What the collective crews of another member of a communicator bring to a request (R336): its gang rank, its request, the
bytes of its send buffer, and the status with which the transfers between the two packages failed, if they did. -/
structure CollectivePeer where
  rank : Nat
  request : List Byte
  data : List Byte
  failed : Option Nat := none
  deriving DecidableEq, Repr

/-- What one turn of the schedule does. -/
inductive Act where
  /-- an event of the package -/
  | event (i : Instr)
  /-- a strand executes the next instruction of its clause -/
  | run (sid : Nat)
  /-- Amiah sets a function's drain window, in ns (R337) -/
  | setDrain (vf ns : Nat)
  /-- Amiah assigns a free key ID to a virtual function (R146) -/
  | assignKey (vf key : Nat)
  /-- Amiah enters a key ID for a frame, or for a page of the alias space, that no enabled key owns (R147, R412) -/
  | ownFrame (key frame : Nat)
  /-- Amiah meets a host command whose code is unknown (R372) -/
  | unknownCommand (cmd : Nat)
  /-- the collective crews of a context serve the request at the head of a collective ring (R335, R336) -/
  | collective (ctx ring : Nat) (peers : List CollectivePeer)
  /-- an uncorrectable error appears in the line of a physical address (R415) -/
  | upset (pa : Nat)
  /-- an uncorrectable error appears in a line of a scratchpad or lane slice (R415) -/
  | upsetAt (l : Loc)
  /-- a strand reads a register with an uncorrectable error (R415) -/
  | strandError (sid : Nat)
  /-- an error is corrected in a unit (R415) -/
  | corrected (unit : Nat)
  /-- a package reports to the framer that it is out of step, or back in step (R379) -/
  | stepReport (yardPort : Nat) (inStep : Bool)
  /-- the framer hears that an urgent tree is over (R392) -/
  | urgentOver (r : UrgentRequest)
  /-- the host operating system, or an external host through the endpoint's function, sets the ring descriptor of the host
  command queue (R372, R413) -/
  | hostRing (external : Bool) (desc : BitVec 512)
  /-- the host operating system writes host-die memory, or an external host a command of the queue (R372, R413) -/
  | hostWrite (external : Bool) (addr : Nat) (bytes : List Byte)
  /-- the board sets the PCIe strap (R413) -/
  | setStrap (rootPort : Bool)
  deriving DecidableEq, Repr

/-- One turn of the schedule: the time that passes before it, with the clock of the clusters in MHz (R21), and what it does. -/
structure Turn where
  ns : Nat
  mhz : AMap Nat
  act : Act
  deriving DecidableEq, Repr

/-- The state of the package. -/
structure State where
  /-- the turns to come, as the environment has set them; with none, a turn is derived from the state -/
  agenda : List Turn := []
  pkg : Pkg := {}
  power : Power := {}
  plat : Platform := {}
  deriving DecidableEq, Repr

/-- The reasons a step can stop with a fault. -/
inductive Fault where
  /-- An instruction word was executed while no strand had a clause in execution. Raised by the meanings of the
  210 instruction forms. Safe: no word executes on the package outside a strand. -/
  | noStrandRunning
  deriving DecidableEq, Repr

/-- The reasons a step can be refused. -/
inductive Refusal where
  /-- An instruction whose meaning this model does not give yet. Raised by `exec`. Safe. -/
  | notModelled (mnemonic : String)
  deriving DecidableEq, Repr

/-- The package right after reset: no context, no strand, memory with nothing listed (R408), every register at
the value its field map gives. -/
def State.reset : State := {}

end Sys2Proof.Machine
end

