-- ==== Sys2Proof/Machine/Tables.lean ====
section
/-!
DEFINITION. The containers of the state and their named operations: finite maps, the canonical byte store, and
the little-endian composition of bytes (R4).
-/
namespace Sys2Proof.Machine

namespace AMap

/-- The value listed under a key. -/
def get? {α : Type} : AMap α → Nat → Option α
  | [], _ => none
  | (k, v) :: rest, i => if k = i then some v else get? rest i

/-- The value under a key, or a default. -/
def get {α : Type} (m : AMap α) (i : Nat) (d : α) : α := (get? m i).getD d

/-- List a value under a key, in rising key order. -/
def set {α : Type} : AMap α → Nat → α → AMap α
  | [], i, x => [(i, x)]
  | (k, v) :: rest, i, x =>
    if i < k then (i, x) :: (k, v) :: rest
    else if k = i then (i, x) :: rest
    else (k, v) :: set rest i x

/-- Remove a key. -/
def erase {α : Type} (m : AMap α) (i : Nat) : AMap α := m.filter fun e => e.1 != i

/-- Change the value under a key, if one is listed. -/
def update {α : Type} (m : AMap α) (i : Nat) (f : α → α) : AMap α :=
  match get? m i with
  | some v => set m i (f v)
  | none => m

/-- Change every listed value. -/
def mapVals {α β : Type} (m : AMap α) (f : Nat → α → β) : AMap β := m.map fun e => (e.1, f e.1 e.2)

/-- The listed keys. -/
def keys {α : Type} (m : AMap α) : List Nat := m.map (·.1)

/-- The values of keys 0 to n - 1, listed. -/
def tabulate {α : Type} (n : Nat) (f : Nat → α) : AMap α := (List.range n).map fun j => (j, f j)

end AMap

namespace Mem

/-- The byte at an address: 0 where nothing is listed. -/
def read : Mem → Nat → Byte
  | [], _ => 0
  | (k, b) :: rest, a => if k = a then b else if a < k then 0 else read rest a

/-- Store a byte, keeping the canonical form. -/
def write : Mem → Nat → Byte → Mem
  | [], a, v => if v = 0 then [] else [(a, v)]
  | (k, b) :: rest, a, v =>
    if a < k then (if v = 0 then (k, b) :: rest else (a, v) :: (k, b) :: rest)
    else if k = a then (if v = 0 then rest else (a, v) :: rest)
    else (k, b) :: write rest a v

/-- The canonical form, above a lower bound: addresses strictly rising, no entry 0. -/
def wfFrom : Nat → Mem → Bool
  | _, [] => true
  | lo, (k, b) :: rest => decide (lo ≤ k) && b != 0 && wfFrom (k + 1) rest

/-- The canonical form of a byte store. -/
def wf (m : Mem) : Bool := wfFrom 0 m

/-- `n` bytes in ascending address order. -/
def readBytes (m : Mem) (a n : Nat) : List Byte := (List.range n).map fun i => read m (a + i)

/-- Store bytes in ascending address order. -/
def writeBytes : Mem → Nat → List Byte → Mem
  | m, _, [] => m
  | m, a, b :: rest => writeBytes (write m a b) (a + 1) rest

end Mem

/-- The number whose little-endian bytes are given (R4). -/
def leNat : List Byte → Nat
  | [] => 0
  | b :: rest => b.toNat + 256 * leNat rest

/-- The `n` little-endian bytes of a number (R4). -/
def leBytes : Nat → Nat → List Byte
  | 0, _ => []
  | n + 1, x => BitVec.ofNat 8 x :: leBytes n (x / 256)

/-- Bits `hi` down to `lo` of a number. -/
def bits (x hi lo : Nat) : Nat := (x >>> lo) % 2 ^ (hi + 1 - lo)

/-- Bit `n` of a number. -/
def bit (x n : Nat) : Bool := x.testBit n

/-- Bits `hi` down to `lo` of `x` replaced by the low bits of `f`. -/
def setBits (x hi lo f : Nat) : Nat :=
  x % 2 ^ lo + (f % 2 ^ (hi + 1 - lo)) * 2 ^ lo + (x / 2 ^ (hi + 1)) * 2 ^ (hi + 1)

/-- The two's-complement value of the low `w` bits of `x`. -/
def signedOf (w x : Nat) : Int :=
  let m := x % 2 ^ w
  if 2 * m < 2 ^ w then (m : Int) else (m : Int) - 2 ^ w

/-- The `w`-bit two's-complement pattern of an integer. -/
def patternOf (w : Nat) (x : Int) : Nat := (x % (2 ^ w : Int)).toNat

/-- The smallest multiple of `n` that is at least `x`, divided by `n`. -/
def ceilDiv (x n : Nat) : Nat := (x + n - 1) / n

end Sys2Proof.Machine
end

