-- ==== Sys2Proof/Machine/Flags.lean ====
section
/-!
DEFINITION. The per-lane flags word cf (R175, R77, R210) and the twelve completion flags (R169).
-/
namespace Sys2Proof.Machine

/-! ### cf -/

/-- cf bits of R175. -/
def cfC : Word := 0x1
def cfOOR : Word := 0x2
def cfDX : Word := 0x4
def cfSG : Word := 0x8
def cfNP : Word := 0x10
def cfCaptured : Word := 0x2000
def cfListFull : Word := 0x4000
/-- the bits of cf that exist; bits [31:15] read 0 -/
def cfMask : Word := 0x7FFF

/-- A value for each of the 96 lanes, listed. -/
def lanes {α : Type} (f : Nat → α) : AMap α := AMap.tabulate 96 f

/-- cf of a lane. -/
def Strand.cfAt (st : Strand) (j : Nat) : Word := st.cf.get j 0

/-- Change cf in the lanes that `on` selects; bits [31:15] stay 0 (R175). -/
def Strand.mapCf (st : Strand) (on : Nat → Bool) (f : Nat → Word → Word) : Strand :=
  { st with cf := lanes fun j => if on j then f j (st.cfAt j) &&& cfMask else st.cfAt j }

/-- Flag(j, set) in the lanes that `on` selects (R177). -/
def Strand.orFlags (st : Strand) (on : Nat → Bool) (flags : Nat → Word) : Strand :=
  st.mapCf on fun j old => old ||| flags j

/-- Write C in the lanes that `on` selects (R210). -/
def Strand.putCarry (st : Strand) (on : Nat → Bool) (c : Nat → Bool) : Strand :=
  st.mapCf on fun j old => (old &&& ~~~cfC) ||| (if c j then cfC else 0)

/-! ### Completion flags -/

/-- Is completion flag `n` set: some outstanding operation is assigned to it (R169). -/
def Strand.flagBusy (st : Strand) (n : Nat) : Bool := st.ops.any fun o => o.flag == n

/-- The twelve completion flags as one word, bit n for fn. -/
def Strand.flagWord (st : Strand) : BitVec 12 :=
  BitVec.ofNat 12 ((List.range 12).foldl (fun acc n => if st.flagBusy n then acc + 2 ^ n else acc) 0)

end Sys2Proof.Machine
end

