-- ==== Sys2Proof/Machine/Operands.lean ====
section
/-!
DEFINITION. Operands: the fields of the mode register (R174), the shape of every form's operands (R164, R165, R169,
R181), their legality, and reading and writing a strand's registers lane by lane (R26, R27, R177, R178).
-/
namespace Sys2Proof.Machine

/-! ### The mode register (R174) -/

def modeField (m : DWord) (hi lo : Nat) : Nat := bits m.toNat hi lo
def modeGuardOn (m : DWord) : Bool := m.getLsbD 0
def modeGuardReg (m : DWord) : Nat := modeField m 7 1
def modeGuardSense (m : DWord) : Bool := m.getLsbD 8
def modeElem (m : DWord) : Nat := modeField m 22 19
def modeRound (m : DWord) : Nat := modeField m 25 23
def modePolicy (m : DWord) : Nat := modeField m 27 26
def modeOrder (m : DWord) : Nat := modeField m 30 28
def modeFP64 (m : DWord) : Bool := m.getLsbD 31
def modeTP (m : DWord) : Nat := modeField m 42 32
def modeShuffle (m : DWord) : Nat :=
  match modeField m 45 43 with | 0 => 8 | 1 => 16 | 2 => 32 | 3 => 48 | _ => 96
def modeActSlot (m : DWord) : Nat := modeField m 46 46
def modePrio (m : DWord) : Int := signedOf 5 (modeField m 51 47)

/-- The mode register's reset value: TP 40, shuffle size 96, order 2, all else 0 (R174). -/
def modeReset : DWord := BitVec.ofNat 64 (2 * 2 ^ 28 + 40 * 2 ^ 32 + 4 * 2 ^ 43)

/-! ### Operand shapes -/

/-- How a form uses one of its operand fields. -/
inductive Opd where
  /-- ignored -/
  | no
  /-- a constant #n, or the number of a shape, tile, watch or selector -/
  | imm
  /-- the name of a general register that is neither read nor written (R275) -/
  | gen
  /-- `n` registers read in each lane -/
  | src (n : Nat)
  /-- `n` registers written -/
  | dst (n : Nat)
  /-- `n` registers read and written -/
  | upd (n : Nat)
  /-- a block of `n` general registers read from Low() (R341) -/
  | blk (n : Nat)
  /-- a small-matrix matrix or vector footprint, read and/or written (R280) -/
  | mat (r w : Bool)
  | vec (r w : Bool)
  /-- a small-matrix scalar: one register, or a pair in FP64 -/
  | scal (r w : Bool)
  deriving DecidableEq, Repr

/-- Completion classes (R169). -/
inductive Cls where
  | short | flagA | flagB | inPlace | queue
  deriving DecidableEq, Repr

/-- The shape of a form: its class, the cores it executes on (R181) and its operands. -/
structure Form where
  cls : Cls := .short
  vector : Bool := true
  truss : Bool := true
  d : Opd := .no
  a : Opd := .no
  b : Opd := .no
  deriving DecidableEq, Repr

/-- Registers of an access width code (R248). -/
def widthRegs (w : Nat) : Nat := match w with | 5 => 2 | 6 => 4 | _ => 1
/-- Bytes of an access width code (R248). -/
def widthBytes (w : Nat) : Nat := match w with | 0 => 1 | 1 => 1 | 2 => 2 | 3 => 2 | 4 => 4 | 5 => 8 | _ => 16

/-- Is an SREAD or SWRITE selector 64 bits wide (R207)? -/
def selWide (n : Nat) : Bool := n == 0 || n == 1 || n == 32
/-- The selectors of R207. -/
def selKnown (n : Nat) : Bool :=
  n ≤ 4 || (16 ≤ n && n ≤ 27) || n == 32 || n == 33 || (40 ≤ n && n ≤ 42)
def selWritable (n : Nat) : Bool := n == 32 || n == 33 || (40 ≤ n && n ≤ 42)
/-- The field selectors of SHSET and SHGET (R300). -/
def shSelKnown (n : Nat) : Bool :=
  n ≤ 6 || (8 ≤ n && n ≤ 12) || (16 ≤ n && n ≤ 20) || (24 ≤ n && n ≤ 28)

/-- Registers of a value of the mode's element type (R352): a pair for FP64. -/
def elemRegs (code : Nat) : Nat := if code == 3 then 2 else 1

/-- Three 32-bit registers, none a d source. -/
def formRRR : Form := { d := .dst 1, a := .src 1, b := .src 1 }
/-- Three 32-bit registers, d a source. -/
def formURR : Form := { d := .upd 1, a := .src 1, b := .src 1 }
/-- One 32-bit source. -/
def formRR : Form := { d := .dst 1, a := .src 1 }
/-- One 32-bit source and #n. -/
def formRRn : Form := { d := .dst 1, a := .src 1, b := .imm }
/-- Pairs throughout. -/
def formPPP : Form := { d := .dst 2, a := .src 2, b := .src 2 }

/-- The shape of the form with an opcode and a b field, in a strand whose mode has element type `elem`, on a truss
core or not. No form has the opcodes that R180 marks reserved. -/
def formOf (op b elem : Nat) (truss : Bool) : Option Form :=
  match op with
  -- integer and address (R209 to R218)
  | 0x00 | 0x01 | 0x02 | 0x03 | 0x04 | 0x06 | 0x07 | 0x08 | 0x09 | 0x0A | 0x0B => some formRRR
  | 0x0E | 0x0F | 0x10 | 0x11 | 0x13 | 0x14 | 0x15 | 0x16 | 0x17 | 0x18 => some formRRR
  | 0x21 | 0x22 | 0x23 | 0x24 | 0x25 | 0x26 => some formRRR
  | 0x05 | 0x19 | 0x1E | 0x1F => some formURR
  | 0x0C | 0x0D | 0x12 | 0x1A | 0x1B | 0x1C | 0x1D | 0x20 => some formRR
  | 0x27 | 0x28 => some formPPP
  | 0x29 | 0x2A => some { formRRR with d := .dst 2 }
  | 0x2B => some { formRRR with d := .upd 2 }
  -- floating point (R225)
  | 0x30 | 0x31 | 0x32 | 0x34 | 0x35 | 0x36 | 0x37 | 0x38 | 0x39 | 0x3D => some formRRR
  | 0x33 | 0x44 => some formURR
  | 0x3A | 0x3E | 0x3F => some formRRn
  | 0x3B => some formRR
  | 0x3C => some { formRRn with a := .src (if b == 3 then 2 else 1) }
  | 0x40 => some { formRRn with d := if b < 4 then .upd 1 else .dst 1 }
  | 0x41 => some { d := .dst (if b == 4 || b == 5 then 1 else 2), a := .src (if b < 6 then 2 else 1), b := .imm }
  | 0x42 | 0x43 | 0x45 | 0x46 => some formRRR
  | 0x47 | 0x48 | 0x4A | 0x4B => some formPPP
  | 0x49 => some { formPPP with d := .upd 2 }
  | 0x4C | 0x4D => some { formPPP with d := .dst 1 }
  | 0x4E => some { d := .dst (if b == 0 || 4 ≤ b then 2 else 1), a := .src (if b == 0 || 4 ≤ b then 1 else 2),
                   b := .imm }
  | 0x4F => some { formPPP with b := .imm }
  -- special function (R237)
  | 0x50 | 0x51 | 0x52 | 0x53 | 0x54 | 0x55 | 0x56 | 0x57 | 0x59 => some { formRR with cls := .flagB }
  | 0x58 => some { formRRR with cls := .flagB }
  | 0x5A => some { cls := .flagB, a := .src 2, b := .imm }
  | 0x5B | 0x5C => some { cls := .flagB, d := .dst 2, a := .src 2 }
  | 0x5D => some { formPPP with cls := .flagB }
  -- lanes (R269)
  | 0x60 | 0x61 | 0x62 | 0x63 => some { formRRR with truss := false }
  | 0x64 => some { formRRn with truss := false }
  | 0x65 | 0x66 | 0x6C => some { formRR with truss := false }
  | 0x67 | 0x68 => some { formRR with truss := false, cls := .flagB }
  | 0x69 | 0x6A | 0x6B => some { formRRn with truss := false, cls := .flagB }
  | 0x6D => some { truss := false, d := .gen, a := .src 1, b := .imm }
  | 0x6E | 0x6F => some { truss := false, b := .imm }
  -- small matrix (R282, R283)
  | 0x70 => some { cls := .flagA, truss := false, a := .src (if b < 64 then 1 else 2), b := .imm,
                   d := if b % 4 == 1 then .vec false true else .mat false true }
  | 0x71 => some { cls := .flagA, truss := false, a := .src (if b < 64 then 1 else 2), b := .imm,
                   d := if b % 4 == 1 then .vec true false else .mat true false }
  | 0x72 | 0x73 | 0x74 | 0x75 | 0x76 =>
    some { cls := .flagB, truss := false, d := .mat false true, a := .mat true false, b := .mat true false }
  | 0x77 => some { cls := .flagB, truss := false, d := .mat false true, a := .mat true false, b := .scal true false }
  | 0x78 | 0x7F => some { cls := .flagB, truss := false, d := .mat false true, a := .mat true false }
  | 0x79 => some { cls := .flagB, truss := false, d := .vec false true, a := .mat true false, b := .vec true false }
  | 0x7A => some { cls := .flagB, truss := false, d := .mat true true }
  | 0x7B => some { cls := .flagB, truss := false, d := .mat true true, b := .dst 1 }
  | 0x7C => some { cls := .flagB, truss := false, d := .vec true true, a := .mat true false, b := .src 1 }
  | 0x7D => some { cls := .flagB, truss := false, d := .scal false true, a := .mat true false, b := .src 1 }
  | 0x7E => some { cls := .flagB, truss := false, d := .mat false true, b := .imm }
  -- memory (R248, R249)
  | 0x80 | 0x84 | 0x86 => some { cls := .flagA, d := .dst (widthRegs (b / 16)), a := .src 1, b := .imm }
  | 0x81 | 0x85 | 0x87 => some { cls := .flagA, d := .src (widthRegs (b / 16)), a := .src 1, b := .imm }
  | 0x82 => some { cls := .flagA, d := .dst (widthRegs (b / 16)), a := .src (if truss then 2 else 1), b := .imm }
  | 0x83 => some { cls := .flagA, d := .src (widthRegs (b / 16)), a := .src (if truss then 2 else 1), b := .imm }
  | 0x88 | 0x90 => some { cls := .flagA, d := .dst (widthRegs (b / 16)), a := .src 2, b := .imm }
  | 0x89 | 0x91 => some { cls := .flagA, d := .src (widthRegs (b / 16)), a := .src 2, b := .imm }
  | 0x8A => some { cls := .flagA, truss := false, d := .dst (widthRegs (b / 16)), a := .src 1, b := .imm }
  | 0x8B => some { cls := .flagA, truss := false, d := .src (widthRegs (b / 16)), a := .src 1, b := .imm }
  | 0x8C | 0x8E => some { cls := .flagA, a := .src 2, b := .imm }
  | 0x8D => some { cls := .flagA, d := .dst 1, a := .src 2, b := .imm }
  | 0x8F => some { cls := .flagA, d := .dst 2, a := .src 2, b := .imm }
  -- atomics and fences (R257)
  | 0xA0 | 0xA6 => some { cls := .flagA, d := .upd (if b < 64 then 1 else 2), a := .src 2, b := .imm }
  | 0xA1 => some { cls := .flagA, d := .upd (if b < 64 then 1 else 2), a := .src (if truss then 2 else 1), b := .imm }
  | 0xA2 => some { cls := .flagA, d := .upd (if b < 64 then 1 else 2), a := .src 1, b := .imm }
  | 0xA3 => some { cls := .flagA, d := .upd 1, a := .src 2, b := .src 1 }
  | 0xA4 | 0xA7 => some { cls := .flagA, d := .upd 2, a := .src 2, b := .src 2 }
  | 0xA5 => some { cls := .flagA, d := .upd 4, a := .src 2, b := .src 4 }
  | 0xA8 | 0xA9 | 0xAA | 0xAB | 0xAC => some { cls := .inPlace }
  -- shapes and sweeps (R300, R302)
  | 0xB0 | 0xB1 => some { cls := .flagA, d := .imm, a := .src (if b < 64 || truss then 2 else 1), b := .imm }
  | 0xB2 => some { d := .imm, a := .src (if b == 0 then 2 else 1), b := .imm }
  | 0xB3 => some { d := .dst (if b == 0 then 2 else 1), a := .imm, b := .imm }
  | 0xB4 => some { d := .imm }
  | 0xB5 | 0xB6 | 0xB7 | 0xB8 | 0xB9 | 0xBA | 0xBB | 0xBC | 0xBD =>
    some { cls := .flagA, truss := false, d := .imm, a := .imm, b := .imm }
  -- engines and launches (R341)
  | 0xC0 | 0xC1 => some { cls := .flagA, d := .dst 2, a := .blk 16, b := .src 2 }
  | 0xC2 => some { cls := .inPlace, a := .src 2, b := .src 2 }
  | 0xC3 => some { cls := .inPlace, d := .dst 1, a := .src 2 }
  | 0xC4 => some { cls := .flagA, d := .dst 2, a := .blk 8 }
  | 0xC5 | 0xC6 => some { cls := .flagA, d := .src (elemRegs elem), a := .src 4, b := .imm }
  | 0xC7 => some { d := .upd 1, a := .src 2, b := .src 2 }
  | 0xC8 => some { cls := .inPlace, a := .src 1 }
  | 0xC9 => some { cls := .flagA, d := .dst 2, a := .src 2 }
  | 0xCA => some { cls := .flagA, a := .src 2 }
  | 0xCB => some { cls := .flagA, d := .dst 1, a := .src 2 }
  | 0xCC => some { a := .blk 8 }
  | 0xCD => some {}
  | 0xCE => some { cls := .inPlace }
  -- control (R198)
  | 0xD0 => some { b := .src 1 }
  | 0xD1 | 0xD2 | 0xD3 => some { a := .src 1, b := .src 1 }
  | 0xD4 => some { d := .dst 2, b := .src 1 }
  | 0xD5 => some { a := .src 2 }
  | 0xD6 => some {}
  | 0xD7 | 0xD8 => some { cls := .inPlace, b := .imm }
  | 0xD9 => some { a := .src (if b == 9 then 2 else 1), b := .imm }
  | 0xDA => some { d := .dst (if b == 9 then 2 else 1), b := .imm }
  | 0xDB => some { a := .src 1, b := .imm }
  | 0xDC => some { a := if b == 2 then .src 2 else .no, b := .imm }
  | 0xDD => some { d := .dst (if selWide b then 2 else 1), b := .imm }
  | 0xDE => some { a := .src (if selWide b then 2 else 1), b := .imm }
  | 0xDF => some {}
  -- matrix (R308)
  | 0xE0 | 0xE1 | 0xE2 => some { cls := .queue, vector := false, d := .imm, a := .imm, b := .imm }
  | 0xE3 => some { cls := .queue, vector := false, d := .imm }
  | 0xE4 | 0xE5 => some { cls := .queue, vector := false, d := .imm, a := .imm }
  | 0xE6 => some { cls := .flagB, truss := false, d := .dst 1, a := .imm, b := .src 1 }
  | 0xE7 => some { cls := .flagB, truss := false, d := .imm, a := .src 1, b := .src 1 }
  | 0xE8 => some { vector := false, b := .imm }
  | 0xE9 => some { vector := false, d := .dst 1, b := .imm }
  | _ => none

/-! ### Footprints -/

/-- Lengths of the small-matrix footprints. -/
structure Sizes where
  mat : Nat
  vec : Nat
  scal : Nat
  deriving DecidableEq, Repr

/-- The footprints under a mode register (R280). -/
def modeSizes (m : DWord) : Sizes :=
  let n := modeOrder m
  let k := if modeFP64 m then 2 else 1
  ⟨k * n * n, k * n, k⟩

/-- The largest footprints, which the check of R171 counts. -/
def maxSizes : Sizes := ⟨36, 8, 2⟩

/-- Registers `c` to `c + n - 1`. -/
def codesFrom (c n : Nat) : List Nat := (List.range n).map (c + ·)

/-- The registers of a small-matrix footprint; none beyond v99 counts (R171), and a start at another code names that code. -/
def footCodes (c n : Nat) : List Nat := if c < 100 then (codesFrom c n).filter (· < 100) else [c]

/-- Register codes that an operand field reads. -/
def Opd.reads (z : Sizes) (o : Opd) (c : Nat) : List Nat :=
  match o with
  | .src n | .upd n | .blk n => codesFrom c n
  | .mat true _ => footCodes c z.mat
  | .vec true _ => footCodes c z.vec
  | .scal true _ => footCodes c z.scal
  | _ => []

/-- Register codes that an operand field writes. -/
def Opd.writes (z : Sizes) (o : Opd) (c : Nat) : List Nat :=
  match o with
  | .dst n | .upd n => codesFrom c n
  | .mat _ true => footCodes c z.mat
  | .vec _ true => footCodes c z.vec
  | .scal _ true => footCodes c z.scal
  | _ => []

/-- Does a form read its a field, or its b field, in lane Low() alone (R175, R177)? Every other source is read in each lane. -/
def uniformA (op : Nat) : Bool := [0xB0, 0xB1, 0xB2, 0xC8, 0xD1, 0xD2, 0xD9, 0xDB, 0xDE].contains op
def uniformB (op : Nat) : Bool := [0xD0, 0xD1, 0xD2, 0xD3, 0xD4, 0xE6, 0xE7].contains op

def Form.reads (f : Form) (z : Sizes) (d a b : Nat) : List Nat :=
  f.a.reads z a ++ f.b.reads z b ++ f.d.reads z d

def Form.writes (f : Form) (z : Sizes) (d a b : Nat) : List Nat :=
  f.a.writes z a ++ f.b.writes z b ++ f.d.writes z d

/-! ### Legality (R164, R165, R281, R341) -/

/-- `n` consecutive source registers. `lits` is the clause's literal count. -/
def legalSrc (nregs lits n c : Nat) : Bool :=
  if c < 100 then c % n == 0 && c + n ≤ nregs
  else if c < 108 then c % n == 0 && c + n ≤ 108
  else if n != 1 then 112 ≤ c && (c - 112) % n == 0 && c + n ≤ 119 && c - 112 + n ≤ lits
  else if c < 112 then true
  else if c < 119 then c - 112 < lits
  else c != 124

/-- `n` consecutive destination registers. -/
def legalDst (nregs n c : Nat) : Bool :=
  if c < 100 then c % n == 0 && c + n ≤ nregs
  else if c < 108 then c % n == 0 && c + n ≤ 108
  else n == 1 && (c == 123 || 125 ≤ c)

/-- A matrix or vector footprint of `n` registers (R281). -/
def legalFoot (nregs n c : Nat) (fp64 : Bool) : Bool :=
  c + n ≤ nregs && c + n ≤ 100 && (!fp64 || c % 2 == 0)

def Opd.legal (o : Opd) (nregs lits : Nat) (m : DWord) (c : Nat) : Bool :=
  let z := modeSizes m
  match o with
  | .no | .imm => true
  | .gen => c < 100 && c < nregs
  | .src n => legalSrc nregs lits n c
  | .dst n | .upd n => legalDst nregs n c
  | .blk n => c % n == 0 && c + n ≤ nregs && c + n ≤ 100
  | .mat _ _ => legalFoot nregs z.mat c (modeFP64 m)
  | .vec _ _ => legalFoot nregs z.vec c (modeFP64 m)
  | .scal true _ => legalSrc nregs lits z.scal c && !(108 ≤ c && c < 112)
  | .scal false _ => legalDst nregs z.scal c

/-- The constants and numbers that each form admits in its fields (R162 and the instruction chapters). -/
def legalImm (op d a b : Nat) : Bool :=
  let width := b / 16
  let policy := b / 4 % 4
  match op with
  | 0x3A | 0x3E | 0x3F | 0x4E | 0x4F | 0xC6 => b ≤ 5
  | 0x3C | 0x6E | 0x6F | 0xD7 | 0xD8 => b ≤ 3
  | 0x40 | 0x41 => b ≤ 7
  | 0x5A | 0x6B | 0x7E | 0xC5 => b ≤ 1
  | 0x64 | 0x69 | 0x6A | 0xDC => b ≤ 2
  | 0x70 | 0x71 => b / 16 % 4 == 0 && b % 4 ≤ 1 && policy ≤ (if b < 64 then 0 else 2)
  | 0x80 | 0x81 | 0x82 | 0x83 | 0x84 | 0x85 | 0x86 | 0x87 => width ≤ 6 && policy == 0 && b % 4 == 0
  | 0x88 | 0x89 => width ≤ 6 && policy ≤ 2 && b % 4 == 0
  | 0x8A | 0x8B => width ≤ 6 && policy == 0 && b % 4 ≤ 2
  | 0x8C => b == 4 * policy && policy ≤ 2
  | 0x8D | 0x8E | 0x8F => b == 0
  | 0x90 | 0x91 => width ≤ 5 && policy == 0 && b % 4 == 0
  | 0xA0 | 0xA1 | 0xA2 | 0xA6 => b % 64 ≤ 12
  | 0xB0 | 0xB1 => d ≤ 15 && b % 64 == 0
  | 0xB2 => d ≤ 15 && shSelKnown b
  | 0xB3 => a ≤ 15 && shSelKnown b
  | 0xB4 => d ≤ 15
  | 0xB5 | 0xB6 | 0xB7 | 0xB8 => d ≤ 15 && a ≤ 15 && b ≤ 15
  | 0xB9 | 0xBA | 0xBB | 0xBD => d ≤ 15 && a ≤ 15
  | 0xBC => d ≤ 15 && a ≤ 15 && b ≤ 1
  | 0xD4 => d < 100
  | 0xD9 | 0xDA => b ≤ 9
  | 0xDB => b ≤ 64
  | 0xDD => selKnown b
  | 0xDE => selWritable b
  | 0xE0 | 0xE1 | 0xE2 => d ≤ 31 && a ≤ 15 && b ≤ 15
  | 0xE3 => d ≤ 31
  | 0xE4 => d ≤ 31 && a ≤ 15
  | 0xE5 => d ≤ 15 && a ≤ 31
  | 0xE6 => a ≤ 31
  | 0xE7 => d ≤ 31
  | 0xE8 => b ≤ 32
  | 0xE9 => b ≤ 6
  | _ => true

/-- No common register. -/
def disjoint (x y : List Nat) : Bool := x.all fun c => !y.contains c

/-- The overlap rules of the small-matrix forms, and the dv codes they refuse (R281, R282). -/
def legalOverlap (op : Nat) (z : Sizes) (d a b : Nat) : Bool :=
  let md := footCodes d z.mat
  let ma := footCodes a z.mat
  let mb := footCodes b z.mat
  let apart (c : Nat) (x y : List Nat) (e : Nat) : Bool := c == e || disjoint x y
  let isDv (c : Nat) : Bool := 108 ≤ c && c < 112
  match op with
  | 0x72 | 0x73 | 0x74 => disjoint md ma && disjoint md mb
  | 0x75 | 0x76 => apart d md ma a && apart d md mb b
  | 0x77 => apart d md ma a && disjoint md (codesFrom b z.scal) && !isDv b
  | 0x78 | 0x7F => apart d md ma a
  | 0x79 => disjoint (footCodes d z.vec) ma && disjoint (footCodes d z.vec) (footCodes b z.vec)
  | 0x7B => !md.contains b
  | 0x7C => disjoint (footCodes d z.vec) ma && !(footCodes d z.vec).contains b && !isDv b
  | 0x7D => disjoint (codesFrom d z.scal) ma && !(codesFrom d z.scal).contains b && !isDv b
  | _ => true

/-- The element types that the packed forms and the transfers admit (R235, R352). -/
def legalElem (op elem : Nat) : Bool :=
  match op with
  | 0x42 | 0x43 | 0x44 | 0x45 | 0x46 => elem == 1 || elem == 2
  | 0xC5 | 0xC6 => elem != 9
  | _ => true

/-- Are the operands of a form legal (Illegal Operand otherwise)? -/
def legalOperands (f : Form) (op d a b nregs lits : Nat) (m : DWord) : Bool :=
  legalImm op d a b && f.d.legal nregs lits m d && f.a.legal nregs lits m a && f.b.legal nregs lits m b
    && legalOverlap op (modeSizes m) d a b && legalElem op (modeElem m)

/-- Privileged uses: outside a trap handler they raise Privilege (R181, R207). -/
def privileged (op b : Nat) : Bool :=
  op == 0xDC || op == 0xDE || (op == 0xDB && 63 < b) || (op == 0xDD && (b == 32 || b == 33))

/-! ### Lanes -/

/-- Present(j) (R177). -/
def Strand.isPresent (st : Strand) (j : Nat) : Bool := st.present.getLsbD j
/-- Active(j) (R27). -/
def Strand.isActive (st : Strand) (j : Nat) : Bool := st.em.getLsbD j

/-- Low(): the lowest active lane, or lane 0 if there is none (R177). -/
def Strand.low (st : Strand) : Nat := ((List.range 96).find? st.isActive).getD 0

/-- Mask word w of em (R27). -/
def Strand.emWord (st : Strand) (w : Nat) : Word := st.em.extractLsb' (32 * w) 32

/-- General register `n` of a lane. -/
def Strand.reg (st : Strand) (n j : Nat) : Word := (st.v.get n []).get j 0

/-- Literal words of the clause in execution (R167). -/
def Strand.header (st : Strand) : Option Header := (st.words.head?).bind decodeHeader
/-- Instruction count of the clause in execution. -/
def Strand.count (st : Strand) : Nat := (st.header.map (·.count)).getD 0
def Strand.trailer (st : Strand) : Option Trailer := (st.words[st.count + 1]?).bind decodeTrailer
def Strand.litCount (st : Strand) : Nat := (st.trailer.map (·.literals)).getD 0
def Strand.literal (st : Strand) (m : Nat) : Word := st.words.getD (st.count + 2 + m) 0
/-- The word after the literal pool (R172). -/
def Strand.after (st : Strand) : DWord := st.clause + BitVec.ofNat 64 (4 * (st.count + 2 + st.litCount))

/-- A register other than dv by its code (R164). -/
def Strand.get (st : Strand) (fresh c j : Nat) : Word :=
  if c < 100 then st.reg c j
  else if c < 108 then ((st.t.get (c - 100) []).get? j).getD (Config.freeTemp fresh (c - 100) j)
  else if 112 ≤ c && c < 119 then st.literal (c - 112)
  else match c with
    | 120 => if st.truss then 0 else BitVec.ofNat 32 (st.sn * 96 + j)
    | 121 => if st.truss then 0 else BitVec.ofNat 32 j
    | 122 => if st.truss then 0 else BitVec.ofNat 32 st.sn
    | 123 => st.cfAt j
    | 125 => st.emWord 0
    | 126 => st.emWord 1
    | 127 => st.emWord 2
    | _ => 0

/-- Does a lane pass the guard (R177)? -/
def Strand.guardPasses (st : Strand) (j : Nat) : Bool :=
  !modeGuardOn st.mode || (st.get 0 (modeGuardReg st.mode) j).getLsbD 0 == modeGuardSense st.mode

/-- On(j) (R177). -/
def Strand.isOn (st : Strand) (j : Nat) : Bool := st.isPresent j && st.isActive j && st.guardPasses j

/-- The lanes with On(j), ascending. -/
def Strand.onLanes (st : Strand) : List Nat := (List.range 96).filter st.isOn
def Strand.presentLanes (st : Strand) : List Nat := (List.range 96).filter st.isPresent

/-- A set of lanes as a mask, lane j at bit j. -/
def laneMask (l : List Nat) : BitVec 96 := l.foldl (fun m j => m ||| ((1 : BitVec 96) <<< j)) 0

/-! ### Writing registers -/

/-- Mask word w of em replaced; bits of absent lanes are forced to 0 (R27). -/
def Strand.putEm (st : Strand) (w : Nat) (x : Word) : Strand :=
  let keep := st.em &&& ~~~((BitVec.allOnes 32).setWidth 96 <<< (32 * w))
  { st with em := (keep ||| (x.setWidth 96 <<< (32 * w))) &&& st.present }

/-- Write a register in the lanes that `on` selects; em takes the value of Low() whatever `on` is (R27, R177). -/
def Strand.put (st : Strand) (c : Nat) (on : Nat → Bool) (f : Nat → Word) : Strand :=
  if c < 100 then { st with v := st.v.set c (lanes fun j => if on j then f j else st.reg c j) }
  else if c < 108 then
    let old := st.t.get (c - 100) []
    { st with t := st.t.set (c - 100) ((List.range 96).filterMap fun j =>
        if on j then some (j, f j) else (old.get? j).map fun x => (j, x)) }
  else if c == 123 then st.mapCf on fun j _ => f j
  else if 125 ≤ c && c ≤ 127 then st.putEm (c - 125) (f st.low)
  else st

/-- Write a pair, low word first (R4). -/
def Strand.put2 (st : Strand) (c : Nat) (on : Nat → Bool) (f : Nat → DWord) : Strand :=
  (st.put c on fun j => (f j).setWidth 32).put (c + 1) on fun j => (f j).extractLsb' 32 32

/-- Write `n` consecutive registers, n at most 2. -/
def Strand.putN (st : Strand) (n c : Nat) (on : Nat → Bool) (f : Nat → DWord) : Strand :=
  if n == 2 then st.put2 c on f else st.put c on fun j => (f j).setWidth 32

/-! ### Reading operands -/

/-- What an instruction reads from: the strand, the counter of free values, and the dovetail values of R61 by
channel and lane. -/
structure Env where
  st : Strand
  fresh : Nat
  dv : Nat → Nat → Word

/-- Get(code, j) (R177). -/
def Env.get (e : Env) (c j : Nat) : Word :=
  if 108 ≤ c && c < 112 then e.dv (c - 108) j else e.st.get e.fresh c j

/-- Get64(code, j) (R177). -/
def Env.get64 (e : Env) (c j : Nat) : DWord := e.get (c + 1) j ++ e.get c j

/-- The value of `n` consecutive registers, the lowest in the low bits. -/
def Env.getN (e : Env) (n c j : Nat) : Nat :=
  match n with
  | 0 => 0
  | n + 1 => (e.get c j).toNat + 2 ^ 32 * e.getN n (c + 1) j

/-- Uniform(code) (R177). -/
def Env.uniform (e : Env) (c : Nat) : Word := e.get c e.st.low
def Env.uniform64 (e : Env) (c : Nat) : DWord := e.get64 c e.st.low

end Sys2Proof.Machine
end

