-- ==== Sys2Proof/Machine/SoftFloat.lean ====
section
/-!
DEFINITION. IEEE 754-2019 binary arithmetic on bit patterns (R72 to R82): formats, exact values, the one rounding,
NaN results, flags, conversions and comparisons. Patterns are numbers; flags are cf bits (R175).
-/
namespace Sys2Proof.Machine

/-- A binary format: exponent and fraction widths (R72). -/
structure Fmt where
  exp : Nat
  frac : Nat
  deriving DecidableEq, Repr

def fp64 : Fmt := ⟨11, 52⟩
def fp32 : Fmt := ⟨8, 23⟩
def fp16 : Fmt := ⟨5, 10⟩
def bf16 : Fmt := ⟨8, 7⟩

namespace Fmt

def width (f : Fmt) : Nat := 1 + f.exp + f.frac
def bias (f : Fmt) : Nat := 2 ^ (f.exp - 1) - 1
/-- exponent of the smallest normal value -/
def emin (f : Fmt) : Int := 1 - (f.bias : Int)
/-- pattern of +∞ -/
def inf (f : Fmt) : Nat := (2 ^ f.exp - 1) * 2 ^ f.frac
def signBit (f : Fmt) : Nat := 2 ^ (f.exp + f.frac)
def quietBit (f : Fmt) : Nat := 2 ^ (f.frac - 1)
/-- the canonical NaN (R72) -/
def canon (f : Fmt) : Nat := f.inf + f.quietBit
/-- the pattern with a sign -/
def signed (f : Fmt) (neg : Bool) (mag : Nat) : Nat := if neg then f.signBit + mag else mag
/-- magnitude part of a pattern -/
def mag (f : Fmt) (x : Nat) : Nat := x % f.signBit
def isNeg (f : Fmt) (x : Nat) : Bool := x.testBit (f.exp + f.frac)
def isNaN (f : Fmt) (x : Nat) : Bool := decide (f.mag x > f.inf)
def isSNaN (f : Fmt) (x : Nat) : Bool := f.isNaN x && !x.testBit (f.frac - 1)
def isInf (f : Fmt) (x : Nat) : Bool := decide (f.mag x = f.inf)
def isZero (f : Fmt) (x : Nat) : Bool := decide (f.mag x = 0)
def isFinite (f : Fmt) (x : Nat) : Bool := decide (f.mag x < f.inf)
/-- largest finite magnitude -/
def largest (f : Fmt) : Nat := f.inf - 1
/-- the quiet form (R78) -/
def quiet (f : Fmt) (x : Nat) : Nat := if x.testBit (f.frac - 1) then x else x + f.quietBit
/-- significand of a finite pattern -/
def sig (f : Fmt) (x : Nat) : Nat :=
  let m := f.mag x
  if m < 2 ^ f.frac then m else m % 2 ^ f.frac + 2 ^ f.frac
/-- exponent of the significand's last bit -/
def ulpExp (f : Fmt) (x : Nat) : Int :=
  let b := f.mag x / 2 ^ f.frac
  (if b = 0 then 1 else (b : Int)) - (f.bias : Int) - (f.frac : Int)

end Fmt

/-- cf bits of the IEEE flags (R175). -/
def flNV : Nat := 0x100
def flDZ : Nat := 0x200
def flOF : Nat := 0x400
def flUF : Nat := 0x800
def flNX : Nat := 0x1000

/-- A pattern with the flags its computation sets. -/
structure FRes where
  bits : Nat
  flags : Nat := 0
  deriving DecidableEq, Repr

/-- An exact value: sign and m × 2^e, with `sticky` when a nonzero rest below 2^e has been cut off. -/
structure Exact where
  neg : Bool
  m : Nat
  e : Int
  sticky : Bool := false
  deriving DecidableEq, Repr

/-- Number of bits of a number. -/
def bitLen (n : Nat) : Nat := if n = 0 then 0 else Nat.log2 n + 1

/-- Integer rounding of m / 2^sh (with a sticky rest below) in a rounding mode (R75); also says if it was inexact. -/
def roundShift (mode : Nat) (neg : Bool) (m sh : Nat) (sticky : Bool) : Nat × Bool :=
  let t := m >>> sh
  let r := m % 2 ^ sh
  let inexact := r != 0 || sticky
  let above := decide (2 * r > 2 ^ sh) || (decide (2 * r = 2 ^ sh) && sticky)
  let tie := decide (2 * r = 2 ^ sh) && !sticky
  let up := match mode with
    | 0 => above || (tie && t % 2 == 1)
    | 1 => false
    | 2 => neg && inexact
    | 3 => !neg && inexact
    | _ => above || tie
  (if up then t + 1 else t, inexact)

/-- Rounding of a value to units of 2^q. -/
def roundAt (mode : Nat) (x : Exact) (q : Int) : Nat × Bool :=
  if q ≤ x.e then
    if x.sticky then roundShift mode x.neg (x.m <<< ((x.e - q).toNat + 2)) 2 true
    else (x.m <<< (x.e - q).toNat, false)
  else roundShift mode x.neg x.m (q - x.e).toNat x.sticky

/-- Does an overflow give the infinity rather than the largest finite value (R82, IEEE row)? -/
def overflowsToInf (mode : Nat) (neg : Bool) : Bool :=
  match mode with
  | 0 => true
  | 1 => false
  | 2 => neg
  | 3 => !neg
  | _ => true

/-- Round (R177): the one rounding of an exact value to a format, with the flags of R77. `policy` is the overflow
policy of R82 for a register destination. -/
def roundTo (f : Fmt) (mode : Nat) (x : Exact) (policy : Nat := 0) : FRes :=
  if x.m = 0 && !x.sticky then ⟨f.signed x.neg 0, 0⟩
  else
    let top : Int := (bitLen x.m : Int) - 1 + x.e
    let q0 : Int := f.emin - (f.frac : Int)
    let q := max (top - (f.frac : Int)) q0
    let (t, inexact) := roundAt mode x q
    let bits := (q - q0).toNat * 2 ^ f.frac + t
    if bits ≥ f.inf then
      if policy = 0 && overflowsToInf mode x.neg then ⟨f.signed x.neg f.inf, flOF ||| flNX⟩
      else ⟨f.signed x.neg f.largest, flOF ||| flNX⟩
    else
      let tinyRound := (roundAt mode x (top - (f.frac : Int))).1
      let tiny := decide (top < f.emin) &&
        !(decide (top = f.emin - 1) && decide (tinyRound = 2 ^ (f.frac + 1)))
      ⟨f.signed x.neg bits, (if inexact then flNX else 0) ||| (if inexact && tiny then flUF else 0)⟩

/-- The exact value of a finite pattern. -/
def exactOf (f : Fmt) (x : Nat) : Exact := ⟨f.isNeg x, f.sig x, f.ulpExp x, false⟩

/-- The signed significand of a value at exponent `e` ≤ its own. -/
def Exact.intAt (x : Exact) (e : Int) : Int :=
  let m : Int := (x.m <<< (x.e - e).toNat : Nat)
  if x.neg then -m else m

/-- The exact sum of two values; `zeroNeg` is the sign of an exact zero sum. -/
def Exact.add (x y : Exact) (zeroNeg : Bool) : Exact :=
  let e := min x.e y.e
  let s := x.intAt e + y.intAt e
  if s = 0 then ⟨zeroNeg, 0, 0, false⟩ else ⟨decide (s < 0), s.natAbs, e, false⟩

/-- The exact product. -/
def Exact.mul (x y : Exact) : Exact := ⟨x.neg != y.neg, x.m * y.m, x.e + y.e, false⟩

/-- NaNOut (R78): the quiet form of the first NaN operand, else the canonical NaN; a signalling operand sets NV. -/
def nanOut (f : Fmt) (ops : List Nat) : FRes :=
  ⟨match ops.find? (f.isNaN ·) with | some x => f.quiet x | none => f.canon,
   if ops.any (f.isSNaN ·) then flNV else 0⟩

/-- An invalid operation on numbers: the canonical NaN with NV. -/
def invalid (f : Fmt) : FRes := ⟨f.canon, flNV⟩

/-- Flip the sign. -/
def negate (f : Fmt) (x : Nat) : Nat := if f.isNeg x then f.mag x else f.mag x + f.signBit

/-- x + y with one rounding (R226). -/
def fAdd (f : Fmt) (mode x y : Nat) : FRes :=
  if f.isNaN x || f.isNaN y then nanOut f [x, y]
  else if f.isInf x then (if f.isInf y && f.isNeg x != f.isNeg y then invalid f else ⟨x, 0⟩)
  else if f.isInf y then ⟨y, 0⟩
  else
    let zn := if f.isZero x && f.isZero y && f.isNeg x == f.isNeg y then f.isNeg x else mode == 2
    roundTo f mode ((exactOf f x).add (exactOf f y) zn)

/-- x − y with one rounding; NaN operands are taken as they stand. -/
def fSub (f : Fmt) (mode x y : Nat) : FRes :=
  if f.isNaN x || f.isNaN y then nanOut f [x, y] else fAdd f mode x (negate f y)

/-- x × y with one rounding (R226). -/
def fMul (f : Fmt) (mode x y : Nat) : FRes :=
  let neg := f.isNeg x != f.isNeg y
  if f.isNaN x || f.isNaN y then nanOut f [x, y]
  else if f.isInf x || f.isInf y then
    (if f.isZero x || f.isZero y then invalid f else ⟨f.signed neg f.inf, 0⟩)
  else roundTo f mode ((exactOf f x).mul (exactOf f y))

/-- x × y + z with one rounding (R226). -/
def fFma (f : Fmt) (mode x y z : Nat) : FRes :=
  let neg := f.isNeg x != f.isNeg y
  let bad := (f.isInf x && f.isZero y) || (f.isZero x && f.isInf y)
  if f.isNaN x || f.isNaN y || f.isNaN z then
    let r := nanOut f [x, y, z]
    ⟨r.bits, r.flags ||| (if bad then flNV else 0)⟩
  else if bad then invalid f
  else if f.isInf x || f.isInf y then
    (if f.isInf z && f.isNeg z != neg then invalid f else ⟨f.signed neg f.inf, 0⟩)
  else if f.isInf z then ⟨z, 0⟩
  else
    let p := (exactOf f x).mul (exactOf f y)
    let zn := if p.m = 0 && f.isZero z && neg == f.isNeg z then neg else mode == 2
    roundTo f mode (p.add (exactOf f z) zn)

/-- x / y with one rounding (R238). -/
def fDiv (f : Fmt) (mode x y : Nat) : FRes :=
  let neg := f.isNeg x != f.isNeg y
  if f.isNaN x || f.isNaN y then nanOut f [x, y]
  else if f.isInf x then (if f.isInf y then invalid f else ⟨f.signed neg f.inf, 0⟩)
  else if f.isInf y then ⟨f.signed neg 0, 0⟩
  else if f.isZero y then (if f.isZero x then invalid f else ⟨f.signed neg f.inf, flDZ⟩)
  else if f.isZero x then ⟨f.signed neg 0, 0⟩
  else
    let a := exactOf f x
    let b := exactOf f y
    let k := f.frac + 4 + bitLen b.m
    roundTo f mode ⟨neg, (a.m <<< k) / b.m, a.e - b.e - (k : Int), (a.m <<< k) % b.m != 0⟩

/-- Integer square root by bits, from bit `i` down. -/
def isqrtFrom : Nat → Nat → Nat → Nat
  | 0, x, r => if (r + 1) * (r + 1) ≤ x then r + 1 else r
  | i + 1, x, r =>
    let c := r + 2 ^ (i + 1)
    isqrtFrom i x (if c * c ≤ x then c else r)

/-- Floor of the square root. -/
def isqrt (x : Nat) : Nat := isqrtFrom (bitLen x / 2 + 1) x 0

/-- √x with one rounding (R238). -/
def fSqrt (f : Fmt) (mode x : Nat) : FRes :=
  if f.isNaN x then nanOut f [x]
  else if f.isZero x then ⟨x, 0⟩
  else if f.isNeg x then invalid f
  else if f.isInf x then ⟨x, 0⟩
  else
    let a := exactOf f x
    let k := 2 * f.frac + 8
    let k := if (a.e - (k : Int)) % 2 = 0 then k else k + 1
    let n := a.m <<< k
    let r := isqrt n
    roundTo f mode ⟨false, r, (a.e - (k : Int)) / 2, r * r != n⟩

/-- 1/√x with one rounding (R238): 1/√(m·2^e) = √(2^k / m) · 2^(-(e+k)/2), from the floor of √(2^k / m). -/
def fRsqrt (f : Fmt) (mode x : Nat) : FRes :=
  if f.isNaN x then nanOut f [x]
  else if f.isZero x then ⟨f.signed (f.isNeg x) f.inf, flDZ⟩
  else if f.isNeg x then invalid f
  else if f.isInf x then ⟨0, 0⟩
  else
    let a := exactOf f x
    let k := 4 * f.frac + 16 + bitLen a.m
    let k := if (a.e + (k : Int)) % 2 = 0 then k else k + 1
    let n := 2 ^ k
    let r := isqrt (n / a.m)
    roundTo f mode ⟨false, r, -((a.e + (k : Int)) / 2), r * r * a.m != n⟩

/-- The order of two numbers that are not NaNs: negative, zero or positive. -/
def fOrder (f : Fmt) (x y : Nat) : Int :=
  let v (z : Nat) : Int := if f.isNeg z then -(f.mag z : Int) else (f.mag z : Int)
  v x - v y

/-- minimumNumber (`max = false`) and maximumNumber (R227). -/
def fMinMax (f : Fmt) (isMax : Bool) (x y : Nat) : FRes :=
  let nv := if f.isSNaN x || f.isSNaN y then flNV else 0
  if f.isNaN x && f.isNaN y then nanOut f [x, y]
  else if f.isNaN x then ⟨y, nv⟩
  else if f.isNaN y then ⟨x, nv⟩
  else
    let o := fOrder f x y
    let pickX :=
      if o = 0 then f.isNeg x == f.isNeg y || (if isMax then f.isNeg y else f.isNeg x)
      else if isMax then decide (o > 0) else decide (o < 0)
    ⟨if pickX then x else y, 0⟩

/-- The relations of R228. -/
inductive FRel where
  | eq | lt | le | uo
  deriving DecidableEq, Repr

/-- A comparison: 1 or 0, with NV as R228 gives. -/
def fCmp (f : Fmt) (r : FRel) (x y : Nat) : FRes :=
  let nan := f.isNaN x || f.isNaN y
  let snan := f.isSNaN x || f.isSNaN y
  let o := fOrder f x y
  match r with
  | .eq => ⟨if !nan && decide (o = 0) then 1 else 0, if snan then flNV else 0⟩
  | .lt => ⟨if !nan && decide (o < 0) then 1 else 0, if nan then flNV else 0⟩
  | .le => ⟨if !nan && decide (o ≤ 0) then 1 else 0, if nan then flNV else 0⟩
  | .uo => ⟨if nan then 1 else 0, if snan then flNV else 0⟩

/-- Rounding to an integral value of the same format (R229). -/
def fRound (f : Fmt) (mode x : Nat) : FRes :=
  if f.isNaN x then nanOut f [x]
  else if f.isInf x then ⟨x, 0⟩
  else
    let (t, _) := roundAt mode (exactOf f x) 0
    if f.ulpExp x ≥ 0 then ⟨x, 0⟩ else ⟨(roundTo f 0 ⟨f.isNeg x, t, 0, false⟩).bits, 0⟩

/-- x − trunc(x), exact, with the sign of x (R229). -/
def fFrac (f : Fmt) (x : Nat) : FRes :=
  if f.isNaN x then nanOut f [x]
  else if f.isInf x then invalid f
  else if f.ulpExp x ≥ 0 then ⟨f.signed (f.isNeg x) 0, 0⟩
  else
    let m := f.sig x % 2 ^ (-(f.ulpExp x)).toNat
    ⟨(roundTo f 0 ⟨f.isNeg x, m, f.ulpExp x, false⟩).bits, 0⟩

/-- The one-hot class mask of R230. -/
def fClass (f : Fmt) (x : Nat) : Nat :=
  let n := f.isNeg x
  let b : Nat :=
    if f.isNaN x then (if f.isSNaN x then 8 else 9)
    else if f.isInf x then (if n then 0 else 7)
    else if f.isZero x then (if n then 3 else 4)
    else if f.mag x < 2 ^ f.frac then (if n then 2 else 5)
    else (if n then 1 else 6)
  2 ^ b

/-- x × 2^k with one rounding (R226). -/
def fLdexp (f : Fmt) (mode x : Nat) (k : Int) : FRes :=
  if f.isNaN x then nanOut f [x]
  else if f.isInf x || f.isZero x then ⟨x, 0⟩
  else
    -- beyond ±4096 every result overflows or rounds as at ±4096
    let k := max (-4096) (min 4096 k)
    let a := exactOf f x
    roundTo f mode { a with e := a.e + k }

/-- Conversion of a NaN between formats (R79): the payload is kept and nothing is quieted. -/
def convNaN (src dst : Fmt) (x : Nat) : FRes :=
  let fr := x % 2 ^ src.frac
  let out := if src.frac ≤ dst.frac then fr * 2 ^ (dst.frac - src.frac)
             else fr / 2 ^ (src.frac - dst.frac)
  let out := if out = 0 then 1 else out
  ⟨dst.signed (src.isNeg x) (dst.inf + out), if src.isSNaN x then flNV else 0⟩

/-- Conversion between floating-point formats (R79, R82). -/
def fConv (src dst : Fmt) (mode policy x : Nat) : FRes :=
  if src.isNaN x then convNaN src dst x
  else if src.isInf x then ⟨dst.signed (src.isNeg x) dst.inf, 0⟩
  else roundTo dst mode (exactOf src x) policy

/-- Does the narrowing of a finite value overflow (R82)? -/
def narrowOverflows (src dst : Fmt) (mode x : Nat) : Bool :=
  src.isFinite x && (roundTo dst mode (exactOf src x)).flags &&& flOF != 0

/-- An integer type: its width and whether it is signed. -/
structure IntTy where
  w : Nat
  signed : Bool
  deriving DecidableEq, Repr

def IntTy.lo (t : IntTy) : Int := if t.signed then -(2 ^ (t.w - 1) : Int) else 0
def IntTy.hi (t : IntTy) : Int := if t.signed then 2 ^ (t.w - 1) - 1 else 2 ^ t.w - 1
/-- the value of the low bits of a pattern under the type's view (R9) -/
def IntTy.view (t : IntTy) (x : Nat) : Int := if t.signed then signedOf t.w x else ((x % 2 ^ t.w : Nat) : Int)

/-- Rounding of an exact value to an integer type (R81): the integer and the flags. -/
def exactToInt (t : IntTy) (mode : Nat) (x : Exact) : Int × Nat :=
  let (m, inexact) := roundAt mode x 0
  let v : Int := if x.neg then -(m : Int) else (m : Int)
  if v < t.lo then (t.lo, flNV) else if v > t.hi then (t.hi, flNV)
  else (v, if inexact then flNX else 0)

/-- Conversion from floating point to an integer type (R81). -/
def fToInt (f : Fmt) (t : IntTy) (mode x : Nat) : Int × Nat :=
  if f.isNaN x then (0, flNV)
  else if f.isInf x then (if f.isNeg x then t.lo else t.hi, flNV)
  else exactToInt t mode (exactOf f x)

/-- Conversion from an integer to floating point (R81). -/
def intToF (f : Fmt) (mode : Nat) (v : Int) (policy : Nat := 0) : FRes :=
  roundTo f mode ⟨decide (v < 0), v.natAbs, 0, false⟩ policy

/-- TwoSum (R88): h and the error term. -/
def twoSum (x y : Nat) : Nat × Nat :=
  let h := (fAdd fp32 0 x y).bits
  if fp32.isFinite h then
    let s := (exactOf fp32 x).add (exactOf fp32 y) false
    let e := s.add (exactOf fp32 (negate fp32 h)) false
    (h, (roundTo fp32 0 e).bits)
  else (h, 0)

/-- Floating-point element formats of R74 by code. -/
def fmtOfCode (c : Nat) : Option Fmt :=
  match c with
  | 0 => some fp32 | 1 => some fp16 | 2 => some bf16 | 3 => some fp64 | _ => none

/-- Integer element formats of R74 by code. -/
def intOfCode (c : Nat) : Option IntTy :=
  match c with
  | 4 => some ⟨8, true⟩ | 5 => some ⟨8, false⟩ | 6 => some ⟨16, true⟩ | 7 => some ⟨32, true⟩ | _ => none

/-- Bytes of an element format (R74); 0 for a reserved code. -/
def elemBytes (c : Nat) : Nat :=
  match c with
  | 0 => 4 | 1 => 2 | 2 => 2 | 3 => 8 | 4 => 1 | 5 => 1 | 6 => 2 | 7 => 4 | 9 => 8 | _ => 0

end Sys2Proof.Machine
end

