-- ==== Sys2Proof/Machine/Memory.lean ====
section
/-!
DEFINITION. Storage: package HBM with its codebook windows (R92 to R97), the L1 caches and word ownership (R102,
R104, R135), the scratchpads with their presence bits (R98 to R108), and reading and writing one location.
-/
namespace Sys2Proof.Machine

/-! ### Keys -/

/-- The context of a strand key. -/
def sidCtx (sid : Nat) : Nat := sid / 16384
/-- The slot number of a vector strand, or 9216 + cluster of a truss strand (R12). -/
def sidPlace (sid : Nat) : Nat := sid % 16384
def sidIsTruss (sid : Nat) : Bool := 9216 ≤ sidPlace sid
/-- The core of a vector strand; a truss core has no L1 (R264). -/
def sidCore (sid : Nat) : Option Nat := if sidIsTruss sid then none else some (sidPlace sid / 16)
/-- The key of a core's tables: core q, or 576 + cluster for a truss core. -/
def sidCk (sid : Nat) : Nat :=
  sidCtx sid * 1024 + (if sidIsTruss sid then 576 + (sidPlace sid - 9216) else sidPlace sid / 16)
/-- The cluster of a strand (R12). -/
def sidCluster (sid : Nat) : Nat := if sidIsTruss sid then sidPlace sid - 9216 else sidPlace sid / 64
/-- The virtual function of a cluster (R17). -/
def clusterVf (c : Nat) : Nat := c / 18

namespace Pkg

def strand? (p : Pkg) (sid : Nat) : Option Strand := p.strands.get? sid
def setStrand (p : Pkg) (sid : Nat) (st : Strand) : Pkg := { p with strands := p.strands.set sid st }
def updStrand (p : Pkg) (sid : Nat) (f : Strand → Strand) : Pkg := { p with strands := p.strands.update sid f }
def updBent (p : Pkg) (k : Nat) (f : Bent → Bent) : Pkg := { p with bents := p.bents.update k f }
def updLaunch (p : Pkg) (k : Nat) (f : Launch → Launch) : Pkg := { p with launches := p.launches.update k f }
def updTree (p : Pkg) (k : Nat) (f : Tree → Tree) : Pkg := { p with trees := p.trees.update k f }
def updCtx (p : Pkg) (k : Nat) (f : Ctx → Ctx) : Pkg := { p with ctxs := p.ctxs.update k f }
def updEntry (p : Pkg) (k : Nat) (f : Entry → Entry) : Pkg := { p with entries := p.entries.update k f }
def updVf (p : Pkg) (k : Nat) (f : Vf → Vf) : Pkg := { p with vfs := p.vfs.set k (f (p.vfs.get k {})) }
def updCluster (p : Pkg) (k : Nat) (f : Cluster → Cluster) : Pkg :=
  { p with clusters := p.clusters.set k (f (p.clusters.get k {})) }
def core (p : Pkg) (ck : Nat) : Core := p.cores.get ck {}
def updCore (p : Pkg) (ck : Nat) (f : Core → Core) : Pkg := { p with cores := p.cores.set ck (f (p.core ck)) }
def say (p : Pkg) (m : Msg) : Pkg := { p with msgs := p.msgs ++ [m] }
/-- Take a new identifier. -/
def takeId (p : Pkg) : Nat × Pkg := (p.nextId, { p with nextId := p.nextId + 1 })

end Pkg

/-! ### Launch descriptor fields (R367) -/

def ldField (d : BitVec 512) (hi lo : Nat) : Nat := bits d.toNat hi lo
def ldEntry (d : BitVec 512) : Nat := ldField d 63 0
def ldTruss (d : BitVec 512) : Nat := ldField d 127 64
def ldArgs (d : BitVec 512) : Nat := ldField d 191 128
def ldRecord (d : BitVec 512) : Nat := ldField d 255 192
def ldItems (d : BitVec 512) : Nat := ldField d 295 256
def ldStrandsPerCrew (d : BitVec 512) : Nat := ldField d 299 296 + 1
def ldCrews (d : BitVec 512) : Nat := ldField d 301 300 + 1
def ldRegs (d : BitVec 512) : Nat := 4 * ldField d 308 304
def ldDovetail (d : BitVec 512) : Bool := ldField d 311 311 == 1
def ldPriority (d : BitVec 512) : Nat := ldField d 319 312
def ldSlice (d : BitVec 512) : Nat := 16 * ldField d 327 320
def ldKspad (d : BitVec 512) : Nat := 128 * ldField d 340 328
def ldQspad (d : BitVec 512) : Nat := 512 * ldField d 355 344
def ldCap (d : BitVec 512) : Nat := ldField d 366 356
def ldLease (d : BitVec 512) : Nat := ldField d 383 368
def ldTag (d : BitVec 512) : Nat := ldField d 399 384
/-- Producer n: its tag and its required trigger count. -/
def ldProducer (d : BitVec 512) (n : Nat) : Nat × Nat :=
  (ldField d (415 + 32 * n) (400 + 32 * n), ldField d (431 + 32 * n) (416 + 32 * n))

/-! ### Context record fields (R361) -/

def crField (r : BitVec 1024) (hi lo : Nat) : Nat := bits r.toNat hi lo
def crRingTable (r : BitVec 1024) : Nat := crField r 63 0
def crFaultQueue (r : BitVec 1024) : Nat := crField r 127 64
def crOutlierTable (r : BitVec 1024) : Nat := crField r 191 128
def crOutliers (r : BitVec 1024) : Nat := crField r 203 192
def crShare (r : BitVec 1024) : Nat := 65536 * crField r 223 208
def crLockQuota (r : BitVec 1024) : Nat := crField r 255 224
def crGangTable (r : BitVec 1024) : Nat := crField r 319 256
def crCommTable (r : BitVec 1024) : Nat := crField r 383 320
def crComms (r : BitVec 1024) : Nat := crField r 415 384
def crQuota (r : BitVec 1024) : Nat := crField r 447 416
def crHandler (r : BitVec 1024) : Nat := crField r 511 448
def crRoot (r : BitVec 1024) : Nat := crField r 575 512
def crVf (r : BitVec 1024) : Nat := crField r 578 576
def crTwinTable (r : BitVec 1024) : Nat := crField r 1023 960
def crReservedCores (r : BitVec 1024) : Nat := crField r 207 204

/-! ### Physical ranges (R137) -/

/-- The first physical address beyond HBM: twelve stacks of 48 GiB. -/
def hbmTop : Nat := 0x9000000000
def isAliasPa (pa : Nat) : Bool := 0x4000000000000 ≤ pa && pa < 0x8000000000000
def isDevicePa (pa : Nat) : Bool := 0x8000000000000 ≤ pa

/-! ### Codebook regions (R92 to R97) -/

def rgCode (r : BitVec 512) : Nat := ldField r 63 0
def rgSize (r : BitVec 512) : Nat := ldField r 191 128
def rgAlias (r : BitVec 512) : Nat := ldField r 255 192
def rgTable (r : BitVec 512) : Nat := ldField r 319 256
def rgScale (r : BitVec 512) : Nat := ldField r 383 320
def rgList (r : BitVec 512) : Nat := ldField r 447 384
def rgOwner (r : BitVec 512) : Nat := ldField r 450 448
def rgEnabled (r : BitVec 512) : Bool := ldField r 456 456 == 1
def rgScaled (r : BitVec 512) : Bool := ldField r 457 457 == 1
/-- The overflow policy of encoding; code 3 is treated as saturate. -/
def rgPolicy (r : BitVec 512) : Nat := if ldField r 459 458 == 3 then 1 else ldField r 459 458

/-- The enabled region whose alias window holds a physical address: its key and its register. No two enabled windows
meet (R95). -/
def regionOf (p : Pkg) (pa : Nat) : Option (Nat × BitVec 512) :=
  p.regions.find? fun e => rgEnabled e.2 && rgAlias e.2 ≤ pa && pa < rgAlias e.2 + 4 * rgSize e.2

/-- The value decoded from table entry `c` under the scale of code `n` (R92). Where the scale is a NaN and the entry is
not, the product is the quiet form of the scale's NaN: the model's choice (log entry 65). -/
def cbValue (m : Mem) (r : BitVec 512) (n c : Nat) : Nat :=
  let e := leNat (m.readBytes (rgTable r + 2 * c) 2)
  if !rgScaled r || bf16.isNaN e then e
  else (fMul bf16 0 e (leNat (m.readBytes (rgScale r + 2 * (n / 256)) 2))).bits

/-- Code `n` of a region (R92). -/
def cbCode (m : Mem) (r : BitVec 512) (n : Nat) : Nat :=
  let b := (m.read (rgCode r + n / 2)).toNat
  if n % 2 == 0 then b % 16 else b / 16

/-- The 128 bytes of an alias line, decoded from its 32 code bytes (R96). -/
def cbDecodeLine (m : Mem) (r : BitVec 512) (line : Nat) : List Byte :=
  (List.range 64).flatMap fun i =>
    let n := (line * 128 - rgAlias r) / 2 + i
    leBytes 2 (cbValue m r n (cbCode m r n))

/-- The first element of a list with the least key. -/
def leastBy {α : Type} (key : α → Nat) : List α → Option α
  | [] => none
  | x :: rest =>
    match leastBy key rest with
    | some y => if key y < key x then some y else some x
    | none => some x

/-- The distance of two finite BF16 values as a multiple of the smallest denormal. -/
def bfDistance (x y : Nat) : Nat :=
  (((exactOf bf16 x).intAt (-133)) - ((exactOf bf16 y).intAt (-133))).natAbs

/-- The code of a BF16 value (R93), and whether the value is captured. Which finite value is nearest to an infinite x that
has no infinite decoded value the spec does not say: the one nearest to BF16's largest finite value of x's sign, the model's
choice (log entry 78). -/
def cbEncode (m : Mem) (r : BitVec 512) (n x : Nat) : Nat × Bool :=
  let vals := (List.range 16).map fun c => (c, cbValue m r n c)
  let nearest (y : Nat) := ((leastBy (fun e : Nat × Nat => bfDistance y e.2)
    (vals.filter fun e => bf16.isFinite e.2)).map (·.1)).getD (Config.noFiniteCode x % 16)
  let capture := rgPolicy r == 2 && rgList r != 0
  let largest := (vals.filter fun e => bf16.isFinite e.2).foldl (fun acc e => max acc (bf16.mag e.2)) 0
  let hasFinite := vals.any fun e => bf16.isFinite e.2
  match vals.find? (fun e => e.2 == x) with
  | some e => (e.1, false)
  | none =>
    if bf16.isNaN x then
      match vals.find? (fun e => bf16.isNaN e.2) with
      | some e => (e.1, false)
      | none => (nearest 0, capture)
    else if bf16.isFinite x && bf16.mag x ≤ largest && hasFinite then (nearest x, false)
    else
      let clamp := if bf16.isInf x then bf16.signed (bf16.isNeg x) bf16.largest else x
      if capture then (nearest 0, true)
      else if rgPolicy r == 0 then
        match vals.find? (fun e => e.2 == bf16.signed (bf16.isNeg x) bf16.inf) with
        | some e => (e.1, false)
        | none => (nearest clamp, false)
      else (nearest clamp, false)

/-- A capture to append to an outlier list (R83): the element's address and the two data words. -/
structure Capture where
  addr : Nat
  lo : Nat
  hi : Nat
  deriving DecidableEq, Repr

def Capture.bytes (c : Capture) : List Byte := leBytes 8 c.addr ++ leBytes 4 c.lo ++ leBytes 4 c.hi

/-- The captures of one step in the order in which they reach their list (R85): by free ranks. -/
def rankCaptures (fresh : Nat) (cs : List Capture) : List Capture :=
  let insert (x : Nat × Capture) (l : List (Nat × Capture)) : List (Nat × Capture) :=
    l.takeWhile (fun y => y.1 ≤ x.1) ++ [x] ++ l.dropWhile (fun y => y.1 ≤ x.1)
  ((cs.zipIdx.map fun e => (Config.captureRank fresh e.2, e.1)).foldl (fun l x => insert x l) []).map (·.2)

/-- Does a key of a virtual function own a frame in the frame-key table (R147)? -/
def Pkg.ownsFrame (p : Pkg) (vf f : Nat) : Bool :=
  let e := (p.frameKeys.get f 0).toNat
  bit e 15 && p.keyVf.get? (bits e 9 0) == some vf

/-- The stores that append captures to the list whose descriptor is at physical address `d` (R83, R84): address and bytes. A
write-back has no context, so the model takes the list's base as a physical address (log entry 66). A tenant writes that base,
so an entry that would lie outside the frames that the region's owner owns, as `own` says, is counted and not stored (R416). -/
def appendPhys (m : Mem) (own : Nat → Bool) (d : Nat) (cs : List Capture) : List (Nat × List Byte) :=
  let base := leNat (m.readBytes d 8)
  let cap := leNat (m.readBytes (d + 8) 4)
  let count := leNat (m.readBytes (d + 16) 8)
  let entries := ((cs.take (cap - count)).zipIdx.map fun e => (base + 16 * (count + e.2), e.1.bytes)).filter fun e =>
    e.1 + 16 ≤ hbmTop && own (e.1 / 65536) && own ((e.1 + 15) / 65536)
  if cs.isEmpty then []
  else
    entries ++ (if cap < count + cs.length then [(d + 24, [m.read (d + 24) ||| 2])] else [])
      ++ [(d + 16, leBytes 8 (count + cs.length))]

/-- The stores by which a dirty alias line is written back: its code bytes, and the captures of its outliers (R96). -/
def cbEncodeLine (m : Mem) (own : Nat → Bool) (fresh : Nat) (r : BitVec 512) (line : Nat) (data : List Byte) :
    List (Nat × List Byte) :=
  let first := (line * 128 - rgAlias r) / 2
  let codes := (List.range 64).map fun i =>
    let x := leNat ((data.drop (2 * i)).take 2)
    let e := cbEncode m r (first + i) x
    (i, x, e.1, e.2)
  let bytes := (List.range 32).map fun k =>
    BitVec.ofNat 8 (((codes[2 * k]?).map (·.2.2.1)).getD 0 + 16 * ((codes[2 * k + 1]?).map (·.2.2.1)).getD 0)
  let caps := (codes.filter (·.2.2.2)).map fun e =>
    -- BF16 x as the FP32 value before narrowing
    { addr := 0xF * 2 ^ 60 + (line * 128 + 2 * e.1), lo := e.2.1 * 65536, hi := 0 : Capture }
  (rgCode r + first / 2, bytes) :: appendPhys m own (rgList r) (rankCaptures fresh caps)

/-- The words of an access. -/
def wordsOf (pa n : Nat) : List Nat := (List.range ((pa + n + 3) / 4 - pa / 4)).map (pa / 4 + ·)

/-- What an L1 holds without the doublewords of some words. The copies of the two words of a doubleword leave together, as
they are filled and refreshed together: an aligned load of 8 bytes never joins the halves of two moments (R127). -/
def dropPairs (ws : List Nat) (m : AMap Word) : AMap Word := m.filter fun e => !ws.any fun w => w / 2 == e.1 / 2

/-- Ownership of a word moves to a core, or to none for an agent without an L1: the previous owner's copy is
dropped first (R135). -/
def Pkg.ownWord (p : Pkg) (who : Option Nat) (w : Nat) : Pkg :=
  let p := match p.owner.get? w with
    | some o => if who == some o then p else { p with l1 := p.l1.update o (dropPairs [w]) }
    | none => p
  match who with
  | some c => { p with owner := p.owner.set w c }
  | none => { p with owner := p.owner.erase w }

/-- A write to HBM by the memory controllers, an agent without an L1 (R96, R135). -/
def Pkg.writeHbm (p : Pkg) (pa : Nat) (data : List Byte) : Pkg :=
  let p := (wordsOf pa data.length).foldl (fun p w => p.ownWord none w) p
  { p with mem := p.mem.writeBytes pa data }

/-- The physical address of the 32-byte block of codes that an alias line decodes (R96). -/
def codeBlock (r : BitVec 512) (line : Nat) : Nat := rgCode r + (line * 128 - rgAlias r) / 4

/-- No core owns a word of a line any more: its owners' copies are dropped. -/
def Pkg.disownLine (p : Pkg) (line : Nat) : Pkg := (List.range 32).foldl (fun p k => p.ownWord none (32 * line + k)) p

/-- Write back and drop an alias line (R96). The block of codes is kept as it was before, for a store to it that is in a race
with the write-back (R97). Encoding may change a value, so the write-back also counts as a write of the line by the memory
controllers: what a core still holds of it is dropped. -/
def Pkg.evictAlias (p : Pkg) (line : Nat) : Pkg :=
  match p.aliasLines.get? line with
  | none => p
  | some l =>
    let p := { p with aliasLines := p.aliasLines.erase line }
    match p.regions.get? (l.die * 64 + l.index) with
    | some r =>
      if l.dirty then
        let a := codeBlock r line
        let p := { p with codeBefore := p.codeBefore.set (a / 32) (p.mem.readBytes a 32) }
        ((cbEncodeLine p.mem (p.ownsFrame (rgOwner r)) p.fresh r line l.bytes).foldl (fun p x => p.writeHbm x.1 x.2) p).disownLine line
      else p
    | none => p

/-- No L1 holds a word of a region's alias window, and no core owns one. -/
def Pkg.dropWindow (p : Pkg) (r : BitVec 512) : Pkg :=
  let inside (w : Nat) : Bool := rgAlias r ≤ 4 * w && 4 * w < rgAlias r + 4 * rgSize r
  { p with l1 := p.l1.mapVals fun _ m => m.filter fun e => !inside e.1, owner := p.owner.filter fun e => !inside e.1 }

/-- Write back and invalidate the alias lines of a region, as Amiah does before its register changes (R97): after that no
write-back of them races with a store to the codes. -/
def Pkg.closeRegion (p : Pkg) (key : Nat) : Pkg :=
  let lines := (p.aliasLines.filter fun e => e.2.die * 64 + e.2.index == key).map (·.1)
  let p := lines.foldl Pkg.evictAlias p
  let r := p.regions.get key 0
  { p with codeBefore := p.codeBefore.filter fun e => 32 * e.1 < rgCode r || rgCode r + rgSize r ≤ 32 * e.1 }.dropWindow r

/-- The evictions of one step (R96): a pinned line is never replaced (R109). -/
def Pkg.evictSome (p : Pkg) : Pkg :=
  (p.aliasLines.keys.filter fun l => Config.evicts p.fresh l && (p.pinned.get? l).isNone).foldl Pkg.evictAlias p

/-! ### L2 sets and ways (R14, R102, R103, R109) -/

/-- The die whose L2 is the home of a line: that of its HBM stack, or of its codebook region register (R95, R137). -/
def Pkg.homeDie (p : Pkg) (line : Nat) : Nat :=
  if isAliasPa (line * 128) then ((regionOf p (line * 128)).map (·.1 / 64)).getD 0
  else line * 128 / 0xC00000000 / 3

/-- The set of a line: its die, its slice (48 of them) and its place there (2 MiB, 16 ways: 1,024 sets). The spec gives
no mapping of lines to slices and sets, so it is free within a die. -/
def Pkg.l2SetOf (p : Pkg) (line : Nat) : Nat := p.homeDie line * 49152 + Config.l2Set line % 49152

/-- The virtual function whose ways an alias line or a pinned line takes. -/
def Pkg.wayOwner (p : Pkg) (line : Nat) : Option Nat :=
  match p.aliasLines.get? line with
  | some l => some l.vf
  | none => (p.pinned.get? line).bind fun k => (p.ctxs.get? k).map (·.vf)

/-- The lines whose presence in L2 the model keeps, the alias lines and the pinned ones: which others L2 holds changes
no value (R104). -/
def Pkg.heldLines (p : Pkg) : List Nat := p.aliasLines.keys ++ p.pinned.keys.filter fun l => (p.aliasLines.get? l).isNone

/-- The place of a line in the order in which its set replaces lines, first to stay first: pinned lines, then those
allocated normally, then those allocated as next to be replaced; among equals a free rank. -/
def Pkg.stayRank (p : Pkg) (line : Nat) : Nat :=
  if (p.pinned.get? line).isSome then 0
  else if ((p.aliasLines.get? line).map (·.next)).getD false then 2 + 2 * 2 ^ 52 + Config.stayRank p.fresh line % 2 ^ 52
  else 1 + Config.stayRank p.fresh line % 2 ^ 52

/-- Must a line leave L2, because two lines of its function in its set go before it (R103)? -/
def Pkg.mustLeave (p : Pkg) (line : Nat) : Bool :=
  2 ≤ ((p.heldLines.filter fun k => p.l2SetOf k == p.l2SetOf line && p.wayOwner k == p.wayOwner line
    && (p.stayRank k < p.stayRank line || (p.stayRank k == p.stayRank line && k < line))).length)

/-- Replacement in L2: each virtual function keeps two lines of a set (R103). -/
def Pkg.replaceL2 (p : Pkg) : Pkg :=
  (p.aliasLines.keys.filter fun l => (p.pinned.get? l).isNone && p.mustLeave l).foldl Pkg.evictAlias p

/-- Replacement in L1: 128 KiB, so 1,024 lines a core (R14); which lines stay is free. -/
def Pkg.replaceL1 (p : Pkg) : Pkg :=
  { p with l1 := p.l1.mapVals fun c m =>
      let lines := (m.map (·.1 / 32)).eraseDups
      if lines.length ≤ 1024 then m
      else
        let k := Config.stayRank p.fresh c % lines.length
        let stay := (lines.drop k ++ lines.take k).take 1024
        m.filter fun e => stay.contains (e.1 / 32) }

/-- Lines leave the L1s: which ones is not specified (R417). -/
def Pkg.dropL1 (p : Pkg) : Pkg := { p with l1 := p.l1.mapVals fun _ m => m.filter fun e => Config.l1Keeps p.fresh (e.1 / 32) }

/-! ### Alias lines in L2 (R95, R96) -/

/-- The bytes of an alias line: as L2 holds it, or as a fill would decode it; 0 where no region is enabled. -/
def Pkg.aliasBytes (p : Pkg) (line : Nat) : List Byte :=
  match p.aliasLines.get? line with
  | some l => l.bytes
  | none =>
    match regionOf p (line * 128) with
    | some (_, r) => cbDecodeLine p.mem r line
    | none => List.replicate 128 0

/-- An access to an alias line: a fill into L2, or an error event where no region is enabled. -/
def Pkg.fillAlias (p : Pkg) (next : Bool) (line : Nat) : Pkg :=
  if (p.aliasLines.get? line).isSome then p
  else
    match regionOf p (line * 128) with
    | some (k, r) =>
      { p with aliasLines := p.aliasLines.set line ⟨k / 64, k % 64, rgOwner r, cbDecodeLine p.mem r line, false, next⟩ }
    | none => p.say (.aliasError (line * 128))

/-- The parts of a byte range that lie in one 128-byte line each: address and length. -/
def lineParts (pa n : Nat) : List (Nat × Nat) :=
  (List.range ((pa + n + 127) / 128 - pa / 128)).map fun i =>
    let a := max pa ((pa / 128 + i) * 128)
    (a, min (pa + n) ((pa / 128 + i + 1) * 128) - a)

/-- Bytes as L2 holds them, without an access: alias lines decoded, device registers as they would answer. -/
def Pkg.peek (p : Pkg) (pa n : Nat) : List Byte :=
  if isAliasPa pa then (lineParts pa n).flatMap fun e => ((p.aliasBytes (e.1 / 128)).drop (e.1 % 128)).take e.2
  else if isDevicePa pa then (List.range n).map fun k => Config.deviceByte p.fresh (pa + k)
  else p.mem.readBytes pa n

/-- A store to HBM drops the clean alias lines that cover the codes it writes (R97). -/
def Pkg.dropAlias (p : Pkg) (pa n : Nat) : Pkg :=
  { p with aliasLines := p.aliasLines.filter fun e =>
      match p.regions.get? (e.2.die * 64 + e.2.index) with
      | some r =>
        let c := codeBlock r e.1
        e.2.dirty || pa + n ≤ c || c + 32 ≤ pa
      | none => true }

/-- A store to a block of codes after a write-back to it. Where the two are in a race, the block afterwards holds the bytes of
exactly one of the two writes (R97), here the store's: L2 writes the block as it held it, without what was written back. A step
does not show whether happens-before orders the two, so which of the outcomes it is is a free value (log entry 79). -/
def Pkg.blockBytes (p : Pkg) (pa n : Nat) : Pkg :=
  let (hit, rest) := p.codeBefore.partition fun e => pa < 32 * e.1 + 32 && 32 * e.1 < pa + n
  if hit.isEmpty then p
  else
    { p with codeBefore := rest,
             mem := hit.foldl (fun m e => if Config.blockWins p.fresh e.1 then m.writeBytes (32 * e.1) e.2 else m) p.mem }

/-! ### L2, and L1 with word ownership -/

/-- Bytes as an access finds them in L2, its alias lines filled; `next` for a stream load (R104). -/
def Pkg.readL2 (p : Pkg) (pa n : Nat) (next : Bool := false) : Pkg × List Byte :=
  if isAliasPa pa then
    let p := (lineParts pa n).foldl (fun p e => p.fillAlias next (e.1 / 128)) p
    (p, p.peek pa n)
  else (p, p.mem.readBytes pa n)

/-- A store updates the issuing core's L1 copy, with that of the other word of its doubleword, and allocates none (R102). -/
def Pkg.refreshL1 (p : Pkg) (who : Option Nat) (w : Nat) : Pkg :=
  match who with
  | none => p
  | some c =>
    let now (k : Nat) (x : Word) : Word := if k / 2 == w / 2 then BitVec.ofNat 32 (leNat (p.peek (4 * k) 4)) else x
    { p with l1 := p.l1.update c (AMap.mapVals · now) }

/-- Ownership of the words of an access that is performed at L2, with the issuer's own copies refreshed: what an atomic
does beside its read and its write (R135). -/
def Pkg.register (p : Pkg) (who : Option Nat) (pa n : Nat) : Pkg :=
  (wordsOf pa n).foldl (fun p w => (p.ownWord who w).refreshL1 who w) p

/-- A twin descriptor's selector, displacement and count, from the twin table of a context (R111). -/
def Pkg.twinDesc (p : Pkg) (ctx idx : Nat) : Nat :=
  match p.ctxs.get? ctx with
  | some c => leNat (p.mem.readBytes (c.twinPa + 64 * idx) 64)
  | none => 0
def twSelector (d : Nat) : Bool := bit d 448
def twEnabled (d : Nat) : Bool := bit d 449
def twDisp (d : Nat) : Int := signedOf 64 (bits d 447 384)
def twLength (d : Nat) : Nat := bits d 383 320
def twBase (d : Nat) : Nat := bits d 319 256
def twContext (d : Nat) : Nat := bits d 5 0
def twCount (d : Nat) : Nat := bits d 511 480

/-- The physical address of side A or B of a twin byte (R111). A displaced address outside the 52 bits of a physical address
(R136), on either end, lies in no frame that a key owns: the walk raises Key Alias (R145, R147). -/
def sidePa (d pa : Nat) (sideB : Bool) : Nat := if sideB then (((pa : Int) + twDisp d) % 2 ^ 64).toNat else pa

/-- The physical address that a strand access or an engine read of a twin byte reaches (R112). -/
def Pkg.selectedPa (p : Pkg) (ctx idx pa : Nat) : Nat :=
  let d := p.twinDesc ctx idx
  sidePa d pa (twSelector d)

/-- The physical address in HBM that a strand reaches at a location. -/
def Pkg.hbmPa? (p : Pkg) (l : Loc) : Option Nat :=
  match l with
  | .hbm pa => some pa
  | .twin c i pa => some (p.selectedPa c i pa)
  | _ => none

/-- Ownership of the words of a location that an access performed at L2 leaves as they are: a compare-and-swap that fails
is performed as any atomic is (R135). -/
def Pkg.registerLoc (p : Pkg) (who : Option Nat) (l : Loc) (n : Nat) : Pkg :=
  match p.hbmPa? l with
  | some pa => p.register who pa n
  | none => p

/-- Does the 64-bit word at a location reach a target by a store to [pa, pa + n)? -/
def Pkg.reaches (p : Pkg) (pa n : Nat) (l : Loc) (t : DWord) : Bool :=
  match p.hbmPa? l with
  | some q => q < pa + n && pa < q + 8 && t.toNat ≤ leNat (p.peek q 8)
  | none => false

/-- Mark the strands parked in WAITSEQ and the rings held by a WAIT packet whose word has reached its target (R349,
R365). -/
def Pkg.testSeq (p : Pkg) (pa n : Nat) : Pkg :=
  { p with
    strands := p.strands.mapVals fun _ st =>
      match st.park with
      | some (.waitseq l t false) => if p.reaches pa n l t then { st with park := some (.waitseq l t true) } else st
      | _ => st
    ctxs := p.ctxs.mapVals fun _ c => { c with rings := c.rings.mapVals fun _ r =>
      match r.hold with
      | some (.word l t false) => if p.reaches pa n l t then { r with hold := some (.word l t true) } else r
      | _ => r } }

/-- A store to bytes of one alias line: the line is filled and becomes dirty; where no region is enabled the store is
discarded (R95, R96). `next` for a stream store (R104). -/
def Pkg.writeAlias (p : Pkg) (pa : Nat) (data : List Byte) (next : Bool := false) : Pkg :=
  let p := p.fillAlias next (pa / 128)
  { p with aliasLines := p.aliasLines.update (pa / 128) fun l =>
      { l with bytes := l.bytes.take (pa % 128) ++ data ++ l.bytes.drop (pa % 128 + data.length), dirty := true } }

/-- A store performed at L2 (R102, R135); `next` for a stream store, which allocates its line as the next to be replaced
(R104). -/
def Pkg.writeL2 (p : Pkg) (who : Option Nat) (pa : Nat) (data : List Byte) (next : Bool := false) : Pkg :=
  let n := data.length
  let p := (wordsOf pa n).foldl (fun p w => p.ownWord who w) p
  let p :=
    if isAliasPa pa then
      (lineParts pa n).foldl (fun p e => p.writeAlias e.1 ((data.drop (e.1 - pa)).take e.2) next) p
    else
      let p := p.blockBytes pa n
      { p with mem := p.mem.writeBytes pa data }.dropAlias pa n
  (wordsOf pa n).foldl (fun p w => p.refreshL1 who w) (p.testSeq pa n)

/-- A word of a core's L1. -/
def Pkg.l1Word (p : Pkg) (c w : Nat) : Option Word := (p.l1.get c []).get? w

/-- Drop words from a core's L1, so that no later load of the core finds an older value than this access (R104, R127). -/
def Pkg.dropWords (p : Pkg) (c pa n : Nat) : Pkg :=
  { p with l1 := p.l1.update c (dropPairs (wordsOf pa n)) }

/-- Drop the words of a location from the L1 of a core, if it lies in memory that an L1 holds. -/
def Pkg.dropLoc (p : Pkg) (who : Option Nat) (l : Loc) (n : Nat) : Pkg :=
  match who, p.hbmPa? l with
  | some c, some pa => p.dropWords c pa n
  | _, _ => p

/-- Does an address lie in an alias window no region of which is enabled (R95)? -/
def Pkg.inDisabled (p : Pkg) (pa : Nat) : Bool := isAliasPa pa && (regionOf p pa).isNone

/-- A load of a strand through L1 and L2 under a cache policy (R102, R104); bytes within one line. A disabled alias window
reads 0, whatever an L1 holds (R95). -/
def Pkg.loadVia (p : Pkg) (who : Option Nat) (policy pa n : Nat) : Pkg × List Byte :=
  let (p, bytes) := p.readL2 pa n (policy == 1)
  match who with
  | none => (p, bytes)
  | some c =>
    if policy == 2 || p.inDisabled pa then (p.dropWords c pa n, bytes)
    else
      let out := (List.range n).map fun i =>
        match p.l1Word c ((pa + i) / 4) with
        | some x => (wordBytes x).getD ((pa + i) % 4) 0
        | none => bytes.getD i 0
      if policy != 0 then (p, out)
      else
        let base := pa / 128 * 32
        let line := p.peek (base * 4) 128
        let fill := (List.range 32).map fun k =>
          (base + k, (p.l1Word c (base + k)).getD (BitVec.ofNat 32 (leNat ((line.drop (4 * k)).take 4))))
        let old := p.l1.get c []
        ({ p with l1 := p.l1.set c (fill.foldl (fun m e => m.set e.1 e.2) old) }, out)

/-- ACQ's discard: every word of the core's L1 that the core does not own (R135). -/
def Pkg.discardL1 (p : Pkg) (who : Option Nat) : Pkg :=
  match who with
  | none => p
  | some c => { p with l1 := p.l1.update c fun m => m.filter fun e => p.owner.get? e.1 == some c }

/-! ### Cluster-shared memory (R33) -/

/-- The window that holds a byte of a cluster-shared allocation: that of core position L mod 4, for line L. -/
def windowOf (o : Nat) : Nat := o / 128 % 4
/-- The place of a byte of a cluster-shared allocation in its part of the window. -/
def windowAt (o : Nat) : Nat := o / 512 * 128 + o % 128

/-- `n` bytes of a cluster-shared allocation, which a program addresses as one range. -/
def Bent.readQ (b : Bent) (o n : Nat) : List Byte :=
  (List.range n).map fun i => (b.qspad.get (windowOf (o + i)) []).read (windowAt (o + i))

/-- Store bytes to a cluster-shared allocation. -/
def Bent.writeQ (b : Bent) : Nat → List Byte → Bent
  | _, [] => b
  | o, x :: rest =>
    { b with qspad := b.qspad.set (windowOf o) ((b.qspad.get (windowOf o) []).write (windowAt o) x) }.writeQ (o + 1) rest

/-! ### Scratchpads and presence -/

def Pkg.crew? (p : Pkg) (bent c : Nat) : Option Crew := (p.bents.get? bent).bind fun b => b.crews.get? c
def Pkg.updCrew (p : Pkg) (bent c : Nat) (f : Crew → Crew) : Pkg :=
  p.updBent bent fun b => { b with crews := b.crews.update c f }

/-- The absent lines of the allocation that a location lies in (R105). -/
def Pkg.absentOf (p : Pkg) (l : Loc) : List (Nat × Nat) :=
  match l with
  | .core b c _ => ((p.crew? b c).map (·.absent)).getD []
  | .clus b _ => ((p.bents.get? b).map (·.absent)).getD []
  | .die c _ => ((p.ctxs.get? c).map (·.absent)).getD []
  | _ => []

def Loc.offset : Loc → Nat
  | .hbm pa => pa | .twin _ _ pa => pa | .dev pa => pa
  | .lane _ _ o => o | .core _ _ o => o | .clus _ o => o | .die _ o => o

/-- The location `k` bytes further on. -/
def Loc.plus (l : Loc) (k : Nat) : Loc :=
  match l with
  | .hbm pa => .hbm (pa + k) | .twin c i pa => .twin c i (pa + k) | .dev pa => .dev (pa + k)
  | .lane s j o => .lane s j (o + k) | .core b c o => .core b c (o + k) | .clus b o => .clus b (o + k)
  | .die c o => .die c (o + k)

/-- Do two byte ranges share a byte? Two places of one twin are compared by their side-A addresses. -/
def Loc.overlaps (x : Loc) (n : Nat) (y : Loc) (k : Nat) : Bool :=
  let same := match x, y with
    | .hbm _, .hbm _ | .dev _, .dev _ => true
    | .twin c i _, .twin c' i' _ => c == c' && i == i'
    | .lane s j _, .lane s' j' _ => s == s' && j == j'
    | .core b c _, .core b' c' _ => b == b' && c == c'
    | .clus b _, .clus b' _ => b == b'
    | .die c _, .die c' _ => c == c'
    | _, _ => false
  same && x.offset < y.offset + k && y.offset < x.offset + n

/-- The places at which an access of a location may be performed: either side of a twin (R112). -/
def Pkg.sidesOf (p : Pkg) (l : Loc) : List Loc :=
  match l with
  | .twin c i pa => [.hbm pa, .hbm (sidePa (p.twinDesc c i) pa true)]
  | l => [l]

/-- May accesses of two byte ranges touch a common byte (R121)? -/
def Pkg.shareByte (p : Pkg) (x : Loc) (n : Nat) (y : Loc) (k : Nat) : Bool :=
  (p.sidesOf x).any fun a => (p.sidesOf y).any fun b => a.overlaps n b k

/-- Are all lines of a byte range present (R106)? -/
def Pkg.isPresentAt (p : Pkg) (l : Loc) (n : Nat) : Bool :=
  (p.absentOf l).all fun e => !(l.offset < (e.1 + 1) * 128 && e.1 * 128 < l.offset + n)

/-- Change the absent lines of an allocation. -/
def Pkg.updAbsent (p : Pkg) (l : Loc) (f : List (Nat × Nat) → List (Nat × Nat)) : Pkg :=
  match l with
  | .core b c _ => p.updCrew b c fun x => { x with absent := f x.absent }
  | .clus b _ => p.updBent b fun x => { x with absent := f x.absent }
  | .die c _ => p.updCtx c fun x => { x with absent := f x.absent }
  | _ => p

/-- The physical address that an engine write to a twin byte reaches (R112). -/
def Pkg.shadowPa (p : Pkg) (ctx idx pa : Nat) : Nat :=
  let d := p.twinDesc ctx idx
  sidePa d pa (!twSelector d)

/-! ### Reading and writing one location -/

/-- Fire every watch whose counter is at or above its target (R353). -/
def Pkg.testWatches (p : Pkg) : Pkg :=
  let value (l : Loc) : Nat := match l with
    | .core b c o => leNat (((p.crew? b c).map fun x => x.kspad.readBytes o 8).getD [])
    | .clus b o => leNat (((p.bents.get? b).map fun x => x.readQ o 8).getD [])
    | .die c o => leNat (((p.ctxs.get? c).map fun x => x.dspad.readBytes o 8).getD [])
    | _ => 0
  { p with cores := p.cores.mapVals fun _ k =>
      { k with watches := k.watches.mapVals fun _ w =>
          if !w.fired && w.target.toNat ≤ value w.loc then { w with fired := true } else w } }

/-- `n` bytes at a location, for a load of a strand on core `who` under a cache policy. Each read of a device range is a
transaction of its own, with a value of its own (R260). -/
def Pkg.readLoc (p : Pkg) (who : Option Nat) (policy : Nat) (l : Loc) (n : Nat) : Pkg × List Byte :=
  match l with
  | .hbm pa => p.loadVia who policy pa n
  | .twin c i pa => p.loadVia who policy (p.selectedPa c i pa) n
  | .dev pa => ({ p with fresh := p.fresh + 1 }, (List.range n).map fun k => Config.deviceByte p.fresh (pa + k))
  | .lane s j o => (p, ((p.strand? s).map fun st => st.slice.readBytes (4096 * j + o) n).getD [])
  | .core b c o => (p, ((p.crew? b c).map fun x => x.kspad.readBytes o n).getD [])
  | .clus b o => (p, ((p.bents.get? b).map fun x => x.readQ o n).getD [])
  | .die c o => (p, ((p.ctxs.get? c).map fun x => x.dspad.readBytes o n).getD [])

/-- Store bytes at a location, for a strand on core `who`; `engine` for an engine write, which reaches the
unselected side of a twin (R112); `next` for a stream store (R104). -/
def Pkg.writeLoc (p : Pkg) (who : Option Nat) (engine : Bool) (l : Loc) (data : List Byte) (next : Bool := false) : Pkg :=
  match l with
  | .hbm pa => p.writeL2 who pa data next
  | .twin c i pa => p.writeL2 who (if engine then p.shadowPa c i pa else p.selectedPa c i pa) data next
  | .dev pa => { p with devWrites := p.devWrites ++ [(pa, data)] }
  | .lane s j o => p.updStrand s fun st => { st with slice := st.slice.writeBytes (4096 * j + o) data }
  | .core b c o => (p.updCrew b c fun x => { x with kspad := x.kspad.writeBytes o data }).testWatches
  | .clus b o => (p.updBent b fun x => x.writeQ o data).testWatches
  | .die c o => (p.updCtx c fun x => { x with dspad := x.dspad.writeBytes o data }).testWatches

/-- The rows that the ACCSTs of a bent on some tiles have written become visible, oldest first, on the selected side of a twin
(R112, R115, R129, R299). -/
def Pkg.revealTiles (p : Pkg) (k : Nat) (which : Nat → Bool) : Pkg :=
  let all := ((p.bents.get? k).map (·.hidden)).getD []
  let p := p.updBent k fun b => { b with hidden := all.filter fun x => !which x.1 }
  (all.filter fun x => which x.1).foldl (fun p x => p.writeLoc none false x.2.1 x.2.2) p

/-- What the ACCSTs of some bents have written becomes visible: the bents end (R115, R134). -/
def Pkg.revealBents (p : Pkg) (which : Bent → Bool) : Pkg :=
  ((p.bents.filter fun e => which e.2).map (·.1)).foldl (fun p k => p.revealTiles k fun _ => true) p

/-- Does an access of a physical address read a line with an uncorrectable error (R415)? An alias line that L2 does not hold
is filled from its codes, its table and its scales (R96). -/
def Pkg.badAt (p : Pkg) (pa : Nat) : Bool :=
  p.badLines.contains (pa / 128) || (isAliasPa pa && (p.aliasLines.get? (pa / 128)).isNone &&
    match regionOf p pa with
    | some (_, r) =>
      let n := (pa / 128 * 128 - rgAlias r) / 2
      ([codeBlock r (pa / 128), rgTable r] ++ if rgScaled r then [rgScale r + 2 * (n / 256)] else []).any fun a =>
        p.badLines.contains (a / 128)
    | none => false)

/-- Does a location lie in a line with an uncorrectable error (R266, R415)? -/
def Pkg.isBad (p : Pkg) (l : Loc) : Bool :=
  match p.hbmPa? l with
  | some pa => p.badAt pa
  | none => p.badSpots.any fun b => b.overlaps 128 l 1

end Sys2Proof.Machine
end

