-- ==== Sys2Proof/Machine/Translate.lean ====
section
/-!
DEFINITION. Translation, leases, keys and permissions (R136 to R161): the walk, what it installs and what it reports.
-/
namespace Sys2Proof.Machine

/-- What an access needs of its leaf (R152). -/
structure Need where
  read : Bool := false
  write : Bool := false
  exec : Bool := false
  /-- the access may not go to a device range (R260) -/
  noDev : Bool := false
  deriving DecidableEq, Repr

def needRead : Need := { read := true }
def needWrite : Need := { write := true }
def needAtomic : Need := { read := true, write := true, noDev := true }
def needUpdate : Need := { read := true, write := true }
def needFetch : Need := { exec := true }

/-- The outcome of translating one byte address. -/
inductive Trans where
  | ok (l : Loc)
  /-- no range of the lease holds the address (R158) -/
  | outside
  /-- a translation fault in an elastic range (R141) -/
  | elastic (va : Nat)
  /-- Permission with its reason (R206) -/
  | permission (reason : Nat)
  /-- Key Alias with the leaf's key and the table's entry (R147) -/
  | keyAlias (key entry : Nat)
  deriving DecidableEq, Repr

/-! ### Leases (R155) -/

/-- The range of a lease that holds an address (R136: bits [63:55] set lie outside). -/
def leaseRange? (lease : List LeaseRange) (va : Nat) : Option LeaseRange :=
  if 2 ^ 55 ≤ va then none
  else lease.find? fun r => r.base ≤ va / 65536 && va / 65536 < r.base + r.pages

/-! ### Leaves (R139, R140) -/

def leafKind (e : Nat) : Nat := bits e 1 0
def leafKey (e : Nat) : Nat := bits e 61 52
def leafFrame (e : Nat) : Nat := bits e 51 16
def leafTwin (e : Nat) : Nat := bits e 15 9
def leafSpan (e : Nat) : Nat := if leafKind e == 3 then 0 else if bits e 8 7 == 3 then 0 else bits e 8 7
def leafSpanPages (e : Nat) : Nat := match leafSpan e with | 1 => 32 | 2 => 1024 | _ => 1
def leafDirty (e : Nat) : Bool := bit e 5
def leafAccessed (e : Nat) : Bool := bit e 6

/-- The first permission that a leaf lacks, as its reason (R152). -/
def leafDenies (e : Nat) (n : Need) : Option Nat :=
  if n.read && !bit e 2 then some 3
  else if n.write && !bit e 3 then some 4
  else if n.exec && !bit e 4 then some 5
  else none

/-- The outcome of the three reads of a walk (R138, R141): the leaf's address and value, or an entry that is
invalid or malformed. -/
inductive Walk where
  | leaf (addr e : Nat)
  | invalid
  | malformed
  deriving DecidableEq, Repr

/-- The walk of a tree (R138): its reads find what L2 holds. -/
def walkTree (p : Pkg) (root va : Nat) : Walk :=
  let rd (node i : Nat) := leNat (p.peek (node + 8 * i) 8)
  let e2 := rd root (bits va 54 42)
  if leafKind e2 == 0 then .invalid else if leafKind e2 != 1 then .malformed
  else
    let e1 := rd (bits e2 51 16 * 65536) (bits va 41 29)
    if leafKind e1 == 0 then .invalid else if leafKind e1 != 1 then .malformed
    else
      let a0 := bits e1 51 16 * 65536 + 8 * bits va 28 16
      let e0 := leNat (p.peek a0 8)
      if leafKind e0 == 0 then .invalid else if leafKind e0 == 1 then .malformed else .leaf a0 e0

/-- The addresses of the entries that a walk reads. -/
def walkReads (p : Pkg) (root va : Nat) : List Nat :=
  let a2 := root + 8 * bits va 54 42
  let e2 := leNat (p.peek a2 8)
  if leafKind e2 != 1 then [a2]
  else
    let a1 := bits e2 51 16 * 65536 + 8 * bits va 41 29
    let e1 := leNat (p.peek a1 8)
    if leafKind e1 != 1 then [a2, a1] else [a2, a1, bits e1 51 16 * 65536 + 8 * bits va 28 16]

/-- The reads of a walk, as accesses of L2 (R138): lines of codebook windows are filled, and a read of a disabled window is
reported (R95). -/
def Pkg.readWalk (p : Pkg) (root va : Nat) : Pkg := (walkReads p root va).foldl (fun p a => (p.readL2 a 8).1) p

/-- Does a walk meet an uncorrectable error (R415)? -/
def Pkg.walkBad (p : Pkg) (root va : Nat) : Bool := !p.badLines.isEmpty && (walkReads p root va).any p.badAt

/-! ### Keys (R147, R148) -/

/-- The frame-key check of one frame under a leaf's key: the table's entry when it fails. -/
def Pkg.keyFails (p : Pkg) (vf key frame : Nat) : Option Nat :=
  let entry := (p.frameKeys.get frame 0).toNat
  if isDevicePa (frame * 65536) then
    let win := (p.vfs.get vf {}).devWin.any fun w => w.1 ≤ frame * 65536 && frame * 65536 < w.1 + w.2 * 65536
    if win && key == 0 then none else some entry
  else if hbmTop ≤ frame * 65536 && !isAliasPa (frame * 65536) then some entry
  else if bit entry 15 && bits entry 9 0 == key && p.keyVf.get? key == some vf then none
  else some entry

/-- The frame-key check of one side of a twin leaf: the frame-key table owns both sides, so a frame of the device range, which
it does not hold, fails (R111, R147). -/
def Pkg.sideFails (p : Pkg) (vf key frame : Nat) : Option Nat :=
  if isDevicePa (frame * 65536) then some (p.frameKeys.get frame 0).toNat else p.keyFails vf key frame

/-- Permission with reason 6 for a twin leaf (R145). -/
def Pkg.twinDenied (p : Pkg) (cid va e : Nat) : Bool :=
  let d := p.twinDesc cid (leafTwin e)
  !twEnabled d || twContext d != cid || va < twBase d || twBase d + twLength d ≤ va

/-- The checks on a leaf (R145, R147, R152, R154): what it translates to. The spec gives no order between reason 6 of a twin leaf
and a permission bit that the leaf lacks too: reason 6 goes first, the model's choice (log entry 97). -/
def Pkg.useLeaf (p : Pkg) (cid vf va e : Nat) (n : Need) : Trans :=
  let off := va % 65536
  let pa := leafFrame e * 65536 + off
  if leafKind e == 3 then
    let d := p.twinDesc cid (leafTwin e)
    match p.sideFails vf (leafKey e) (leafFrame e) with
    | some t => .keyAlias (leafKey e) t
    | none =>
      match p.sideFails vf (leafKey e) (sidePa d pa true / 65536) with
      | some t => .keyAlias (leafKey e) t
      | none =>
        if p.twinDenied cid va e then .permission 6
        else
          match leafDenies e n with
          | some r => .permission r
          | none => .ok (.twin cid (leafTwin e) pa)
  else
    match p.keyFails vf (leafKey e) (leafFrame e) with
    | some t => .keyAlias (leafKey e) t
    | none =>
      match leafDenies e n with
      | some r => .permission r
      | none => if !isDevicePa pa then .ok (.hbm pa) else if n.noDev then .permission 4 else .ok (.dev pa)

/-! ### Accessed and dirty bits (R142, R160) -/

/-- Set accessed, and dirty for a write, in the leaf at a physical address (R142). -/
def Pkg.markLeaf (p : Pkg) (addr e : Nat) (write : Bool) : Pkg :=
  let bits' := e ||| (if write then 0x60 else 0x40)
  if bits' == e then p else p.writeL2 none addr (leBytes 8 bits')

/-- The frames whose log bits a leaf's first write sets (R160). -/
def Pkg.dirtyFrames (p : Pkg) (cid va e : Nat) : List Nat :=
  if leafKind e == 3 then
    [leafFrame e, sidePa (p.twinDesc cid (leafTwin e)) (leafFrame e * 65536 + va % 65536) true / 65536]
  else [leafFrame e]

/-- Enter frames in the dirty log of a virtual function, when it is enabled: their bits in the bitmap, which covers the
frames of HBM (R160). -/
def Pkg.logDirty (p : Pkg) (vf : Nat) (frames : List Nat) : Pkg :=
  match (p.vfs.get vf {}).dirtyOn with
  | none => p
  | some bm =>
    (frames.filter (· < 9437184)).foldl (fun p f =>
      let a := bm + f / 8
      { p with hostMem := p.hostMem.write a (p.hostMem.read a ||| BitVec.ofNat 8 (2 ^ (f % 8))) }) p

/-! ### Cached translations (R143, R144, R149) -/

/-- The places in which a requester looks for a translation, its own first: a lane's last-page register, its core's TLB,
its die's last-level TLB (R149). -/
def TlbHome.levels (vf : Nat) (h : TlbHome) : List TlbHome :=
  match h with
  | .lane sid _ => [h, .core (sidCk sid % 1024), .die (vf / 2)]
  | .core _ | .engine _ => [h, .die (vf / 2)]
  | .die _ => [h]

/-- The level of a place, which selects free values. -/
def TlbHome.level : TlbHome → Nat
  | .lane .. => 0
  | .core _ => 1
  | .engine _ => 2
  | .die _ => 3

/-- The leaf of a cached entry for one of its pages. -/
def TlbEntry.leafAt (t : TlbEntry) (vpn : Nat) : Nat :=
  setBits t.leaf.toNat 51 16 (leafFrame t.leaf.toNat + (vpn - t.vpn))

/-- A translation as a place holds it: a lane's register holds one page. -/
def TlbEntry.heldAt (t : TlbEntry) (vpn : Nat) (h : TlbHome) : TlbEntry :=
  match h with
  | .lane .. => { t with home := h, vpn := vpn, span := 1, leaf := BitVec.ofNat 64 (t.leafAt vpn), dirty := t.dirty.filter (· == vpn) }
  | _ => { t with home := h }

/-- Put a translation in its place: it takes the place of what a lane's register held, or of the same entry of a TLB. A
last-level TLB has 12,288 entries; the oldest makes room (R149). -/
def Pkg.putTlb (p : Pkg) (t : TlbEntry) : Pkg :=
  let same (x : TlbEntry) : Bool := x.home == t.home && match t.home with
    | .lane .. => true
    | _ => x.ctx == t.ctx && x.vpn == t.vpn && x.span == t.span
  let rest := p.tlb.filter fun x => !same x
  let full : Bool := match t.home with
    | .die _ => 12288 ≤ (rest.filter fun x => x.home == t.home).length
    | _ => false
  { p with tlb := (if full then rest.eraseP fun x => x.home == t.home else rest) ++ [t] }

/-- Put a translation of a page in several places. -/
def Pkg.putTlbs (p : Pkg) (vpn : Nat) (t : TlbEntry) (hs : List TlbHome) : Pkg :=
  hs.foldl (fun p h => p.putTlb (t.heldAt vpn h)) p

/-- Install what a walk found, for the requester and the levels behind it: a span entry when every frame of the span
carries the leaf's key (R143). The span rule maps a page to the frame at the same place of an equally aligned range; a
leaf whose own frame is not at its page's place has broken its declaration, and the model installs it as a single page,
so that the page translates by its own leaf: one of the outcomes of R144 (log entry 67). -/
def Pkg.install (p : Pkg) (port : TlbHome) (cid vf vpn e : Nat) (write : Bool) : Pkg :=
  let n := leafSpanPages e
  let first := vpn / n * n
  let frame := leafFrame e / n * n
  let whole := 1 < n && leafFrame e % n == vpn % n
    && (List.range n).all fun i => (p.keyFails vf (leafKey e) (frame + i)).isNone
  let d := if write || leafDirty e then [vpn] else []
  p.putTlbs vpn
    (if whole then { home := port, ctx := cid, vpn := first, span := n, leaf := BitVec.ofNat 64 (setBits e 51 16 frame), dirty := d }
     else { home := port, ctx := cid, vpn := vpn, span := 1, leaf := BitVec.ofNat 64 e, dirty := d })
    (port.levels vf)

/-- A cached translation that an access uses, from the first level that still holds one (R149): an entry of the page's
own, or a span entry when the span rule is the one applied (R144). -/
def Pkg.cached (p : Pkg) (port : TlbHome) (cid vf vpn : Nat) : Option TlbEntry :=
  (port.levels vf).findSome? fun h => p.tlb.find? fun t => t.home == h && t.ctx == cid && t.vpn ≤ vpn && vpn < t.vpn + t.span
    && Config.tlbKeeps p.fresh vpn h.level && (t.span == 1 || Config.spanRule p.fresh vpn)

/-- A walk from memory that installs what it finds (R138, R142, R147); a failing walk leaves what software sees as it was. -/
def Pkg.walk (p : Pkg) (port : TlbHome) (cid : Nat) (elastic : Bool) (va : Nat) (n : Need) : Pkg × Trans :=
  match p.ctxs.get? cid with
  | none => (p, .permission 1)
  | some c =>
    if p.walkBad (crRoot c.record) va then (p, .permission 1)
    else
    let p := p.readWalk (crRoot c.record) va
    match walkTree p (crRoot c.record) va with
    | .invalid => (p, if elastic then .elastic va else .permission 1)
    | .malformed => (p, if elastic then .elastic va else .permission 2)
    | .leaf addr e =>
      match p.useLeaf cid c.vf va e n with
      | .ok l =>
        let p := if n.write && !leafDirty e then p.logDirty c.vf (p.dirtyFrames cid va e) else p
        let p := p.markLeaf addr e n.write
        (p.install port cid c.vf (va / 65536) e n.write, .ok l)
      | t => (p, t)

/-- Translate an address of page `vpn` by the leaf of a cached translation that permits the access, else by a walk from
memory, which is also the confirm walk (R152, R153). A write to a page whose dirty bit is not known to be set walks too: the
walk sets the dirty bit of the page's own leaf and enters the frames of that leaf, which the write then uses, in the dirty
log (R142, R143, R160). The levels before the one that held the translation take it over (R149). -/
def Pkg.useCached (p : Pkg) (port : TlbHome) (cid : Nat) (c : Ctx) (t : TlbEntry) (leaf : Nat) (elastic : Bool) (va vpn : Nat)
    (n : Need) : Pkg × Trans :=
  let above := (port.levels c.vf).takeWhile fun h => h != t.home
  match p.useLeaf cid c.vf va leaf n with
  | .ok l =>
    if n.write && !t.dirty.contains vpn then p.walk port cid elastic va n
    else (p.putTlbs vpn t above, .ok l)
  | _ => p.walk port cid elastic va n

/-- Translate an address inside a lease range: by a cached translation if there is one, else by a walk (R149). -/
def Pkg.translateIn (p : Pkg) (port : TlbHome) (cid : Nat) (elastic : Bool) (va : Nat) (n : Need) : Pkg × Trans :=
  match p.ctxs.get? cid with
  | some c =>
    match p.cached port cid c.vf (va / 65536) with
    | some t => p.useCached port cid c t (t.leafAt (va / 65536)) elastic va (va / 65536) n
    | none => p.walk port cid elastic va n
  | none => p.walk port cid elastic va n

/-- The twin table's read-only range (R111): its physical location. -/
def Pkg.twinTable (p : Pkg) (cid va : Nat) : Option Nat :=
  match p.ctxs.get? cid with
  | some c =>
    let t := crTwinTable c.record
    if t ≤ va && va < t + 8192 then some (c.twinPa + (va - t)) else none
  | none => none

/-- Translate an address of a context under a lease (R154, R155). -/
def Pkg.translate (p : Pkg) (port : TlbHome) (cid : Nat) (lease : List LeaseRange) (va : Nat) (n : Need) : Pkg × Trans :=
  match p.twinTable cid va with
  | some pa => (p, if n.write || n.exec then .permission (if n.write then 4 else 5) else .ok (.hbm pa))
  | none =>
    match leaseRange? lease va with
    | none => (p, .outside)
    | some r => p.translateIn port cid r.elastic va n

/-! ### Accesses of several lanes (R154) -/

/-- One access to check, within one page: its lane and its address. -/
structure Want where
  lane : Nat
  va : Nat
  deriving DecidableEq, Repr

/-- The outcome of the checks of one instruction's global accesses. -/
inductive Checked where
  /-- every access translated; the locations in the order of the accesses -/
  | ok (locs : List Loc)
  | outside (lane va : Nat)
  /-- Permission or Key Alias of the lowest faulting lane, and all the faulting lanes, the lowest first -/
  | trap (lanes : List Nat) (va cause reason : Nat) (extra0 extra1 : Nat)
  | elastic (lane va : Nat)
  deriving DecidableEq, Repr

/-- Translate every access, each for its lane's requester; results in order. -/
def Pkg.translateAll (p : Pkg) (port : Nat → TlbHome) (cid : Nat) (lease : List LeaseRange) (n : Need) :
    List Want → Pkg × List (Want × Trans)
  | [] => (p, [])
  | w :: rest =>
    let (p, t) := p.translate (port w.lane) cid lease w.va n
    let (p, ts) := p.translateAll port cid lease n rest
    (p, (w, t) :: ts)

/-- What a failed translation raises: lane, address, cause, reason and the extra words (R147, R154). -/
def trapOf (w : Want) : Trans → Option (Nat × Nat × Nat × Nat × Nat × Nat)
  | .permission r => some (w.lane, w.va, 0x07, r, 0, 0)
  | .keyAlias k t => some (w.lane, w.va, 0x08, 0, k, t)
  | .outside => some (w.lane, w.va, 0x07, 1, 0, 0)
  | .ok _ | .elastic _ => none

/-- The checks of R154, after alignment, over accesses in ascending lane order. The faulting lanes are those whose walks end in
Permission or Key Alias (R177, R206); cause, address and extra words are those of the lowest. -/
def Pkg.checkGlobal (p : Pkg) (port : Nat → TlbHome) (cid : Nat) (lease : List LeaseRange) (n : Need) (ws : List Want) :
    Pkg × Checked :=
  let inLease (va : Nat) := (p.twinTable cid va).isSome || (leaseRange? lease va).isSome
  match ws.find? (fun w => !inLease w.va) with
  | some w => (p, .outside w.lane w.va)
  | none =>
    let (p, ts) := p.translateAll port cid lease n ws
    match ts.filterMap (fun e => trapOf e.1 e.2) with
    | first :: rest =>
      -- Key Alias goes before Permission in the lane where both occur
      let pick := ((first :: rest).find? fun e => e.1 == first.1 && e.2.2.1 == 0x08).getD first
      (p, .trap ((first :: rest).map (·.1)).eraseDups pick.2.1 pick.2.2.1 pick.2.2.2.1 pick.2.2.2.2.1 pick.2.2.2.2.2)
    | [] =>
      match ts.findSome? (fun e => match e.2 with | .elastic va => some (e.1.lane, va) | _ => none) with
      | some g => (p, .elastic g.1 g.2)
      | none => (p, .ok (ts.map fun e => match e.2 with | .ok l => l | _ => .hbm 0))

/-- The invalidation of a virtual range, or of a whole context for 0 pages (R150). -/
def Pkg.dropTlb (p : Pkg) (cid first pages : Nat) : Pkg :=
  { p with tlb := p.tlb.filter fun t =>
      t.ctx != cid || (pages != 0 && (t.vpn + t.span ≤ first || first + pages ≤ t.vpn)) }

end Sys2Proof.Machine
end

