-- ==== Sys2Proof/Machine/Ops.lean ====
section
/-!
DEFINITION. The shared operations of execution: what an instruction's meaning answers, the checks that come before it
(R179), its interlocks (R170, R239, R301), the dovetail reads (R61 to R65), taking a trap and returning from one (R52,
R204 to R206), ending a launch tree (R53, R158, R394), and the step of one instruction word.
-/
namespace Sys2Proof.Machine

/-- What a trap records besides the clause and slot (R206). -/
structure Trap where
  cause : Nat
  reason : Nat := 0
  lanes : List Nat
  addr : Nat := 0
  extra0 : Nat := 0
  extra1 : Nat := 0
  extra2 : Nat := 0
  deriving DecidableEq, Repr

/-- What the meaning of an instruction word answers. -/
inductive Eff where
  /-- its effect has taken place; the strand goes on after it -/
  | next (p : Pkg)
  /-- its effect has taken place and says where the strand stands -/
  | moved (p : Pkg)
  /-- it stops in place: nothing has happened (R169, R170) -/
  | hold
  /-- it parks the strand at this instruction (R51) -/
  | park (p : Pkg) (c : Park)
  /-- it traps at the boundary before it (R52) -/
  | trap (p : Pkg) (t : Trap)
  /-- it ends the launch tree with a status (R158, R266) -/
  | endTree (p : Pkg) (status addr : Nat)

namespace Pkg

/-! ### Context memory as Amiah and the engines read and write it -/

/-- Every lease registered for a context (R347, R365). -/
def allLeases (p : Pkg) (cid : Nat) : List LeaseRange :=
  ((p.ctxs.get? cid).map fun c => c.leases.flatMap (·.2)).getD []

/-- The virtual function of a context (R361). -/
def vfOf (p : Pkg) (cid : Nat) : Nat := ((p.ctxs.get? cid).map (·.vf)).getD 0

/-- The requester that Amiah and the engines are for a context's translations. -/
def enginePort (p : Pkg) (cid : Nat) : TlbHome := .engine (p.vfOf cid)

/-- Translate an address of a context without a lease check, for Amiah's own reads and writes (R363). -/
def amiahLoc (p : Pkg) (cid va : Nat) (n : Need) : Pkg × Option Loc :=
  match p.twinTable cid va with
  | some pa => (p, if n.write then none else some (.hbm pa))
  | none =>
    match p.translateIn (p.enginePort cid) cid false va n with
    | (p, .ok l) => (p, if p.isBad l && n.read then none else some l)
    | (p, _) => (p, none)

/-- The parts of a byte range that lie in one page each: address and length. -/
def pageParts (va n : Nat) : List (Nat × Nat) :=
  (List.range ((va + n + 65535) / 65536 - va / 65536)).map fun i =>
    let a := max va ((va / 65536 + i) * 65536)
    (a, min (va + n) ((va / 65536 + i + 1) * 65536) - a)

/-- Where each part of a byte range of a context lies for Amiah; none where one is not accessible. -/
def amiahLocs (cid : Nat) (n : Need) : Pkg → List (Nat × Nat) → Pkg × Option (List (Loc × Nat))
  | p, [] => (p, some [])
  | p, (va, k) :: rest =>
    match p.amiahLoc cid va n with
    | (p, none) => (p, none)
    | (p, some l) =>
      let (p, r) := amiahLocs cid n p rest
      (p, r.map fun ls => (l, k) :: ls)

/-- Read bytes of a context for Amiah, page by page: none where an address is not readable. -/
def amiahRead (p : Pkg) (cid va n : Nat) : Pkg × Option (List Byte) :=
  match amiahLocs cid needRead p (pageParts va n) with
  | (p, some ls) =>
    let r := ls.foldl (fun (a : Pkg × List Byte) l => let (p, b) := a.1.readLoc none 0 l.1 l.2; (p, a.2 ++ b)) (p, [])
    (r.1, some r.2)
  | (p, none) => (p, none)

/-- Write bytes of a context for Amiah: false, with nothing written, where an address is not writable. -/
def amiahWrite (p : Pkg) (cid va : Nat) (data : List Byte) : Pkg × Bool :=
  match amiahLocs cid needWrite p (pageParts va data.length) with
  | (p, some ls) =>
    ((ls.foldl (fun (a : Pkg × List Byte) l => (a.1.writeLoc none false l.1 (a.2.take l.2), a.2.drop l.2)) (p, data)).1, true)
  | (p, none) => (p, false)

/-- Append a 32-byte record to a queue whose descriptor has the layout of R84 at a virtual address (R366): a full
queue counts the record and drops it. -/
def appendRecord (p : Pkg) (cid va : Nat) (record : List Byte) : Pkg :=
  match p.amiahRead cid va 32 with
  | (p, some d) =>
    let base := leNat (d.take 8)
    let cap := leNat ((d.drop 8).take 4)
    let count := leNat ((d.drop 16).take 8)
    let (p, _) := p.amiahWrite cid (va + 16) (leBytes 8 (count + 1))
    if count < cap then (p.amiahWrite cid (base + record.length * count) record).1
    else (p.amiahWrite cid (va + 24) [(d.getD 24 0) ||| 2]).1
  | (p, none) => p

/-- A fault record (R366). -/
def faultRecord (kind ring field ctx packet bound value : Nat) : List Byte :=
  [BitVec.ofNat 8 kind, BitVec.ofNat 8 ring, BitVec.ofNat 8 field, BitVec.ofNat 8 ctx, 0, 0, 0, 0]
    ++ leBytes 8 packet ++ leBytes 8 bound ++ leBytes 8 value

/-- Append a fault record to the fault queue of a context (R366). -/
def reportFault (p : Pkg) (cid kind ring field packet bound value : Nat) : Pkg :=
  match p.ctxs.get? cid with
  | some c => p.appendRecord cid (crFaultQueue c.record) (faultRecord kind ring field cid packet bound value)
  | none => p

/-! ### Where a strand stands -/

def launchOf (p : Pkg) (st : Strand) : Option Launch := p.launches.get? st.launch
def treeKeyOf (p : Pkg) (st : Strand) : Nat := ((p.launchOf st).map (·.tree)).getD 0
def leaseOf (p : Pkg) (st : Strand) : List LeaseRange := ((p.launchOf st).map (·.lease)).getD []
def descOf (p : Pkg) (st : Strand) : BitVec 512 := ((p.launchOf st).map (·.desc)).getD 0
def bentOf (p : Pkg) (st : Strand) : Option Bent := p.bents.get? st.bent

/-- Does a cluster execute the work of a context: it is the occupant, it has had its start, and the cluster is not
halted (R24, R384)? -/
def runsOn (p : Pkg) (cluster cid : Nat) : Bool :=
  let c := p.clusters.get cluster {}
  c.occupant == some cid && c.started && !c.halted

/-- Does a strand's cluster execute the work of its context? -/
def isResident (p : Pkg) (sid : Nat) : Bool := p.runsOn (sidCluster sid) (sidCtx sid)

/-- Has a context reached its energy quota in this interval (R402)? -/
def isExhausted (p : Pkg) (cid : Nat) : Bool := ((p.ctxs.get? cid).map (·.exhausted)).getD false

/-- A strand parks for energy: cause 0x10, counted in its context and in the context header of the save area (R377, R390,
R403). -/
def energyPark (p : Pkg) (sid : Nat) : Pkg :=
  let p := (p.updStrand sid fun st => { st with park := some .energy }).updCtx (sidCtx sid) fun c =>
    { c with parks := (c.parks + 1) % 2 ^ 32 }
  match p.ctxs.get? (sidCtx sid) with
  | some c => p.writeL2 none (c.saveArea + 28) (leBytes 4 c.parks)
  | none => p

/-! ### Ending a tree (R53, R158, R358, R394) -/

/-- Record a failure status of a tree: the first one counts (R39). -/
def failTree (p : Pkg) (k status : Nat) : Pkg :=
  p.updTree k fun t => { t with status := some (t.status.getD status) }

/-- The launches of a tree. -/
def treeLaunches (p : Pkg) (k : Nat) : List Nat := (p.launches.filter fun e => e.2.tree == k).map (·.1)

/-- End a launch tree with a status: its strands stop at an instruction boundary and are discarded with their
allocations and dovetail state, its queued children are discarded, the counter is 0, and the engine entries that its
strands posted fail. `own` is an entry whose own access left the lease. What an ACCST has stored stays stored (R134). The
status of the termination is recorded first, or a status was recorded before it: that of a transfer which the termination
discards (REMOTE_FAILURE, R394) is never the first failure of its tree (R39). -/
def endTree (p : Pkg) (k status : Nat) (own : Option Nat := none) : Pkg :=
  let ls := p.treeLaunches k
  let p := p.revealBents fun b => ls.contains b.launch
  let inTree (sid : Nat) : Bool := ((p.strands.get? sid).map fun st => ls.contains st.launch).getD false
  let p' := p.failTree k status
  let left := p'.bents.filter fun e => !ls.contains e.2.launch
  { p' with
    trees := p'.trees.update k fun t => { t with killed := true, counter := 0 }
    cur := match p'.cur with | some s => if inTree s then none else some s | none => none
    strands := p'.strands.filter fun e => !ls.contains e.2.launch
    bents := left
    clusters := p'.clusters.mapVals fun c x =>
      if (x.occupant.map fun cid => left.any fun b => b.2.ctx == cid && b.2.cluster == c).getD true then x
      else { x with occupant := none, started := false, halted := x.halted && x.pending.isNone, pending := none }
    launches := p'.launches.mapVals fun i l =>
      if ls.contains i then { l with ended := true, liveBents := 0, dovetail := [] } else l
    ctxs := p'.ctxs.mapVals fun _ c => { c with spawnQueue := c.spawnQueue.filter fun q => q.tree != k }
    cores := p'.cores.mapVals fun _ c => { c with watches := c.watches.filter fun w => !inTree w.2.owner }
    sent := p'.sent.filter fun s => !(s.queued && s.sid.any inTree)
    entries := AMap.mapVals (p'.entries.filter fun e => !(e.2.tree == some k && e.2.chain.isNone)) fun i e =>
      if e.tree == some k && e.status.isNone then { e with status := some (if own == some i then 11 else 13) } else e }

/-- An access outside the lease (R158, R377): the tree ends and the context's fault queue receives a record. -/
def endOutside (p : Pkg) (k addr : Nat) (own : Option Nat := none) : Pkg :=
  match p.trees.get? k with
  | some t => (p.endTree k 3 own).reportFault t.ctx 7 0xFF 0xFF t.seedSeq.toNat 0 addr
  | none => p

/-! ### Traps (R52, R204 to R206) -/

/-- The words of a trap record (R206). -/
def trapWords (t : Trap) (clause : DWord) (slot : Nat) : AMap Word :=
  let m := laneMask t.lanes
  let w (n x : Nat) : Nat × Word := (n, BitVec.ofNat 32 x)
  [w 0 (t.cause + 256 * t.reason + 65536 * slot), w 1 clause.toNat, w 2 (clause.toNat / 2 ^ 32),
   w 3 m.toNat, w 4 (m.toNat / 2 ^ 32), w 5 (m.toNat / 2 ^ 64), w 6 (t.lanes.head?.getD 0),
   w 7 t.addr, w 8 (t.addr / 2 ^ 32), w 9 t.extra0, w 10 t.extra1, w 11 t.extra2]

/-- Taking a trap: the record is written, the frame saved and the handler entered at its clause header with guard
enable cleared and em unchanged (R52, R205). A fault inside the handler ends the tree with HANDLER_FAULT (R53). The
frame's slot is where the strand stands: for a clause that cannot be entered that is the slot at which it would have been
entered, while the record names the offending word (R171): the model's choice (log entry 68). -/
def takeTrap (p : Pkg) (sid : Nat) (t : Trap) (recordSlot : Nat) : Pkg :=
  match p.strand? sid with
  | none => p
  | some st =>
    if st.handler then p.endTree (p.treeKeyOf st) 4
    else
      let entry := ((p.ctxs.get? (sidCtx sid)).map fun c => crHandler c.record).getD 0
      p.setStrand sid { st with
        trapRecord := trapWords t st.clause recordSlot
        frame := some { clause := st.clause, slot := st.slot, temps := st.t, mode := st.mode, em := st.em }
        handler := true
        mode := st.mode &&& ~~~1
        clause := BitVec.ofNat 64 entry
        slot := 0, t := [], words := [], executing := false, jump := none }

/-- Return from the handler (R205): the frame's temporaries and mode come back, em takes the frame's words without
the bits of absent lanes, and execution continues at a clause and slot. -/
def returnFrom (p : Pkg) (sid : Nat) (st : Strand) (clause : DWord) (slot : Nat) (fresh : Bool) : Pkg :=
  match st.frame with
  | none => p
  | some f =>
    p.setStrand sid { st with
      t := if fresh then [] else f.temps
      mode := f.mode
      em := f.em &&& st.present
      handler := false, frame := none, trapRecord := []
      clause := clause, slot := slot, words := [], executing := false, jump := none }

end Pkg

/-- The strand after the instruction at its slot: the next one, or the end of the clause, where a control transfer
takes effect and the temporaries end (R168, R172). A strand that was saved in the middle of its clause holds no words:
its slot alone moves on, and the clause is fetched again (R173). -/
def Strand.advance (st : Strand) : Strand :=
  if st.slot < st.count || !st.executing then { st with slot := st.slot + 1 }
  else { st with slot := 0, words := [], executing := false, t := [], clause := st.jump.getD st.after, jump := none }

namespace Pkg

/-! ### Dovetail reads (R60, R61, R65) -/

/-- The dovetail state of strand `sn` of a launch. -/
def dove (p : Pkg) (launch sn : Nat) : Dovetail :=
  ((p.launches.get? launch).map fun l => l.dovetail.get sn {}).getD {}

/-- A strand's live declaration of a channel (R60); a truss strand declares none (R58). -/
def channel (p : Pkg) (st : Strand) (c : Nat) : Option Channel :=
  if st.truss then none
  else
    match (p.dove st.launch st.sn).chans.get? c with
    | some ch => if ch.ended then none else some ch
    | none => none

/-- What a read of dv_c in a lane delivers. -/
inductive DvRead where
  | value (x : Word) (dx : Bool)
  | misuse
  | wait
  deriving DecidableEq, Repr

/-- A boundary read of lane `j`, below the distance (R65). -/
def boundaryRead (p : Pkg) (st : Strand) (c : Nat) (ch : Channel) (j : Nat) : DvRead :=
  let pred := p.dove st.launch (st.sn - 1)
  match pred.chans.get? c with
  | none => if pred.ended then .misuse else .wait
  | some pc =>
    if pc.vs != ch.vs || pc.dist != ch.dist || pc.self != ch.self then .misuse
    else
      match pc.rounds.get? (ch.count + 1) with
      | some r => .value (r.getD j 0) false
      | none => if pc.ended || pred.ended then .value (pc.final.getD j 0) true else .wait

/-- The dovetail operand dv_c in lane `j` (R61). -/
def readDv (p : Pkg) (st : Strand) (c j : Nat) : DvRead :=
  match p.channel st c with
  | none => .misuse
  | some ch =>
    if ch.dist ≤ j then .value (st.reg ch.vs (j - ch.dist)) false
    else if st.sn == 0 then .value (ch.defaults.get j 0) false
    else p.boundaryRead st c ch j

/-- The lanes in which a source is resolved: Low() alone for a uniform source, else the present lanes (R65, R270), and
Low() too where the destination is a mask word, which takes Low()'s value (R27). -/
def readLanes (st : Strand) (alone emDst : Bool) : List Nat :=
  if alone then [st.low] else (List.range 96).filter fun j => st.isPresent j || (emDst && j == st.low)

/-! ### Interlocks (R170, R239, R243, R301) -/

/-- Shape registers that an instruction uses (R301). -/
def shapesUsed (op d a b : Nat) : List Nat :=
  match op with
  | 0xB0 | 0xB1 | 0xB2 | 0xB4 => [d]
  | 0xB3 => [a]
  | 0xB5 | 0xB6 | 0xB7 | 0xB8 => [d, a, b]
  | 0xB9 | 0xBA | 0xBB | 0xBC | 0xBD => [d, a]
  | 0xE0 | 0xE1 | 0xE2 => [a, b]
  | 0xE4 => [a]
  | 0xE5 => [d]
  | _ => []

/-- Does an outstanding operation hold a shape register? -/
def opHoldsShape (k : OpKind) (sh : Nat) : Bool :=
  match k with
  | .shapeLoad s _ => s == sh
  | .sweep s => s.shD == sh || s.shA == sh || s.shB == sh
  | _ => false

/-- Does an outstanding operation still have flags to set in cf (R239, R273, R294, R305)? -/
def opSetsCf (k : OpKind) : Bool :=
  match k with
  | .regs .. | .sweep _ | .actLoad .. => true
  | _ => false

/-- Does an ACTLD of some strand of the core, past its step 2, write a slot (R243)? -/
def slotLoading (p : Pkg) (sid slot : Nat) : Bool :=
  p.strands.any fun e => sidCk e.1 == sidCk sid && e.2.ops.any fun o =>
    match o.kind with | .actLoad s _ => s == slot | _ => false

/-- The dovetail forms, which act once for the strand whatever em and the guard hold (R59, R64, R67). -/
def isDovetail (op : Nat) : Bool := op == 0x6D || op == 0x6E || op == 0x6F

/-- The forms that act once for the strand and take no value by lane: they read neither em nor the guard. -/
def readsNoLane (op : Nat) : Bool :=
  isDovetail op || (0xA8 ≤ op && op ≤ 0xAC) || (0xE0 ≤ op && op ≤ 0xE5)
    || [0xB3, 0xB4, 0xCD, 0xCE, 0xD7, 0xD8, 0xDA, 0xDD, 0xDF, 0xE8, 0xE9].contains op

/-- The forms that read em alone: their sources come from Low(), whatever the guard holds (R175, R177, R241), their flags go
to Low() (R302, R305), or, as EXIT and RTE do, they write em (R200, R205). -/
def readsEmAlone (op : Nat) : Bool :=
  (0xB0 ≤ op && op ≤ 0xB2) || (0xB5 ≤ op && op ≤ 0xBD) || (0xC0 ≤ op && op ≤ 0xC4) || (0xC7 ≤ op && op ≤ 0xCC)
    || (0xD0 ≤ op && op ≤ 0xD6) || [0x5A, 0xD9, 0xDB, 0xDC, 0xDE].contains op

/-- The forms that change cf without naming it: C (R210), the IEEE flags (R77), OOR (R271), SG and NP (R294), and the capture
bits of sweeps and of ACCST (R83). ADDC and SUBB also read C. -/
def setsCf (op : Nat) : Bool :=
  [0x00, 0x01, 0x06, 0x07, 0x0D, 0x27, 0x28, 0x2B, 0x68, 0x69, 0x6A, 0xE5].contains op
    || (0x30 ≤ op && op ≤ 0x63 && op != 0x3C && op != 0x5A) || (0x72 ≤ op && op ≤ 0x7D && op != 0x78)
    || (0xB5 ≤ op && op ≤ 0xBD)

/-- Register codes that an instruction names: its operands', and the source registers `vss` of the channels that it reads or
publishes (R170). -/
def codesNamed (st : Strand) (f : Form) (d a b : Nat) (vss : List Nat) : List Nat :=
  let z := modeSizes st.mode
  f.reads z d a b ++ f.writes z d a b ++ vss

/-- The enabled guard register, of a form that heeds it (R177). -/
def guardUsed (st : Strand) (op : Nat) : List Nat :=
  if readsNoLane op || readsEmAlone op || !modeGuardOn st.mode then [] else [modeGuardReg st.mode]

/-- Register codes that an instruction reads or writes: those that it names, and for a form that heeds them the mask words,
the enabled guard register and cf (R27, R170, R177); `dx` where a dovetail read of it sets DX (R65). -/
def codesUsed (st : Strand) (f : Form) (op d a b : Nat) (vss : List Nat) (dx : Bool) : List Nat :=
  codesNamed st f d a b vss
    ++ (if readsNoLane op then [] else [125, 126, 127])
    ++ guardUsed st op
    ++ (if setsCf op || dx then [123] else [])

/-- Must an instruction stop in place for an outstanding operation of its strand? DVPUB waits for a write of its channel's
vs (R276); that DVEND, which captures the same values, waits too is the model's choice (log entry 69). -/
def interlocked (p : Pkg) (sid : Nat) (st : Strand) (f : Form) (op d a b : Nat) (vss : List Nat) (dx : Bool) : Bool :=
  let used := codesUsed st f op d a b vss dx
  st.ops.any (fun o => o.dests.any used.contains)
    || ((codesNamed st f d a b vss).contains 123 && st.ops.any fun o => opSetsCf o.kind)
    || (shapesUsed op d a b).any (fun sh => st.ops.any fun o => opHoldsShape o.kind sh)
    || ((op == 0x59 || op == 0xBA) && p.slotLoading sid (modeActSlot st.mode))

/-- The failure that an instruction observes, that of the oldest operation first (R256): it touches a destination of the
failed operation or, of a sweep, it names cf or one of the sweep's shape registers (R301, R305, R307), or it is a REL, FENCE
or ACQ. -/
def observedFailure (st : Strand) (f : Form) (op d a b : Nat) (vss : List Nat) (dx : Bool) : Option OpFailure :=
  let touched (x : OpFailure) : List Nat :=
    if x.shapes.isEmpty then codesUsed st f op d a b vss dx else codesNamed st f d a b vss
  leastBy (·.op) (st.failures.filter fun x => op == 0xA8 || op == 0xA9 || op == 0xAA
    || x.regs.any (fun c => (touched x).contains c) || x.shapes.any fun s => (shapesUsed op d a b).contains s)

/-- The trap that reports a failed operation (R256, R307). -/
def failureTrap (x : OpFailure) : Trap :=
  { cause := x.cause, reason := x.reason, lanes := (List.range 96).filter fun j => x.lanes.getLsbD j,
    addr := x.addr.toNat, extra0 := x.extra0.toNat, extra1 := x.extra1.toNat, extra2 := x.extra2.toNat }

/-! ### The checks before an instruction (R179) -/

/-- What an instruction executes with. -/
structure Exe where
  p : Pkg
  sid : Nat
  st : Strand
  form : Form
  op : Nat
  d : Nat
  a : Nat
  b : Nat
  env : Env
  /-- channels that ripple, with their distance (R62) -/
  ripple : List (Nat × Nat)
  /-- lanes whose dovetail read was satisfied by an end (R65) -/
  dx : List Nat

/-- The forms that may ripple (R62). -/
def mayRipple (op : Nat) : Bool := [0x00, 0x05, 0x08, 0x0A, 0x1F, 0x30, 0x33, 0x34, 0x35].contains op

/-- Why an instruction is not executed: what it does instead, or a failed operation that it observes (R256), which goes after
the conditions that only its execution shows (R179). -/
inductive Barred where
  | now (e : Eff)
  | failed (x : Exe) (f : OpFailure)

/-- The dovetail channels that an instruction's sources name. -/
def dvSources (f : Form) (d a b : Nat) : List Nat :=
  let one (o : Opd) (c : Nat) := if 108 ≤ c && c < 112 && o.reads maxSizes c != [] then [c - 108] else []
  one f.a a ++ one f.b b ++ one f.d d

/-- The forms in which a mask word that is the destination takes no value of an absent lane: those whose result is formed from
the contributing lanes (VOTE to FIRSTL, R270), and the loads and atomics, which perform nothing in a lane that is absent
(R251, R259, log entry 44). -/
def combinesLanes (op : Nat) : Bool := (0x64 ≤ op && op ≤ 0x6C) || (0x80 ≤ op && op ≤ 0x91) || (0xA0 ≤ op && op ≤ 0xA7)

/-- The lanes in which an instruction reads each dovetail channel that its sources name. -/
def dvNeeds (st : Strand) (f : Form) (op d a b : Nat) : List (Nat × List Nat) :=
  let emDst := !combinesLanes op && (f.writes maxSizes d a b).any fun c => 125 ≤ c
  let one (o : Opd) (c : Nat) (alone : Bool) :=
    if 108 ≤ c && c < 112 && o.reads maxSizes c != [] then [(c - 108, readLanes st alone emDst)] else []
  one f.a a (uniformA op) ++ one f.b b (uniformB op) ++ one f.d d false

/-- The channel that a dovetail form names (R275, R276). -/
def dvNamed (op b : Nat) : Option Nat :=
  if op == 0x6D then some (b / 32) else if op == 0x6E || op == 0x6F then some b else none

/-- Dovetail Misuse of an instruction: the channel it names (R58 to R60, R64, R67, R179). -/
def dvMisuse (p : Pkg) (st : Strand) (f : Form) (op d a b : Nat) : Option Nat :=
  let cs := dvSources f d a b
  if !ldDovetail (p.descOf st) then (cs.head?).or (dvNamed op b)
  else
    match dvNamed op b with
    | some c =>
      let known := (p.dove st.launch st.sn).chans.get? c
      if op == 0x6D then (if known.isSome then some c else none)
      else if (p.channel st c).isNone then some c else none
    | none =>
      ((dvNeeds st f op d a b).find? fun n =>
        (p.channel st n.1).isNone || n.2.any fun j => p.readDv st n.1 j == .misuse).map (·.1)

/-- The source registers `vs` of the live channels that an instruction reads or names (R170, R270, R276). -/
def channelSources (p : Pkg) (st : Strand) (f : Form) (op d a b : Nat) : List Nat :=
  (dvSources f d a b ++ (dvNamed op b).toList).filterMap fun c => (p.channel st c).map (·.vs)

/-- Is the form one whose truss pair names a core scratchpad by its value (R99)? -/
def trussPair (st : Strand) (op : Nat) : Bool := st.truss && (op == 0x82 || op == 0x83 || op == 0xA1)

/-- Is the value of the pair illegal (R99, R265)? -/
def trussPairIllegal (p : Pkg) (st : Strand) (op a : Nat) : Bool :=
  trussPair st op && st.isOn 0 && 4 ≤ (st.get p.fresh (a + 1) 0).toNat

/-- Where a dovetail misuse meets an Illegal Operand that only the value of an operand shows, the Illegal Operand goes before
it (R179). The one form in which the two can meet is a truss STK of a dv code. The instruction first waits for its pair. -/
def misuseOf (p : Pkg) (sid : Nat) (st : Strand) (f : Form) (op d a b c : Nat) : Eff :=
  if trussPair st op && p.interlocked sid st f op d a b [] false then .hold
  else if p.trussPairIllegal st op a then .trap p { cause := 0x03, lanes := st.onLanes }
  else .trap p { cause := 0x0D, lanes := st.onLanes, extra0 := c }

/-- The trap of an observed failure, which is then no longer outstanding (R256). -/
def failureEff (p : Pkg) (sid : Nat) (st : Strand) (f : OpFailure) : Eff :=
  .trap (p.setStrand sid { st with failures := st.failures.filter (· != f) }) (failureTrap f)

/-- Is an outcome one of the conditions that go before an observed failure: items 1 to 6 of R179, the access outside the lease
among them (R154)? -/
def goesBefore (e : Eff) : Bool :=
  match e with
  | .trap _ t => t.cause ≤ 0x09 || t.cause == 0x0D || (t.cause == 0x0E && t.extra0 != 5)
  | .endTree _ status _ => status == 3
  | _ => false

/-- The checks in the order of R179, then the interlocks, the failures observed and the dovetail park. A failure is observed
before the park, whose values have yet to come, and the conditions that those values might show are then not met (log entry
95). The record of a trap that no single lane causes (Illegal Instruction, Illegal Operand, Privilege, Software TRAP, Dovetail
Misuse) names the lanes with On(j): R206 says no more than 'the lanes', so that is the model's choice (log entry 87). -/
def gate (p : Pkg) (sid : Nat) (st : Strand) (op d a b : Nat) : Except Barred Exe :=
  let here (cause : Nat) : Barred := .now (.trap p { cause := cause, lanes := st.onLanes })
  match formOf op b (modeElem st.mode) st.truss with
  | none => .error (here 0x01)
  | some f =>
    if (if st.truss then !f.truss else !f.vector) then .error (here 0x01)
    else if privileged op b && !st.handler then .error (here 0x04)
    else
      let cs := dvSources f d a b
      let z := modeSizes st.mode
      let ripple := cs.filterMap fun c =>
        match p.channel st c with
        | some ch => if ch.self && (f.writes z d a b).contains ch.vs then some (c, ch.dist) else none
        | none => none
      if !legalOperands f op d a b st.nregs st.litCount st.mode
          || (op == 0x6D && 108 ≤ a && a < 112)
          || (!ripple.isEmpty && ldDovetail (p.descOf st) && !mayRipple op) then
        .error (here 0x03)
      else
        match p.dvMisuse st f op d a b with
        | some c => .error (.now (p.misuseOf sid st f op d a b c))
        | none =>
          let named := p.channelSources st f op d a b
          let needs := dvNeeds st f op d a b
          let dx := needs.flatMap fun n => n.2.filter fun j =>
            match p.readDv st n.1 j with | .value _ true => true | _ => false
          let waits := needs.any fun n => n.2.any fun j => p.readDv st n.1 j == .wait
          let dvv := fun c j => match p.readDv st c j with | .value x _ => x | _ => 0
          let x : Exe := { p := p, sid := sid, st := st, form := f, op := op, d := d, a := a, b := b,
                           env := ⟨st, p.fresh, dvv⟩, ripple := ripple, dx := dx }
          if p.interlocked sid st f op d a b named !dx.isEmpty then .error (.now .hold)
          else
            match observedFailure st f op d a b named !dx.isEmpty with
            | some y => .error (if waits then .now (p.failureEff sid st y) else .failed x y)
            | none => if waits then .error (.now (.park p (.dovetail needs))) else .ok x

/-! ### The step of one instruction word -/

/-- The strand as it leaves its clause, at a cycle count of its cluster: the yield bit of the clause starts a yield of at most
16 cycles (R166). -/
def leaveClause (st next : Strand) (cycle : Nat) : Strand :=
  if (st.header.map (·.yielding)).getD false then { next with yieldUntil := some (cycle + 16) } else next

/-- The strand after its instruction. -/
def passInstr (st : Strand) (cycle : Nat) : Strand :=
  let next := st.advance
  if next.executing then next else leaveClause st next cycle

/-- Does a park end with the strand going on after its instruction, which is not executed again (R51)? -/
def parkPasses (k : Park) : Bool :=
  match k with
  | .lcwait _ | .waitseq .. | .pollq .. | .waitdep | .trapPark => true
  | _ => false

/-- Set cf.DX in the On lanes whose boundary read was satisfied by an end (R65). Where the instruction's destination is cf
itself, R175 has the whole word come from the result and R65 has DX set: here DX is set in the word after the write of a short
form, while a result that lands later takes the whole word, DX with it: the model's choice (log entry 88). -/
def markDx (st : Strand) (dx : List Nat) (s : Strand) : Strand :=
  if dx.isEmpty then s else s.orFlags (fun j => st.isOn j && dx.contains j) fun _ => cfDX

/-- Cycles of a cluster's clock since package reset (R21, R207). -/
def cycleOf (p : Pkg) (cluster : Nat) : Nat := p.phases.get cluster 0 / 1000

/-- Carry out what a meaning answered; DX is set after the write of the destination (`markDx`, log entry 88). -/
def settle (p : Pkg) (sid : Nat) (st : Strand) (dx : List Nat) (e : Eff) : Pkg :=
  match e with
  | .next q => q.updStrand sid fun s => passInstr (markDx st dx s) (q.cycleOf (sidCluster sid))
  | .moved q => q
  | .hold => p
  | .park q c => q.updStrand sid fun s => { (if parkPasses c then markDx st dx s else s) with park := some c }
  | .trap q t => q.takeTrap sid t st.slot
  | .endTree q status addr =>
    if status == 3 then q.endOutside (p.treeKeyOf st) addr
    else (q.say (.errorEvent addr)).endTree (p.treeKeyOf st) status

/-- One instruction word of a strand. -/
def runWord (p : Pkg) (sid : Nat) (st : Strand) (op : Nat) (d a b : Field) (body : Exe → Eff) : Pkg :=
  match p.gate sid st op d.toNat a.toNat b.toNat with
  | .ok x => p.settle sid st x.dx (body x)
  | .error (.now e) => p.settle sid st [] e
  | .error (.failed x f) =>
    let e := body x
    p.settle sid st [] (if goesBefore e then e else p.failureEff sid st f)

end Pkg

/-- The meaning of an instruction word with a given body: it is executed by the strand that the package is running. -/
def execWord (op : Nat) (d a b : Field) (body : Pkg.Exe → Eff) (s : State) : Host.Outcome State Fault Refusal :=
  match s.pkg.cur with
  | none => .fault .noStrandRunning
  | some sid =>
    match s.pkg.strand? sid with
    | none => .fault .noStrandRunning
    | some st => .next { s with pkg := s.pkg.runWord sid st op d a b body }

/-- Has the measured boot run to its end (R408)? Until then the package answers only on the management interface. -/
def State.operational (s : State) : Bool := s.plat.booted == 4

/-- The meaning of an event of the package that changes only its executing part. -/
def execPkg (f : Pkg → Pkg) (s : State) : Host.Outcome State Fault Refusal :=
  .next (if s.operational then { s with pkg := f s.pkg } else s)

/-! ### Operations -/

/-- The header of the strand's clause names this flag for flag-A operations, or for flag-B ones (R169). -/
def Strand.flagOf (st : Strand) (isB : Bool) : Nat :=
  match st.header with
  | some h => if isB then h.flagB else h.flagA
  | none => 15

namespace Pkg

/-- Outstanding-transaction entries that a strand holds (R116). -/
def heldEntries (st : Strand) : Nat := (st.ops.filter (·.entry)).length

/-- Entries beyond the guaranteed eight that the strands of a core hold. -/
def sharedEntries (p : Pkg) (sid : Nat) : Nat :=
  (p.strands.filter fun e => sidCk e.1 == sidCk sid).foldl (fun n e => n + (heldEntries e.2 - 8)) 0

/-- Can a strand obtain an entry (R116)? -/
def canEnter (p : Pkg) (sid : Nat) (st : Strand) : Bool :=
  heldEntries st < 8 || (heldEntries st < 32 && p.sharedEntries sid < 128)

/-- Add an outstanding operation to a strand. -/
def addOp (p : Pkg) (sid flag : Nat) (dests : List Nat) (entry : Bool) (k : OpKind) : Pkg :=
  let (n, p) := p.takeId
  p.updStrand sid fun st => { st with ops := st.ops ++ [{ id := n, flag := flag, dests := dests, entry := entry, kind := k }] }

/-- Issue a flag-A or flag-B operation that holds an entry: the strand parks where none is free (R116). -/
def issueOp (p : Pkg) (x : Exe) (dests : List Nat) (entry : Bool) (k : OpKind) : Eff :=
  if entry && !p.canEnter x.sid x.st then .park p .table
  else .next (p.addOp x.sid (x.st.flagOf (x.form.cls == .flagB)) dests entry k)

/-- The outcome of failed global checks as an effect (R154, R157, R158). Permission and Key Alias name every lane whose walk
faults with either of them, and the cause of the lowest (R206, log entry 43). -/
def failedCheck (p : Pkg) (c : Checked) : Eff :=
  match c with
  | .ok _ => .next p
  | .outside _ va => .endTree p 3 va
  | .trap lanes va cause reason e0 e1 =>
    .trap p { cause := cause, reason := reason, lanes := lanes, addr := va, extra0 := e0, extra1 := e1 }
  | .elastic lane va => .park p (.elastic lane va false)

/-- Misaligned in the lanes whose address is not a multiple of `n` (R101, R154). -/
def misaligned (p : Pkg) (n : Nat) (ws : List Want) : Option Eff :=
  match ws.filter fun w => w.va % n != 0 with
  | [] => none
  | bad => some (.trap p { cause := 0x05, lanes := bad.map (·.lane), addr := (bad.head?.map (·.va)).getD 0 })

/-- The checks of one instruction's global accesses, each aligned to `n` bytes (R154), then `k` on the locations. -/
def withGlobal (x : Exe) (n : Nat) (need : Need) (ws : List Want) (k : Pkg → List Loc → Eff) : Eff :=
  match x.p.misaligned n ws with
  | some e => e
  | none =>
    match x.p.checkGlobal (.lane x.sid) (sidCtx x.sid) (x.p.leaseOf x.st) need ws with
    | (p, .ok ls) => k p ls
    | (p, c) => p.failedCheck c

/-- The outstanding accesses of a strand, which REL waits for (R262): all but register results, pending trigger
additions and pending swaps. -/
def accessOps (st : Strand) : List Op :=
  st.ops.filter fun o => match o.kind with
    | .regs .. | .trigger | .publish _ => false
    | _ => true

/-- Is every earlier access of the strand performed (R262)? -/
def quiet (st : Strand) : Bool := (accessOps st).isEmpty

/-- Is every earlier store of the strand performed, as TFENCE and IFENCE wait for (R132, R133, R263)? -/
def storesDone (st : Strand) : Bool :=
  st.ops.all fun o => match o.kind with
    | .store .. | .atomic .. | .cas _ | .shapeStore .. | .sweep _ => false
    | .remote w _ => w != 7
    | _ => true

/-- The accesses that an engine command or queue operation issued now is released after (R128). -/
def releasedAfter (st : Strand) : List Nat := (accessOps st).map (·.id)

/-- Has every earlier load and atomic of the strand returned its value, as ACQ waits for (R261)? -/
def loadsDone (st : Strand) : Bool :=
  st.ops.all fun o => match o.kind with
    | .load .. | .atomic .. | .cas _ | .shapeLoad .. | .counterRead .. | .actLoad .. | .sweep _ => false
    | .remote w _ => w == 7
    | _ => true

end Pkg

end Sys2Proof.Machine
end

