-- ==== Sys2Proof/Machine/LaneOps.lean ====
section
/-!
DEFINITION. The execution of a form that computes each lane by itself (R178), of a ripple form (R62), and of their
flag-B counterparts (R169).
-/
namespace Sys2Proof.Machine

open Pkg (Exe)

/-- What a lane's computation reads: the values of a, b and d, a pair as 64 bits, the lane's C, the b field and the
mode. -/
structure LaneIn where
  x : DWord
  y : DWord
  z : DWord
  c : Bool
  n : Nat
  mode : DWord

def LaneIn.xw (i : LaneIn) : Word := i.x.setWidth 32
def LaneIn.yw (i : LaneIn) : Word := i.y.setWidth 32
def LaneIn.zw (i : LaneIn) : Word := i.z.setWidth 32
def LaneIn.round (i : LaneIn) : Nat := modeRound i.mode

/-- What a lane's computation gives: its result, C if it produces it, and the flags it sets. -/
structure LaneOut where
  val : DWord
  carry : Option Bool := none
  flags : Word := 0

/-- A 32-bit result. -/
def out32 (v : Word) (flags : Word := 0) : LaneOut := { val := v.setWidth 64, flags := flags }
def outCarry (v : Word) (c : Bool) : LaneOut := { val := v.setWidth 64, carry := some c }

/-- The number of registers that an operand field names. -/
def Opd.regs (o : Opd) : Nat :=
  match o with | .src n | .dst n | .upd n | .blk n => n | _ => 0

def Opd.isSource (o : Opd) : Bool :=
  match o with | .src _ | .upd _ => true | _ => false

/-- The value of a source operand in a lane. -/
def Env.opd (e : Env) (o : Opd) (c j : Nat) : DWord :=
  if o.isSource then BitVec.ofNat 64 (e.getN o.regs c j) else 0

namespace Pkg.Exe

/-- The inputs of a lane. -/
def input (x : Exe) (e : Env) (j : Nat) : LaneIn :=
  { x := e.opd x.form.a x.a j, y := e.opd x.form.b x.b j, z := e.opd x.form.d x.d j,
    c := (x.st.cfAt j).getLsbD 0, n := x.b, mode := x.st.mode }

/-- The lanes of a ripple instruction, in ascending order: `cur` holds the destination register as it stands (R62). -/
def rippleLanes (x : Exe) (f : LaneIn → LaneOut) : List Nat → AMap Word → AMap LaneOut
  | [], _ => []
  | j :: rest, cur =>
    let dv := fun c i =>
      match x.ripple.find? (fun r => r.1 == c) with
      | some r => if r.2 ≤ i then cur.get (i - r.2) 0 else x.env.dv c i
      | none => x.env.dv c i
    let o := f (x.input { x.env with dv := dv } j)
    let cur := if x.st.isOn j then cur.set j (o.val.setWidth 32) else cur
    (j, o) :: rippleLanes x f rest cur

/-- The result of each lane. -/
def results (x : Exe) (f : LaneIn → LaneOut) : Nat → LaneOut :=
  if x.ripple.isEmpty then fun j => f (x.input x.env j)
  else
    let m := x.rippleLanes f x.st.presentLanes (lanes fun j => x.st.reg x.d j)
    fun j => m.get j { val := 0 }

/-- Write the lanes' results, C and flags (R178, R210, R219). -/
def putResults (x : Exe) (r : Nat → LaneOut) : Strand :=
  let on := x.st.isOn
  let st := x.st.putN x.form.d.regs x.d on fun j => (r j).val
  let st := if x.d == 123 || (r x.st.low).carry.isNone then st
            else st.putCarry on fun j => (r j).carry.getD false
  st.orFlags on fun j => (r j).flags

/-- A short form that computes each lane by itself. -/
def short (f : LaneIn → LaneOut) (x : Exe) : Eff := .next (x.p.setStrand x.sid (x.putResults (x.results f)))

/-- The register writes of a lane's result, as they land later. -/
def laterWrites (x : Exe) (js : List Nat) (r : Nat → DWord) : List (Nat × Nat × Word) :=
  js.flatMap fun j => (List.range x.form.d.regs).map fun k => (x.d + k, j, (r j).extractLsb' (32 * k) 32)

/-- Issue a flag-B form: its values are computed now and land when it completes (R169, R239, R285). -/
def later (x : Exe) (dests : List Nat) (writes : List (Nat × Nat × Word)) (flags : List (Nat × Word))
    (columns : List (Nat × Word)) : Eff :=
  x.p.issueOp x dests false (.regs writes flags columns)

/-- A flag-B form that computes each lane by itself. -/
def laneLater (f : LaneIn → LaneOut) (x : Exe) : Eff :=
  let r := x.results f
  let js := if 125 ≤ x.d then [x.st.low] else x.st.onLanes
  x.later (codesFrom x.d x.form.d.regs) (x.laterWrites js fun j => (r j).val)
    (x.st.onLanes.map fun j => (j, (r j).flags)) []

/-- PutAll of one value (R177). -/
def putAll (x : Exe) (n : Nat) (v : DWord) : Strand := x.st.putN n x.d x.st.isPresent fun _ => v

/-- A form whose effect is one uniform value written with PutAll. -/
def uniformResult (x : Exe) (n : Nat) (v : DWord) : Eff := .next (x.p.setStrand x.sid (x.putAll n v))

end Pkg.Exe

/-- Land the values of a flag-B operation (R239, R175): registers, flags, and the first offending column in the lanes
where SG and NP were both clear. Where a register that lands is cf itself, its whole word is written first, so that a DX set at
issue is lost (log entry 88), and the flags and the column of the same operation are put into the word after it, also those of
an SMLU whose pivot word lands in cf (R178, R290): the model's choice (log entry 102). -/
def Strand.land (st : Strand) (writes : List (Nat × Nat × Word)) (flags columns : List (Nat × Word)) : Strand :=
  let clear (j : Nat) : Bool := (st.cfAt j &&& (cfSG ||| cfNP)) == 0
  let st := writes.foldl (fun s w =>
    if 125 ≤ w.1 && w.1 ≤ 127 then s.putEm (w.1 - 125) w.2.2 else s.put w.1 (fun j => j == w.2.1) fun _ => w.2.2) st
  let st := columns.foldl (fun s c =>
    s.mapCf (fun j => j == c.1 && clear j) fun _ old => (old &&& ~~~(0xE0 : Word)) ||| (c.2 <<< 5)) st
  flags.foldl (fun s f => s.mapCf (fun j => j == f.1) fun _ old => old ||| f.2) st

end Sys2Proof.Machine
end

