-- ==== Sys2Proof/Machine/Lanes.lean ====
section
/-!
DEFINITION. Lane exchange, vote, reduction and dovetail instructions, opcodes 0x60 to 0x6F (R57 to R71, R269 to R278).
-/
namespace Sys2Proof.Machine

open Pkg (Exe)

/-! ### Shuffles (R271) -/

/-- The lane that a shuffle reads, if it is in the sub-group and present. `q` gives the source position from the
reader's position and its b value. -/
def shuffleSource (st : Strand) (g : Nat) (q : Int → Int → Int) (j : Nat) (y : Word) : Option Nat :=
  let base := g * (j / g)
  let pos := q ((j - base : Nat) : Int) (y.toNat : Int)
  if 0 ≤ pos && pos < (g : Int) && st.isPresent (base + pos.toNat) then some (base + pos.toNat) else none

/-- A shuffle. -/
def bodyShuffle (q : Int → Int → Int) (x : Exe) : Eff :=
  let g := modeShuffle x.st.mode
  let src (j : Nat) := shuffleSource x.st g q j (x.env.get x.b j)
  let st := x.st.put x.d x.st.isOn fun j => x.env.get x.a ((src j).getD j)
  let st := if x.d == 123 then st
            else st.orFlags x.st.isOn fun j => if (src j).isNone then cfOOR else 0
  .next (x.p.setStrand x.sid st)

/-- The source positions of SHFL, SHFLUP, SHFLDN and SHFLX. -/
def shflPos (_ y : Int) : Int := y
def shflupPos (p y : Int) : Int := p - y
def shfldnPos (p y : Int) : Int := p + y
def shflxPos (p y : Int) : Int := ((p.toNat ^^^ y.toNat : Nat) : Int)

/-! ### Votes (R272) -/

/-- The contributing lanes whose test bit is set. -/
def votes (x : Exe) : List Nat := x.st.onLanes.filter fun j => (x.env.get x.a j).getLsbD 0

def boolWord (b : Bool) : DWord := if b then 1 else 0

def bodyVote (x : Exe) : Eff :=
  x.uniformResult 1 (((laneMask (votes x)).extractLsb' (32 * x.b) 32).setWidth 64)
def bodyVany (x : Exe) : Eff := x.uniformResult 1 (boolWord (!(votes x).isEmpty))
def bodyVall (x : Exe) : Eff := x.uniformResult 1 (boolWord ((votes x).length == x.st.onLanes.length))
def bodyFirstl (x : Exe) : Eff := x.uniformResult 1 (BitVec.ofNat 64 ((votes x).head?.getD 96))

/-! ### Reductions and scan (R91, R273, R274) -/

/-- A uniform value that lands later, with flags in the contributing lanes. -/
def reduceLater (x : Exe) (v : Nat) (flags : Nat) : Eff :=
  let js := if 125 ≤ x.d then [x.st.low] else x.st.presentLanes
  x.later [x.d] (js.map fun j => (x.d, j, BitVec.ofNat 32 v))
    (if flags == 0 then [] else x.st.onLanes.map fun j => (j, BitVec.ofNat 32 flags)) []

/-- One node of the tree of R91. -/
def sumNode (mode : Nat) (x y : Option Nat) : Option Nat × Nat :=
  match x, y with
  | some a, some b => let r := fAdd fp32 mode a b; (some r.bits, r.flags)
  | some a, none => (some a, 0)
  | none, b => (b, 0)

/-- One level of the tree: adjacent operands are added. -/
def sumLevel (mode : Nat) : List (Option Nat) → List (Option Nat) × Nat
  | x :: y :: rest =>
    let (v, f) := sumNode mode x y
    let (vs, g) := sumLevel mode rest
    (v :: vs, f ||| g)
  | l => (l, 0)

/-- The five levels of one beat of 32 operands. -/
def sumBeat (mode : Nat) : Nat → List (Option Nat) → Option Nat × Nat
  | 0, l => (l.head?.getD none, 0)
  | n + 1, l =>
    let (l, f) := sumLevel mode l
    let (v, g) := sumBeat mode n l
    (v, f ||| g)

/-- The tree of R91 over 96 operands: (b0 + b1) + b2. -/
def sumTree (mode : Nat) (l : List (Option Nat)) : Option Nat × Nat :=
  let (b0, f0) := sumBeat mode 5 (l.take 32)
  let (b1, f1) := sumBeat mode 5 ((l.drop 32).take 32)
  let (b2, f2) := sumBeat mode 5 ((l.drop 64).take 32)
  let (s, f3) := sumNode mode b0 b1
  let (t, f4) := sumNode mode s b2
  (t, f0 ||| f1 ||| f2 ||| f3 ||| f4)

def bodyRedadd (x : Exe) : Eff :=
  reduceLater x ((x.st.onLanes.foldl (fun s j => s + (x.env.get x.a j).toNat) 0) % 2 ^ 32) 0

def bodyRedfadd (x : Exe) : Eff :=
  let r := sumTree (modeRound x.st.mode)
    ((List.range 96).map fun j => if x.st.isOn j then some (x.env.get x.a j).toNat else none)
  reduceLater x (r.1.getD 0) r.2

/-- minimumNumber or maximumNumber of a list in order, the running result as a (R273): a NaN only if all are. -/
def foldMinMax (isMax : Bool) (l : List Nat) : Option FRes :=
  match l with
  | [] => none
  | first :: rest =>
    let r := rest.foldl (fun acc v => (fMinMax fp32 isMax acc v).bits) first
    some ⟨if fp32.isNaN r then fp32.quiet r else r, if l.any fp32.isSNaN then flNV else 0⟩

/-- The least element of a list under an order given by keys, the first of equals. -/
def leastKey (key : Word → Int) (l : List Word) : Option Word :=
  match l with
  | [] => none
  | first :: rest => some (rest.foldl (fun acc v => if key v < key acc then v else acc) first)

/-- REDMIN and REDMAX. -/
def bodyRedMinMax (isMax : Bool) (x : Exe) : Eff :=
  let vals := x.st.onLanes.map fun j => x.env.get x.a j
  let sign : Int := if isMax then -1 else 1
  match x.b with
  | 0 => reduceLater x (((leastKey (fun w => sign * w.toInt) vals).getD (if isMax then 0x80000000 else 0x7FFFFFFF)).toNat) 0
  | 1 => reduceLater x (((leastKey (fun w => sign * (w.toNat : Int)) vals).getD (if isMax then 0 else 0xFFFFFFFF)).toNat) 0
  | _ =>
    let r := (foldMinMax isMax (vals.map (·.toNat))).getD ⟨if isMax then 0xFF800000 else 0x7F800000, 0⟩
    reduceLater x r.bits r.flags

/-- Running sums over the contributing lanes: each lane with its inclusive or exclusive sum (R274). -/
def runningSums (excl : Bool) (get : Nat → Nat) : Nat → List Nat → List (Nat × Nat)
  | _, [] => []
  | acc, j :: rest =>
    (j, if excl then acc else acc + get j) :: runningSums excl get (acc + get j) rest

def bodyScanadd (x : Exe) : Eff :=
  let sums := runningSums (x.b == 1) (fun j => (x.env.get x.a j).toNat) 0 x.st.onLanes
  let sumAt (j : Nat) := ((sums.find? fun e => e.1 == j).map (·.2)).getD 0
  -- em takes the sum of Low(), whether or not the guard lets that lane contribute (R27)
  let js := if 125 ≤ x.d then [x.st.low] else x.st.onLanes
  x.later [x.d] (js.map fun j => (x.d, j, BitVec.ofNat 32 (sumAt j))) [] []

/-! ### Dovetail forms (R59, R64 to R67, R275, R276) -/

namespace Pkg

/-- Change the dovetail state of strand `sn` of a launch. -/
def updDove (p : Pkg) (launch sn : Nat) (f : Dovetail → Dovetail) : Pkg :=
  p.updLaunch launch fun l => { l with dovetail := l.dovetail.set sn (f (l.dovetail.get sn {})) }

/-- Change a channel of strand `sn` of a launch. -/
def updChannel (p : Pkg) (launch sn c : Nat) (f : Channel → Channel) : Pkg :=
  p.updDove launch sn fun d => { d with chans := d.chans.update c f }

/-- The number of strands of a launch (R26). -/
def strandCount (d : BitVec 512) : Nat := ceilDiv (ldItems d) 96

/-- Will the successor of a strand still consume rounds of a channel (R66)? -/
def consumes (p : Pkg) (st : Strand) (c : Nat) : Bool :=
  let next := p.dove st.launch (st.sn + 1)
  st.sn + 1 < strandCount (p.descOf st) && !next.ended
    && !((next.chans.get? c).map (·.ended)).getD false

/-- The values of vs in lanes 96 - k to 95. -/
def edgeValues (st : Strand) (vs k : Nat) : List Word := (List.range k).map fun m => st.reg vs (96 - k + m)

/-- End a channel of a strand: its final values, and its predecessor's remaining rounds consumed (R66, R67). -/
def endChannel (p : Pkg) (st : Strand) (c : Nat) : Pkg :=
  let p := p.updChannel st.launch st.sn c fun ch => { ch with ended := true, final := edgeValues st ch.vs ch.dist }
  if st.sn == 0 then p else p.updChannel st.launch (st.sn - 1) c fun ch => { ch with rounds := [] }

/-- A strand's end ends every channel still declared (R67). -/
def endChannels (p : Pkg) (st : Strand) : Pkg :=
  let live := (p.dove st.launch st.sn).chans.filter fun e => !e.2.ended
  (live.foldl (fun p e => p.endChannel st e.1) p).updDove st.launch st.sn fun d => { d with ended := true }

/-- Would a publication make a fifth unconsumed round (R66)? -/
def bufferFull (p : Pkg) (st : Strand) (c : Nat) : Bool :=
  p.consumes st c && 4 ≤ ((p.channel st c).map (·.rounds.length)).getD 0

/-- DVPUB's effect (R64, R66): round count + 1 is recorded, and the same round of the predecessor is consumed. A round whose
number the successor's own DVPUBs have already passed is consumed. -/
def publishRound (p : Pkg) (st : Strand) (c : Nat) : Pkg :=
  let r := ((p.channel st c).map (·.count)).getD 0 + 1
  let passed := ((p.dove st.launch (st.sn + 1)).chans.get? c).map (·.count)
  let keep := p.consumes st c && passed.getD 0 < r
  let p := p.updChannel st.launch st.sn c fun ch =>
    { ch with count := r, rounds := if keep then ch.rounds.set r (edgeValues st ch.vs ch.dist) else ch.rounds }
  if st.sn == 0 then p else p.updChannel st.launch (st.sn - 1) c fun ch => { ch with rounds := ch.rounds.erase r }

end Pkg

def bodyDvdecl (x : Exe) : Eff :=
  let ch : Channel := { vs := x.d, dist := x.b % 16 + 1, self := x.b / 16 % 2 == 1,
                        defaults := lanes fun j => x.env.get x.a j }
  .next (x.p.updDove x.st.launch x.st.sn fun d => { d with chans := d.chans.set (x.b / 32) ch })

def bodyDvpub (x : Exe) : Eff :=
  if x.p.bufferFull x.st x.b then .park x.p (.publish5 x.b) else .next (x.p.publishRound x.st x.b)

def bodyDvend (x : Exe) : Eff := .next (x.p.endChannel x.st x.b)

/-! ### The meanings -/

/-- SHFL (R271). -/
def execShfl (d a b : Field) : State → Host.Outcome State Fault Refusal :=
  execWord 0x60 d a b (bodyShuffle shflPos)

/-- SHFLUP (R271). -/
def execShflup (d a b : Field) : State → Host.Outcome State Fault Refusal :=
  execWord 0x61 d a b (bodyShuffle shflupPos)

/-- SHFLDN (R271). -/
def execShfldn (d a b : Field) : State → Host.Outcome State Fault Refusal :=
  execWord 0x62 d a b (bodyShuffle shfldnPos)

/-- SHFLX (R271). -/
def execShflx (d a b : Field) : State → Host.Outcome State Fault Refusal :=
  execWord 0x63 d a b (bodyShuffle shflxPos)

/-- VOTE (R272). -/
def execVote (d a b : Field) : State → Host.Outcome State Fault Refusal :=
  execWord 0x64 d a b bodyVote

/-- VANY (R272). -/
def execVany (d a b : Field) : State → Host.Outcome State Fault Refusal :=
  execWord 0x65 d a b bodyVany

/-- VALL (R272). -/
def execVall (d a b : Field) : State → Host.Outcome State Fault Refusal :=
  execWord 0x66 d a b bodyVall

/-- REDADD (R273). -/
def execRedadd (d a b : Field) : State → Host.Outcome State Fault Refusal :=
  execWord 0x67 d a b bodyRedadd

/-- REDFADD (R91, R273). -/
def execRedfadd (d a b : Field) : State → Host.Outcome State Fault Refusal :=
  execWord 0x68 d a b bodyRedfadd

/-- REDMIN (R273). -/
def execRedmin (d a b : Field) : State → Host.Outcome State Fault Refusal :=
  execWord 0x69 d a b (bodyRedMinMax false)

/-- REDMAX (R273). -/
def execRedmax (d a b : Field) : State → Host.Outcome State Fault Refusal :=
  execWord 0x6A d a b (bodyRedMinMax true)

/-- SCANADD (R274). -/
def execScanadd (d a b : Field) : State → Host.Outcome State Fault Refusal :=
  execWord 0x6B d a b bodyScanadd

/-- FIRSTL (R272). -/
def execFirstl (d a b : Field) : State → Host.Outcome State Fault Refusal :=
  execWord 0x6C d a b bodyFirstl

/-- DVDECL (R275). -/
def execDvdecl (d a b : Field) : State → Host.Outcome State Fault Refusal :=
  execWord 0x6D d a b bodyDvdecl

/-- DVPUB (R276). -/
def execDvpub (d a b : Field) : State → Host.Outcome State Fault Refusal :=
  execWord 0x6E d a b bodyDvpub

/-- DVEND (R276). -/
def execDvend (d a b : Field) : State → Host.Outcome State Fault Refusal :=
  execWord 0x6F d a b bodyDvend

end Sys2Proof.Machine
end

