-- ==== Sys2Proof/Machine/MemOps.lean ====
section
/-!
DEFINITION. Shared operations of the forms that access memory: the scratchpad checks (R99, R101, R106), the accesses
of a strand's lanes, and the completion of loads, stores, atomics and the pinning forms (R109, R110, R251 to R260).
-/
namespace Sys2Proof.Machine

open Pkg (Exe)

/-- One lane's access to a scratchpad or lane slice: the offset it formed, the offset it reaches, its bytes, its
location and the size of its allocation. -/
structure SAcc where
  lane : Nat
  formed : Nat
  off : Nat
  bytes : Nat
  size : Nat
  loc : Loc
  deriving DecidableEq, Repr

/-- The checks of R101: Misaligned, then Allocation Bound, then presence. -/
def withScratch (x : Exe) (space align : Nat) (accs : List SAcc) (k : Pkg → List SAcc → Eff) : Eff :=
  let p := x.p
  match accs.filter fun s => s.formed % align != 0 with
  | s :: rest => .trap p { cause := 0x05, lanes := (s :: rest).map (·.lane), addr := s.formed }
  | [] =>
    match accs.filter fun s => s.size < s.off + s.bytes with
    | s :: rest =>
      .trap p { cause := 0x0E, lanes := (s :: rest).map (·.lane), addr := s.formed, extra0 := space, extra1 := s.size }
    | [] =>
      if accs.all fun s => p.isPresentAt s.loc s.bytes then k p accs
      else .park p (.presence (accs.map fun s => (s.loc, s.bytes)))

namespace Pkg

/-- The core-scratchpad allocation that a strand's offset or truss pair names (R99, R250): bent, crew position,
offset and size; none where reserved bits of a truss pair are set. -/
def coreTarget (p : Pkg) (st : Strand) (v : Nat) : Option (Nat × Nat × Nat × Nat) :=
  if st.truss then
    if v / 2 ^ 34 != 0 then none
    else
      let c := bits v 33 32
      some (st.bent, c, v % 2 ^ 32, if (p.crew? st.bent c).isSome then ldKspad (p.descOf st) else 0)
  else some (st.bent, st.crew, v % 2 ^ 32, ldKspad (p.descOf st))

/-- The size of a context's die-scratchpad share (R100). -/
def shareOf (p : Pkg) (cid : Nat) : Nat := ((p.ctxs.get? cid).map fun c => crShare c.record).getD 0

end Pkg

/-- The scratchpad spaces of R98 by their shape space codes. -/
def spLane : Nat := 4
def spCore : Nat := 3
def spCluster : Nat := 2
def spDie : Nat := 1

/-- The access of lane `j` to `n` bytes at the value its address operand holds, in a scratchpad space; none where a
truss pair is illegal (R99). -/
def scratchAcc (x : Exe) (space n : Nat) (map : Nat → Nat) (j : Nat) : Option SAcc :=
  let v := (x.env.opd x.form.a x.a j).toNat
  let d := x.p.descOf x.st
  if space == 4 then
    some ⟨j, v, v, n, if x.st.truss then 0 else ldSlice d, .lane x.sid j v⟩
  else if space == 3 then
    (x.p.coreTarget x.st v).map fun t => ⟨j, v, map t.2.2.1, n, t.2.2.2, .core t.1 t.2.1 (map t.2.2.1)⟩
  else if space == 2 then some ⟨j, v, v, n, ldQspad d, .clus x.st.bent v⟩
  else some ⟨j, v, v, n, x.p.shareOf (sidCtx x.sid), .die (sidCtx x.sid) v⟩

/-- The accesses of all On lanes; Illegal Operand where a truss pair is illegal. -/
def scratchAccs (x : Exe) (space n : Nat) (map : Nat → Nat) (k : List SAcc → Eff) : Eff :=
  let l := x.st.onLanes.map (scratchAcc x space n map)
  if l.any Option.isNone then .trap x.p { cause := 0x03, lanes := x.st.onLanes } else k (l.filterMap id)

/-- The register that lane `j` of a load or atomic writes: em takes the value of Low() only (R27). -/
def landReg (x : Exe) (j : Nat) : Nat := if 125 ≤ x.d && j != x.st.low then 128 else x.d

/-- The bytes that lane `j` stores from `n` registers. -/
def storeData (x : Exe) (c n bytes j : Nat) : List Byte := leBytes bytes (x.env.getN n c j)

/-- The bytes at a location as its home holds them, past every L1 (R259). -/
def Pkg.readHome (p : Pkg) (l : Loc) (n : Nat) : Pkg × List Byte := p.readLoc none 2 l n

/-- The bytes that a read-modify-write finds at a location: with the write that follows it is one access (R121, R122). -/
def Pkg.homeBytes (p : Pkg) (l : Loc) (n : Nat) : List Byte := (p.readHome l n).2

/-! ### Remote addresses (R255, R330) -/

/-- The rank and the target address of a remote address. -/
def remoteRank (a : Nat) : Nat := bits a 63 55
def remoteVa (a : Nat) : Nat := bits a 54 0

/-- The gang-table entry of a rank: yard port, context and lease at the target (R330, R361). -/
def Pkg.gangEntry (p : Pkg) (cid rank : Nat) : Option (Nat × Nat × Nat) :=
  match (p.ctxs.get? cid).bind fun c => c.gang.get? rank with
  | some e => if e.getLsbD 15 then some (bits e.toNat 8 0, bits e.toNat 14 9, bits e.toNat 31 16) else none
  | none => none

/-- The doubleword that a request to this package accesses, at an address of a context under a lease. -/
def Pkg.targetPlace (p : Pkg) (cid lease va : Nat) : Option (Loc × Nat) :=
  let ranges := ((p.ctxs.get? cid).bind fun c => c.leases.get? lease).getD []
  match (p.translate (p.enginePort cid) cid ranges (va / 8 * 8) needRead).2 with
  | .ok l => some (l, 8)
  | _ => none

/-- The doubleword of this package that a remote address of a context names, if it names one. -/
def Pkg.ownPlace (p : Pkg) (cid a : Nat) : Option (Loc × Nat) :=
  (p.gangEntry cid (remoteRank a)).bind fun e =>
    if e.1 == p.yardPort then p.targetPlace e.2.1 e.2.2 (remoteVa a) else none

/-! ### The order of a strand's own accesses (R121) -/

/-- Chain descriptor fields (R342): the address of the first slot and the logarithm of the number of slots. -/
def cdBase (d : Nat) : Nat := bits d 63 0
def cdLog (d : Nat) : Nat := bits d 71 64

/-- The bytes that an outstanding CPQ or XFQ may access: its chain's descriptor and slots. -/
def chainBytes (p : Pkg) (sid : Nat) (st : Strand) (desc : Nat) : List (Loc × Nat) :=
  let at? (va : Nat) : Option Loc :=
    match (p.translate (.core (sidCk sid % 1024)) (sidCtx sid) (p.leaseOf st) va needRead).2 with
    | .ok l => some l
    | _ => none
  match at? desc with
  | none => []
  | some l =>
    let d := leNat (p.readHome l 64).2
    (l, 64) :: (Pkg.pageParts (cdBase d) (64 * 2 ^ min (cdLog d) 16)).filterMap fun e => (at? e.1).map fun k => (k, e.2)

/-- The bytes of this package that an operation accesses, in an order that its strand observes: a sweep's accesses and a
later access of its strand race (R305). -/
def opBytes (p : Pkg) (sid : Nat) (st : Strand) (k : OpKind) : List (Loc × Nat) :=
  let lanes (l : List LaneAcc) : List (Loc × Nat) := l.map fun a => (a.loc, a.bytes)
  match k with
  | .load _ _ accs => lanes accs
  | .store _ accs => lanes accs
  | .atomic _ _ accs => lanes accs
  | .cas accs => lanes accs
  | .actLoad _ locs => locs.map fun l => (l, 16)
  | .shapeLoad _ l => [(l, 64)]
  | .shapeStore l _ => [(l, 64)]
  | .counterRead _ l => [(l, 8)]
  | .spawn _ l => [(l, 64)]
  | .post _ _ desc _ _ => chainBytes p sid st desc.toNat
  | .remote _ ls => (ls.filter fun l => !l.answered).filterMap fun l => p.ownPlace (sidCtx sid) l.addr.toNat
  | _ => []

/-- Does no operation of the strand that is earlier than `o` touch one of `n` bytes at a location? -/
def clearOf (p : Pkg) (sid : Nat) (st : Strand) (o : Op) (l : Loc) (n : Nat) : Bool :=
  st.ops.all fun e => o.id ≤ e.id || (opBytes p sid st e.kind).all fun x => !p.shareByte x.1 x.2 l n

/-- Does no outstanding operation of the strand touch one of `n` bytes at a location? An instruction that reads memory in place
waits for it, so that it finds the strand's own earlier stores, and nothing older than its earlier loads (R121, R127). -/
def selfClear (p : Pkg) (sid : Nat) (st : Strand) (l : Loc) (n : Nat) : Bool :=
  st.ops.all fun e => (opBytes p sid st e.kind).all fun x => !p.shareByte x.1 x.2 l n

/-! ### Completion -/

/-- Extend of a load (R251): the registers that the bytes of a width code fill. -/
def extendLoad (w : Nat) (b : List Byte) : List Word :=
  let v := leNat b
  match w with
  | 1 => [BitVec.ofInt 32 (signedOf 8 v)]
  | 3 => [BitVec.ofInt 32 (signedOf 16 v)]
  | 5 => [BitVec.ofNat 32 v, BitVec.ofNat 32 (v / 2 ^ 32)]
  | 6 => (List.range 4).map fun k => BitVec.ofNat 32 (v / 2 ^ (32 * k))
  | _ => [BitVec.ofNat 32 v]

/-- Write consecutive registers of one lane. An operation that is still outstanding when its lane leaves by EXIT lands in
the registers of the exited lane, which dovetail reads may observe (R28, R64): the model's choice (log entry 63). -/
def Strand.putLane (st : Strand) (c j : Nat) : List Word → Strand
  | [] => st
  | w :: rest =>
    let st := if 125 ≤ c && c ≤ 127 then st.putEm (c - 125) w else st.put c (fun i => i == j) fun _ => w
    st.putLane (c + 1) j rest

namespace Pkg

/-- Perform the loads of an operation, in lane order. -/
def doLoads (p : Pkg) (sid w policy : Nat) : List LaneAcc → Pkg
  | [] => p
  | a :: rest =>
    let (p, b) := p.readLoc (sidCore sid) policy a.loc a.bytes
    (p.updStrand sid fun st => st.putLane a.reg a.lane (extendLoad w b)).doLoads sid w policy rest

/-- Perform the stores of an operation under a cache policy, in lane order (R104, R121). -/
def doStores (p : Pkg) (sid policy : Nat) : List LaneAcc → Pkg
  | [] => p
  | a :: rest => (p.writeLoc (sidCore sid) false a.loc a.data (policy == 1)).doStores sid policy rest

/-- The value that memory takes in an atomic operation (R258); `w` is its width in bits. -/
def atomicValue (code w x y : Nat) : Nat :=
  match code with
  | 0 => (x + y) % 2 ^ w
  | 1 => (x + (2 ^ w - y)) % 2 ^ w
  | 2 => if signedOf w x ≤ signedOf w y then x else y
  | 3 => min x y
  | 4 => if signedOf w y ≤ signedOf w x then x else y
  | 5 => max x y
  | 6 => x &&& y
  | 7 => x ||| y
  | 8 => x ^^^ y
  | 9 => y
  | 10 => (fAdd (if w == 64 then fp64 else fp32) 0 x y).bits
  | 11 => if y ≤ x then 0 else x + 1
  | _ => if x == 0 || y < x then y else x - 1

/-- Perform the read-modify-writes of an ATOM form, in lane order (R259). -/
def doAtomics (p : Pkg) (sid code : Nat) (wide : Bool) : List LaneAcc → Pkg
  | [] => p
  | a :: rest =>
    let b := p.homeBytes a.loc a.bytes
    let v := atomicValue code (8 * a.bytes) (leNat b) (leNat a.data)
    let p := p.writeLoc (sidCore sid) false a.loc (leBytes a.bytes v)
    (p.updStrand sid fun st => st.putLane a.reg a.lane (extendLoad (if wide then 5 else 4) b)).doAtomics sid code wide rest

/-- Perform the compare-and-swaps of an ACAS form, in lane order (R259). One that fails writes nothing, and is performed
and registered at L2 as any atomic is (R135, R262). -/
def doCas (p : Pkg) (sid : Nat) : List LaneAcc → Pkg
  | [] => p
  | a :: rest =>
    let b := p.homeBytes a.loc a.bytes
    let p := if b == a.compare then p.writeLoc (sidCore sid) false a.loc a.data
      else (p.readHome a.loc a.bytes).1.registerLoc (sidCore sid) a.loc a.bytes
    let w := if a.bytes == 4 then 4 else if a.bytes == 8 then 5 else 6
    (p.updStrand sid fun st => st.putLane a.reg a.lane (extendLoad w b)).doCas sid rest

/-- The line of a location in HBM or a codebook window. -/
def lineOf (p : Pkg) (l : Loc) : Option Nat := (p.hbmPa? l).map (· / 128)

/-- The lines that a context has pinned (R109). -/
def pinnedCount (p : Pkg) (cid : Nat) : Nat := (p.pinned.filter fun e => e.2 == cid).length

/-- LLOCK of one line: its status (R109). -/
def lockLine (p : Pkg) (cid : Nat) (line : Option Nat) : Pkg × Nat :=
  match line, p.ctxs.get? cid with
  | some n, some c =>
    if p.pinned.get? n == some cid then (p, 3)
    else
      let inSet := p.pinned.any fun e => p.l2SetOf e.1 == p.l2SetOf n && (p.ctxs.get? e.2).map (·.vf) == some c.vf
      if crLockQuota c.record ≤ p.pinnedCount cid || inSet then (p, 1)
      else ({ p with pinned := p.pinned.set n cid }, 0)
  | _, _ => (p, 2)

/-- The physical line that an address of LLOCK names, cacheable or not. -/
def lineNamed (p : Pkg) (l : Loc) : Nat := (p.lineOf l).getD (l.offset / 128)

/-- Perform the locks of an LLOCK, in lane order: a line that a lower lane has named answers 3 (R254). -/
def doLocks (p : Pkg) (sid : Nat) (named : List Nat := []) : List LaneAcc → Pkg
  | [] => p
  | a :: rest =>
    let n := p.lineNamed a.loc
    let (p, s) := if named.contains n then (p, 3) else p.lockLine (sidCtx sid) (p.lineOf a.loc)
    (p.updStrand sid fun st => st.putLane a.reg a.lane [BitVec.ofNat 32 s]).doLocks sid (n :: named) rest

/-- LUNLK of one line (R110). -/
def unlockLine (p : Pkg) (cid : Nat) (line : Option Nat) : Pkg :=
  match line with
  | some n => if p.pinned.get? n == some cid then { p with pinned := p.pinned.erase n } else p
  | none => p

/-- LQRY of one lane (R254). -/
def queryLine (p : Pkg) (cid : Nat) (line : Option Nat) : List Word :=
  let quota := ((p.ctxs.get? cid).map fun c => crLockQuota c.record).getD 0
  let here := match line with | some n => p.pinned.get? n == some cid | none => false
  [BitVec.ofNat 32 (quota % 2 ^ 31 + if here then 2 ^ 31 else 0), BitVec.ofNat 32 (p.pinnedCount cid)]

/-- Bring the lines of a prefetch into L2, and under policy 0 into L1 (R253). -/
def doPrefetch (p : Pkg) (sid policy : Nat) (accs : List LaneAcc) : Pkg :=
  accs.foldl (fun p a =>
    match p.hbmPa? a.loc with
    | some pa => (p.loadVia (if policy == 0 then sidCore sid else none) policy (pa / 128 * 128) 4).1
    | none => p) p

end Pkg

end Sys2Proof.Machine
end

