-- ==== Sys2Proof/Machine/MemForms.lean ====
section
/-!
DEFINITION. Memory, atomic and ordering instructions, opcodes 0x80 to 0x8F and 0xA0 to 0xAC without the remote forms
(R247 to R267).
-/
namespace Sys2Proof.Machine

open Pkg (Exe)

/-! ### Scratchpad loads and stores (R251) -/

/-- The swizzled offset of R252; `w` is the access size in bytes. -/
def swizzle (code w o : Nat) : Nat :=
  let b := match code with | 1 => 128 | 2 => 256 | _ => 512
  let row := o / b
  let wd := o % b / 4
  let mask := 31 - (max (w / 4) 1 - 1)
  if code == 0 then o else row * b + 4 * (wd ^^^ (row % 32 &&& mask)) + o % 4

/-- A load or store of a scratchpad space. -/
def bodyScratch (space : Nat) (store : Bool) (x : Exe) : Eff :=
  let w := x.b / 16
  let n := widthBytes w
  let regs := widthRegs w
  scratchAccs x space n (swizzle (x.b % 4) n) fun accs =>
    withScratch x space n accs fun p accs =>
      let entry := space == 1
      if store then
        p.issueOp x [] entry (.store 0 (accs.map fun s =>
          { lane := s.lane, reg := 128, loc := s.loc, bytes := n, data := storeData x x.d regs n s.lane }))
      else
        p.issueOp x (codesFrom x.d regs) entry (.load w 0 (accs.map fun s =>
          { lane := s.lane, reg := landReg x s.lane, loc := s.loc, bytes := n }))

/-! ### Global loads and stores (R251, R260) -/

/-- The global accesses of the On lanes. -/
def globalWants (x : Exe) : List Want :=
  x.st.onLanes.map fun j => ⟨j, (x.env.get64 x.a j).toNat⟩

def isDev (l : Loc) : Bool := match l with | .dev _ => true | _ => false

/-- Lanes with their locations. -/
def laneLocs (x : Exe) (ls : List Loc) : List (Nat × Loc) := x.st.onLanes.zip ls

/-- The lanes whose address lies in a device range, whatever the page permits. -/
def deviceLanes (x : Exe) : List Nat :=
  ((globalWants x).filter fun w =>
    match (x.p.translate (.lane x.sid w.lane) (sidCtx x.sid) (x.p.leaseOf x.st) w.va {}).2 with
    | .ok l => isDev l
    | _ => false).map (·.lane)

/-- LD and ST. Width 6 to a device range is an Illegal Operand, which goes before the checks of the access (R179, R260). -/
def bodyGlobal (store : Bool) (x : Exe) : Eff :=
  let w := x.b / 16
  let n := widthBytes w
  let regs := widthRegs w
  let bad := if w == 6 then deviceLanes x else []
  if bad != [] then .trap x.p { cause := 0x03, lanes := bad }
  else Pkg.withGlobal x n (if store then needWrite else needRead) (globalWants x) fun p ls =>
    if store then
      p.issueOp x [] true (.store (x.b / 4 % 4) ((laneLocs x ls).map fun e =>
        { lane := e.1, reg := 128, loc := e.2, bytes := n, data := storeData x x.d regs n e.1 }))
    else
      p.issueOp x (codesFrom x.d regs) true (.load w (x.b / 4 % 4) ((laneLocs x ls).map fun e =>
        { lane := e.1, reg := landReg x e.1, loc := e.2, bytes := n }))

/-! ### Prefetch and pinning (R253, R254) -/

/-- The lanes of a prefetch whose checks pass, each with its location; a walk that would fault changes nothing. Misaligned
addresses are dropped; PFM has no width and the spec does not say what it asks of an address, so the alignment is a free
value (log entry 70). -/
def prefetchLanes (sid : Nat) (lease : List LeaseRange) : Pkg → List Want → Pkg × List (Nat × Loc)
  | p, [] => (p, [])
  | p, w :: rest =>
    if w.va % 2 ^ (Config.prefetchAlign % 8) != 0 then prefetchLanes sid lease p rest
    else
      match p.translate (.lane sid w.lane) (sidCtx sid) lease w.va needRead with
      | (q, .ok l) => let (q, r) := prefetchLanes sid lease q rest; (q, (w.lane, l) :: r)
      | (_, _) => prefetchLanes sid lease p rest

def bodyPfm (x : Exe) : Eff :=
  let (p, ls) := prefetchLanes x.sid (x.p.leaseOf x.st) x.p (globalWants x)
  p.issueOp x [] true (.prefetch (x.b / 4 % 4) (ls.map fun e => { lane := e.1, reg := 128, loc := e.2, bytes := 4 }))

/-- LLOCK, LUNLK and LQRY: the checks of a load, then the operation on each lane's line. The forms have no access width, and the
spec does not say which alignment their checks ask: here none, the model's choice (log entry 101). -/
def bodyPin (entry : Bool) (dests : List Nat) (k : List LaneAcc → OpKind) (x : Exe) : Eff :=
  Pkg.withGlobal x 1 needRead (globalWants x) fun p ls =>
    p.issueOp x dests entry (k ((laneLocs x ls).map fun e =>
      { lane := e.1, reg := landReg x e.1, loc := e.2, bytes := 1 }))
def bodyLlock (x : Exe) : Eff := bodyPin true [x.d] .lock x
def bodyLunlk (x : Exe) : Eff := bodyPin true [] .unlock x
def bodyLqry (x : Exe) : Eff := bodyPin false [x.d, x.d + 1] .query x

/-! ### Atomics (R257 to R259) -/

/-- An ATOM form's width in bytes. -/
def atomBytes (b : Nat) : Nat := if b < 64 then 4 else 8

/-- The accesses of an ATOM form; none may go to a device range (R260). -/
def atomAccs (x : Exe) (ls : List (Nat × Loc)) : List LaneAcc :=
  let n := atomBytes x.b
  ls.map fun e => { lane := e.1, reg := landReg x e.1, loc := e.2, bytes := n, data := storeData x x.d (n / 4) n e.1 }

def bodyAtom (x : Exe) : Eff :=
  let n := atomBytes x.b
  Pkg.withGlobal x n needAtomic (globalWants x) fun p ls =>
    p.issueOp x (codesFrom x.d (n / 4)) true (.atomic (x.b % 64) (n == 8) (atomAccs x (laneLocs x ls)))

def bodyAtomScratch (space : Nat) (x : Exe) : Eff :=
  let n := atomBytes x.b
  scratchAccs x space n id fun accs => withScratch x space n accs fun p accs =>
    p.issueOp x (codesFrom x.d (n / 4)) false
      (.atomic (x.b % 64) (n == 8) (atomAccs x (accs.map fun s => (s.lane, s.loc))))

/-- ACAS, ACAS64 and ACAS128 on `n` bytes. -/
def bodyAcas (n : Nat) (x : Exe) : Eff :=
  Pkg.withGlobal x n needAtomic (globalWants x) fun p ls =>
    p.issueOp x (codesFrom x.d (n / 4)) true (.cas ((laneLocs x ls).map fun e =>
      { lane := e.1, reg := landReg x e.1, loc := e.2, bytes := n,
        data := storeData x x.d (n / 4) n e.1, compare := storeData x x.b (n / 4) n e.1 }))

/-! ### Fences (R261 to R264) -/

/-- Go on once a wait is over, with an effect on the package. -/
def whenDone (done : Strand → Bool) (f : Pkg → Pkg) (x : Exe) : Eff :=
  if done x.st then .next (f x.p) else .hold

def bodyAcq (x : Exe) : Eff := whenDone Pkg.loadsDone (fun p => p.discardL1 (sidCore x.sid)) x
def bodyRel (x : Exe) : Eff := whenDone Pkg.quiet id x
def bodyFence (x : Exe) : Eff := whenDone Pkg.quiet (fun p => p.discardL1 (sidCore x.sid)) x
/-- TFENCE and IFENCE wait until every earlier store is performed; walks and clause fetches read memory itself. -/
def bodyStoreWait (x : Exe) : Eff := whenDone Pkg.storesDone id x

/-! ### The meanings -/

/-- LDP (R251). -/
def execLdp (d a b : Field) : State → Host.Outcome State Fault Refusal :=
  execWord 0x80 d a b (bodyScratch spLane false)

/-- STP (R251). -/
def execStp (d a b : Field) : State → Host.Outcome State Fault Refusal :=
  execWord 0x81 d a b (bodyScratch spLane true)

/-- LDK (R251). -/
def execLdk (d a b : Field) : State → Host.Outcome State Fault Refusal :=
  execWord 0x82 d a b (bodyScratch spCore false)

/-- STK (R251). -/
def execStk (d a b : Field) : State → Host.Outcome State Fault Refusal :=
  execWord 0x83 d a b (bodyScratch spCore true)

/-- LDQ (R251). -/
def execLdq (d a b : Field) : State → Host.Outcome State Fault Refusal :=
  execWord 0x84 d a b (bodyScratch spCluster false)

/-- STQ (R251). -/
def execStq (d a b : Field) : State → Host.Outcome State Fault Refusal :=
  execWord 0x85 d a b (bodyScratch spCluster true)

/-- LDD (R251). -/
def execLdd (d a b : Field) : State → Host.Outcome State Fault Refusal :=
  execWord 0x86 d a b (bodyScratch spDie false)

/-- STD (R251). -/
def execStd (d a b : Field) : State → Host.Outcome State Fault Refusal :=
  execWord 0x87 d a b (bodyScratch spDie true)

/-- LD (R251). -/
def execLd (d a b : Field) : State → Host.Outcome State Fault Refusal :=
  execWord 0x88 d a b (bodyGlobal false)

/-- ST (R251). -/
def execSt (d a b : Field) : State → Host.Outcome State Fault Refusal :=
  execWord 0x89 d a b (bodyGlobal true)

/-- LDKT (R252). -/
def execLdkt (d a b : Field) : State → Host.Outcome State Fault Refusal :=
  execWord 0x8A d a b (bodyScratch spCore false)

/-- STKT (R252). -/
def execStkt (d a b : Field) : State → Host.Outcome State Fault Refusal :=
  execWord 0x8B d a b (bodyScratch spCore true)

/-- PFM (R253). -/
def execPfm (d a b : Field) : State → Host.Outcome State Fault Refusal :=
  execWord 0x8C d a b bodyPfm

/-- LLOCK (R254). -/
def execLlock (d a b : Field) : State → Host.Outcome State Fault Refusal :=
  execWord 0x8D d a b bodyLlock

/-- LUNLK (R254). -/
def execLunlk (d a b : Field) : State → Host.Outcome State Fault Refusal :=
  execWord 0x8E d a b bodyLunlk

/-- LQRY (R254). -/
def execLqry (d a b : Field) : State → Host.Outcome State Fault Refusal :=
  execWord 0x8F d a b bodyLqry

/-- ATOM (R259). -/
def execAtom (d a b : Field) : State → Host.Outcome State Fault Refusal :=
  execWord 0xA0 d a b bodyAtom

/-- ATOMK (R259). -/
def execAtomk (d a b : Field) : State → Host.Outcome State Fault Refusal :=
  execWord 0xA1 d a b (bodyAtomScratch spCore)

/-- ATOMQ (R259). -/
def execAtomq (d a b : Field) : State → Host.Outcome State Fault Refusal :=
  execWord 0xA2 d a b (bodyAtomScratch spCluster)

/-- ACAS (R259). -/
def execAcas (d a b : Field) : State → Host.Outcome State Fault Refusal :=
  execWord 0xA3 d a b (bodyAcas 4)

/-- ACAS64 (R259). -/
def execAcas64 (d a b : Field) : State → Host.Outcome State Fault Refusal :=
  execWord 0xA4 d a b (bodyAcas 8)

/-- ACAS128 (R259). -/
def execAcas128 (d a b : Field) : State → Host.Outcome State Fault Refusal :=
  execWord 0xA5 d a b (bodyAcas 16)

/-- ACQ (R261). -/
def execAcq (d a b : Field) : State → Host.Outcome State Fault Refusal :=
  execWord 0xA8 d a b bodyAcq

/-- REL (R262). -/
def execRel (d a b : Field) : State → Host.Outcome State Fault Refusal :=
  execWord 0xA9 d a b bodyRel

/-- FENCE (R263). -/
def execFence (d a b : Field) : State → Host.Outcome State Fault Refusal :=
  execWord 0xAA d a b bodyFence

/-- TFENCE (R263). -/
def execTfence (d a b : Field) : State → Host.Outcome State Fault Refusal :=
  execWord 0xAB d a b bodyStoreWait

/-- IFENCE (R263). -/
def execIfence (d a b : Field) : State → Host.Outcome State Fault Refusal :=
  execWord 0xAC d a b bodyStoreWait

end Sys2Proof.Machine
end

