-- ==== Sys2Proof/Machine/Control.lean ====
section
/-!
DEFINITION. Control and system instructions, opcodes 0xD0 to 0xDF (R198 to R207).
-/
namespace Sys2Proof.Machine

open Pkg (Exe)

/-! ### Transfers of control (R172, R199) -/

/-- Take a branch: the target holds until the clause ends. -/
def Strand.jumpTo (st : Strand) (target : DWord) : Strand := { st with jump := some target }

/-- The target of an offset: the clause header plus four times S32 of it. -/
def branchTarget (x : Exe) : DWord := x.st.clause + BitVec.ofInt 64 (4 * (x.env.uniform x.b).toInt)

/-- A branch, taken or not. -/
def branch (x : Exe) (taken : Bool) : Eff :=
  .next (x.p.setStrand x.sid (if taken then x.st.jumpTo (branchTarget x) else x.st))

def bodyBra (x : Exe) : Eff := branch x true
def bodyBrz (x : Exe) : Eff := branch x (x.env.uniform x.a == 0)
def bodyBrnz (x : Exe) : Eff := branch x (x.env.uniform x.a != 0)
def bodyBrnone (x : Exe) : Eff :=
  branch x (x.st.presentLanes.all fun j => !(x.st.isActive j && (x.env.get x.a j).getLsbD 0))
/-- CALL reads its offset before the return address is written, as every source is read first (R178); for an offset register in
its own pair d the order that the steps of R199 list, PutAll(d) before Uniform(b), would say otherwise: the model's choice (log
entry 90). -/
def bodyCall (x : Exe) : Eff := .next (x.p.setStrand x.sid ((x.putAll 2 x.st.after).jumpTo (branchTarget x)))
def bodyRet (x : Exe) : Eff := .next (x.p.setStrand x.sid (x.st.jumpTo (x.env.uniform64 x.a)))

/-! ### Ending lanes (R200) -/

/-- A strand none of whose lanes is present: it issues nothing more. -/
def Strand.finish (st : Strand) : Strand :=
  { st with present := 0, em := 0, finished := true, executing := false, words := [], slot := 0, t := [],
            jump := none, handler := false, frame := none, trapRecord := [], park := none, atBarrier := none, departing := false }

/-- The active lanes become absent. -/
def Strand.exitLanes (st : Strand) : Strand := { st with present := st.present &&& ~~~st.em, em := 0 }

def bodyExit (x : Exe) : Eff :=
  let st := x.st.exitLanes
  if st.present == 0 then .moved (x.p.setStrand x.sid st.finish) else .next (x.p.setStrand x.sid st)

/-! ### Barriers (R201, R202) -/

/-- Does a strand take part in the barriers of a crew (`whole` false) or of a bent? -/
def participates (st : Strand) (whole : Bool) (e : Strand) : Bool :=
  e.bent == st.bent && !e.ended && (whole || (e.crew == st.crew && !e.truss))

/-- Has every participant made as many arrivals as the strand? Barrier 4 and above are those of the bent. -/
def barrierFull (p : Pkg) (st : Strand) (k : Nat) : Bool :=
  p.strands.all fun e => !participates st (4 ≤ k) e.2 || st.arrivals.get k 0 ≤ e.2.arrivals.get k 0

/-- The strands of a bent that stand at a barrier whose instance is complete are departing: they go whatever joins the
bent from then on (R201). -/
def Pkg.settleBarriers (p : Pkg) (bent : Nat) : Pkg :=
  { p with strands := p.strands.mapVals fun _ st =>
      match st.atBarrier with
      | some k => if st.bent == bent && barrierFull p st k then { st with departing := true } else st
      | none => st }

/-- Arrive at a barrier, or depart from it with the effect of ACQ once its instance is complete. -/
def bodyBarrier (k : Nat) (x : Exe) : Eff :=
  if x.st.truss && k < 4 then whenDone Pkg.quiet id x
  else if x.st.atBarrier == some k then
    if x.st.departing then
      .next ((x.p.setStrand x.sid { x.st with atBarrier := none, departing := false }).discardL1 (sidCore x.sid))
    else .hold
  else if Pkg.quiet x.st then
    let st := { x.st with arrivals := x.st.arrivals.set k (x.st.arrivals.get k 0 + 1), atBarrier := some k }
    .moved ((x.p.setStrand x.sid st).settleBarriers st.bent)
  else .hold
def bodyBar (x : Exe) : Eff := bodyBarrier x.b x
def bodyBarq (x : Exe) : Eff := bodyBarrier (4 + x.b) x

/-! ### The mode register (R174, R203) -/

/-- Is a guard register legal for a launch's registers per lane? -/
def guardRegLegal (nregs g : Nat) : Bool := (g < 100 && g < nregs) || (119 ≤ g && g ≤ 123)

/-- Is every field of a mode register's value legal? -/
def modeLegal (nregs : Nat) (m : DWord) : Bool :=
  guardRegLegal nregs (modeGuardReg m) && elemBytes (modeElem m) != 0 && modeRound m ≤ 4 && modePolicy m ≤ 2
    && 2 ≤ modeOrder m && modeOrder m ≤ (if modeFP64 m then 4 else 6) && modeTP m ≤ 1074 && modeField m 45 43 ≤ 4

/-- Bits of the mode register that exist. -/
def modeMask : DWord := 0x000FFFFFFFF801FF

def setMode (m : DWord) (hi lo v : Nat) : DWord := BitVec.ofNat 64 (setBits m.toNat hi lo v)

/-- The register after SETM of a selector; none where the value does not fit the field. -/
def modeWrite (m : DWord) (sel : Nat) (v : DWord) : Option DWord :=
  let w : Word := v.setWidth 32
  let field (hi lo : Nat) : Option DWord := if w.toNat < 2 ^ (hi + 1 - lo) then some (setMode m hi lo w.toNat) else none
  match sel with
  | 0 => some (setMode m 8 0 w.toNat)
  | 1 => field 22 19
  | 2 => field 25 23
  | 3 => field 27 26
  | 4 => some (setMode m 31 28 w.toNat)
  | 5 => field 42 32
  | 6 => field 45 43
  | 7 => field 46 46
  | 8 => if -16 ≤ w.toInt && w.toInt ≤ 15 then some (setMode m 51 47 (patternOf 5 w.toInt)) else none
  | _ => some (v &&& modeMask)

/-- SETM: an illegal value leaves the register unchanged and raises Illegal Operand. -/
def bodySetm (x : Exe) : Eff :=
  let v := if x.b == 9 then x.env.uniform64 x.a else (x.env.uniform x.a).setWidth 64
  match modeWrite x.st.mode x.b v with
  | some m =>
    if modeLegal x.st.nregs m then .next (x.p.setStrand x.sid { x.st with mode := m })
    else .trap x.p { cause := 0x03, lanes := x.st.onLanes }
  | none => .trap x.p { cause := 0x03, lanes := x.st.onLanes }

/-- What GETM of a selector reads. -/
def modeRead (m : DWord) (sel : Nat) : DWord :=
  match sel with
  | 0 => m &&& 0x1FF
  | 1 => BitVec.ofNat 64 (modeElem m)
  | 2 => BitVec.ofNat 64 (modeRound m)
  | 3 => BitVec.ofNat 64 (modePolicy m)
  | 4 => BitVec.ofNat 64 (modeField m 31 28)
  | 5 => BitVec.ofNat 64 (modeTP m)
  | 6 => BitVec.ofNat 64 (modeField m 45 43)
  | 7 => BitVec.ofNat 64 (modeActSlot m)
  | 8 => BitVec.ofInt 64 (modePrio m)
  | _ => m

def bodyGetm (x : Exe) : Eff := x.uniformResult (if x.b == 9 then 2 else 1) (modeRead x.st.mode x.b)

/-! ### Traps (R204, R205) -/

/-- TRAP #park: the strand parks at this instruction; a resume goes on after it. -/
def bodyTrapPark (x : Exe) : Eff := .park x.p .trapPark

def bodyTrap (x : Exe) : Eff :=
  if x.b == 64 then bodyTrapPark x
  else .trap x.p { cause := 0x0C, lanes := x.st.onLanes, extra0 := x.b, extra1 := (x.env.uniform x.a).toNat }

/-- RTE (R205); its offset after the frame's slot for #0 and #1, and a new clause for #2. It ends its clause, whose yield bit
counts (R166). -/
def bodyRte (x : Exe) : Eff :=
  match x.st.frame with
  | none => .moved x.p
  | some f =>
    let p := if x.b == 2 then x.p.returnFrom x.sid x.st (x.env.uniform64 x.a) 0 true
      else x.p.returnFrom x.sid x.st f.clause (f.slot + x.b) false
    .moved (p.updStrand x.sid fun s => Pkg.leaveClause x.st s (p.cycleOf (sidCluster x.sid)))

/-! ### System registers (R207) -/

/-- This package's gang rank for a context; all ones if none (R330). -/
def Pkg.ownRank (p : Pkg) (cid : Nat) : Word :=
  let gang := ((p.ctxs.get? cid).map (·.gang)).getD []
  match gang.find? fun e => e.2.getLsbD 15 && bits e.2.toNat 8 0 == p.yardPort with
  | some e => BitVec.ofNat 32 e.1
  | none => 0xFFFFFFFF

/-- The place register of a strand. -/
def placeWord (sid : Nat) : Word :=
  let c := sidCluster sid
  let low := if sidIsTruss sid then 2 ^ 31 else sidPlace sid
  BitVec.ofNat 32 (low + sidCtx sid * 2 ^ 25 + clusterVf c * 2 ^ 22 + c * 2 ^ 14)

/-- What SREAD of a selector reads; outside a handler the trap record and the frame's mask words read 0 (R206, R207). -/
def systemRead (p : Pkg) (sid : Nat) (st : Strand) (sel : Nat) : DWord :=
  if sel == 0 then BitVec.ofNat 64 p.time
  else if sel == 1 then BitVec.ofNat 64 (p.cycleOf (sidCluster sid))
  else if sel == 2 then (placeWord sid).setWidth 64
  else if sel == 3 then (p.ownRank (sidCtx sid)).setWidth 64
  else if sel == 4 then BitVec.ofNat 64 (p.vfs.get (clusterVf (sidCluster sid)) {}).gen
  else if 16 ≤ sel && sel ≤ 27 then if st.handler then (st.trapRecord.get (sel - 16) 0).setWidth 64 else 0
  else if 40 ≤ sel && sel ≤ 42 then
    match st.frame with
    | some f => (f.em.extractLsb' (32 * (sel - 40)) 32).setWidth 64
    | none => 0
  else 0

def bodySread (x : Exe) : Eff :=
  x.uniformResult (if selWide x.b then 2 else 1) (systemRead x.p x.sid x.st x.b)

/-- A mask word of the trap frame replaced. -/
def Frame.putEm (f : Frame) (w : Nat) (v : Word) : Frame :=
  { f with em := (f.em &&& ~~~((BitVec.allOnes 32).setWidth 96 <<< (32 * w))) ||| (v.setWidth 96 <<< (32 * w)) }

/-- SWRITE #33: start an invalidation of the strand's context, and go on when it has completed (R150). -/
def bodyInvalidate (x : Exe) : Eff :=
  match x.st.invalidation with
  | some n =>
    if (x.p.invalidations.get? n).isSome then .hold
    else .next (x.p.setStrand x.sid { x.st with invalidation := none })
  | none =>
    let pages := (x.env.uniform x.a).toNat % 2 ^ 11
    if 1024 < pages then .trap x.p { cause := 0x03, lanes := x.st.onLanes }
    else
      let (n, p) := x.p.takeId
      let request : Invalidation := ⟨sidCtx x.sid, bits x.st.invalAddr.toNat 54 16, pages⟩
      .moved ({ p with invalidations := p.invalidations.set n request }.setStrand x.sid
                { x.st with invalidation := some n })

/-- SWRITE (R207). -/
def bodySwrite (x : Exe) : Eff :=
  if x.b == 33 then bodyInvalidate x
  else if x.b == 32 then .next (x.p.setStrand x.sid { x.st with invalAddr := x.env.uniform64 x.a })
  else
    .next (x.p.setStrand x.sid
      { x.st with frame := x.st.frame.map fun f => f.putEm (x.b - 40) (x.env.uniform x.a) })

def bodyNop (x : Exe) : Eff := .next x.p

/-! ### The meanings -/

/-- BRA (R199). -/
def execBra (d a b : Field) : State → Host.Outcome State Fault Refusal :=
  execWord 0xD0 d a b bodyBra

/-- BRZ (R199). -/
def execBrz (d a b : Field) : State → Host.Outcome State Fault Refusal :=
  execWord 0xD1 d a b bodyBrz

/-- BRNZ (R199). -/
def execBrnz (d a b : Field) : State → Host.Outcome State Fault Refusal :=
  execWord 0xD2 d a b bodyBrnz

/-- BRNONE (R199). -/
def execBrnone (d a b : Field) : State → Host.Outcome State Fault Refusal :=
  execWord 0xD3 d a b bodyBrnone

/-- CALL (R199). -/
def execCall (d a b : Field) : State → Host.Outcome State Fault Refusal :=
  execWord 0xD4 d a b bodyCall

/-- RET (R199). -/
def execRet (d a b : Field) : State → Host.Outcome State Fault Refusal :=
  execWord 0xD5 d a b bodyRet

/-- EXIT (R200). -/
def execExit (d a b : Field) : State → Host.Outcome State Fault Refusal :=
  execWord 0xD6 d a b bodyExit

/-- BAR (R201). -/
def execBar (d a b : Field) : State → Host.Outcome State Fault Refusal :=
  execWord 0xD7 d a b bodyBar

/-- BARQ (R201). -/
def execBarq (d a b : Field) : State → Host.Outcome State Fault Refusal :=
  execWord 0xD8 d a b bodyBarq

/-- SETM (R203). -/
def execSetm (d a b : Field) : State → Host.Outcome State Fault Refusal :=
  execWord 0xD9 d a b bodySetm

/-- GETM (R203). -/
def execGetm (d a b : Field) : State → Host.Outcome State Fault Refusal :=
  execWord 0xDA d a b bodyGetm

/-- TRAP (R204). -/
def execTrap (d a b : Field) : State → Host.Outcome State Fault Refusal :=
  execWord 0xDB d a b bodyTrap

/-- RTE (R205). -/
def execRte (d a b : Field) : State → Host.Outcome State Fault Refusal :=
  execWord 0xDC d a b bodyRte

/-- SREAD (R207). -/
def execSread (d a b : Field) : State → Host.Outcome State Fault Refusal :=
  execWord 0xDD d a b bodySread

/-- SWRITE (R207). -/
def execSwrite (d a b : Field) : State → Host.Outcome State Fault Refusal :=
  execWord 0xDE d a b bodySwrite

/-- NOP (R198). -/
def execNop (d a b : Field) : State → Host.Outcome State Fault Refusal :=
  execWord 0xDF d a b bodyNop

/-- TRAP #park (R204): TRAP with b = 64. -/
def execTrapPark (d a : Field) : State → Host.Outcome State Fault Refusal :=
  execWord 0xDB d a 64 bodyTrapPark

/-- SWRITE to the invalidate start register (R150, R207): b = 33. -/
def execSwriteInvalidateStart (d a : Field) : State → Host.Outcome State Fault Refusal :=
  execWord 0xDE d a 33 bodyInvalidate

end Sys2Proof.Machine
end

