-- ==== Sys2Proof/Machine/Float.lean ====
section
/-!
DEFINITION. Floating-point instructions, opcodes 0x30 to 0x4F (R225 to R236).
-/
namespace Sys2Proof.Machine

/-- A 32-bit result of a floating-point computation. -/
def FRes.out (r : FRes) : LaneOut := out32 (BitVec.ofNat 32 r.bits) (BitVec.ofNat 32 r.flags)
/-- A 64-bit result of a floating-point computation. -/
def FRes.out64 (r : FRes) : LaneOut := { val := BitVec.ofNat 64 r.bits, flags := BitVec.ofNat 32 r.flags }

/-- An integer result of `w` bits. -/
def outInt (w : Nat) (r : Int × Nat) : LaneOut :=
  { val := BitVec.ofNat 64 (patternOf w r.1), flags := BitVec.ofNat 32 r.2 }

def LaneIn.fx (i : LaneIn) : Nat := i.xw.toNat
def LaneIn.fy (i : LaneIn) : Nat := i.yw.toNat
def LaneIn.fz (i : LaneIn) : Nat := i.zw.toNat
/-- The overflow policy for a register destination: capture acts as saturate (R82). -/
def LaneIn.policy (i : LaneIn) : Nat := min (modePolicy i.mode) 1

/-! ### What each form computes in a lane -/

def fnFadd (i : LaneIn) : LaneOut := (fAdd fp32 i.round i.fx i.fy).out
def fnFsub (i : LaneIn) : LaneOut := (fSub fp32 i.round i.fx i.fy).out
def fnFmul (i : LaneIn) : LaneOut := (fMul fp32 i.round i.fx i.fy).out
def fnFfma (i : LaneIn) : LaneOut := (fFma fp32 i.round i.fx i.fy i.fz).out
def fnFmin (i : LaneIn) : LaneOut := (fMinMax fp32 false i.fx i.fy).out
def fnFmax (i : LaneIn) : LaneOut := (fMinMax fp32 true i.fx i.fy).out
def fnFcmpEq (i : LaneIn) : LaneOut := (fCmp fp32 .eq i.fx i.fy).out
def fnFcmpLt (i : LaneIn) : LaneOut := (fCmp fp32 .lt i.fx i.fy).out
def fnFcmpLe (i : LaneIn) : LaneOut := (fCmp fp32 .le i.fx i.fy).out
def fnFcmpUo (i : LaneIn) : LaneOut := (fCmp fp32 .uo i.fx i.fy).out
/-- The rounding that #n of FRND and DRND selects (R229). -/
def LaneIn.roundSel (i : LaneIn) : Nat := if i.n == 5 then i.round else i.n
def fnFrnd (i : LaneIn) : LaneOut := (fRound fp32 i.roundSel i.fx).out
def fnFfrc (i : LaneIn) : LaneOut := (fFrac fp32 i.fx).out
/-- FCLASS: #n names the format of a (R230). -/
def fnFclass (i : LaneIn) : LaneOut :=
  out32 (BitVec.ofNat 32 (match i.n with
    | 0 => fClass fp32 i.fx
    | 1 => fClass fp16 (i.fx % 65536)
    | 2 => fClass bf16 (i.fx % 65536)
    | _ => fClass fp64 i.x.toNat))
def fnFldexp (i : LaneIn) : LaneOut := (fLdexp fp32 i.round i.fx i.yw.toInt).out

/-- The integer types that #n of CVTI and CVTF names (R231). -/
def cvtType (n : Nat) : IntTy :=
  match n with
  | 0 => ⟨8, false⟩ | 1 => ⟨8, true⟩ | 2 => ⟨16, false⟩ | 3 => ⟨16, true⟩ | 4 => ⟨32, false⟩ | _ => ⟨32, true⟩
def fnCvti (i : LaneIn) : LaneOut := outInt 32 (fToInt fp32 (cvtType i.n) i.round i.fx)
def fnCvtf (i : LaneIn) : LaneOut := (intToF fp32 i.round ((cvtType i.n).view i.fx)).out

/-- CVTH: #0 to #3 write one half of d and keep the other; #4 to #7 widen a half of a (R232). -/
def fnCvth (i : LaneIn) : LaneOut :=
  let half := if i.n % 4 < 2 then fp16 else bf16
  if i.n < 4 then
    let r := fConv fp32 half i.round i.policy i.fx
    let z := i.fz
    { (FRes.out ⟨if i.n % 2 == 0 then z / 65536 * 65536 + r.bits else r.bits * 65536 + z % 65536, r.flags⟩) with }
  else (fConv half fp32 i.round 0 (if i.n % 2 == 0 then i.fx % 65536 else i.fx / 65536)).out

/-- CVTW (R233). -/
def fnCvtw (i : LaneIn) : LaneOut :=
  match i.n with
  | 0 => outInt 64 (fToInt fp64 ⟨64, true⟩ i.round i.x.toNat)
  | 1 => outInt 64 (fToInt fp64 ⟨64, false⟩ i.round i.x.toNat)
  | 2 => (intToF fp64 i.round i.x.toInt).out64
  | 3 => (intToF fp64 i.round i.x.toNat).out64
  | 4 => (intToF fp32 i.round i.x.toInt).out
  | 5 => (intToF fp32 i.round i.x.toNat).out
  | 6 => outInt 64 (fToInt fp32 ⟨64, true⟩ i.round i.fx)
  | _ => outInt 64 (fToInt fp32 ⟨64, false⟩ i.round i.fx)

/-- A packed form: two elements of the mode's element type, with their flags together (R235). -/
def packed (i : LaneIn) (f : Fmt → Nat → Nat → Nat → FRes) : LaneOut :=
  let e := if modeElem i.mode == 1 then fp16 else bf16
  let lo := f e (i.fx % 65536) (i.fy % 65536) (i.fz % 65536)
  let hi := f e (i.fx / 65536) (i.fy / 65536) (i.fz / 65536)
  FRes.out ⟨hi.bits * 65536 + lo.bits, hi.flags ||| lo.flags⟩
def fnHadd2 (i : LaneIn) : LaneOut := packed i fun e x y _ => fAdd e i.round x y
def fnHmul2 (i : LaneIn) : LaneOut := packed i fun e x y _ => fMul e i.round x y
def fnHfma2 (i : LaneIn) : LaneOut := packed i fun e x y z => fFma e i.round x y z
def fnHmin2 (i : LaneIn) : LaneOut := packed i fun e x y _ => fMinMax e false x y
def fnHmax2 (i : LaneIn) : LaneOut := packed i fun e x y _ => fMinMax e true x y

def fnDadd (i : LaneIn) : LaneOut := (fAdd fp64 i.round i.x.toNat i.y.toNat).out64
def fnDmul (i : LaneIn) : LaneOut := (fMul fp64 i.round i.x.toNat i.y.toNat).out64
def fnDfma (i : LaneIn) : LaneOut := (fFma fp64 i.round i.x.toNat i.y.toNat i.z.toNat).out64
def fnDmin (i : LaneIn) : LaneOut := (fMinMax fp64 false i.x.toNat i.y.toNat).out64
def fnDmax (i : LaneIn) : LaneOut := (fMinMax fp64 true i.x.toNat i.y.toNat).out64
def fnDcmpEq (i : LaneIn) : LaneOut := (fCmp fp64 .eq i.x.toNat i.y.toNat).out
def fnDcmpLt (i : LaneIn) : LaneOut := (fCmp fp64 .lt i.x.toNat i.y.toNat).out

/-- DCVT (R234). -/
def fnDcvt (i : LaneIn) : LaneOut :=
  match i.n with
  | 0 => (fConv fp32 fp64 i.round 0 i.fx).out64
  | 1 => (fConv fp64 fp32 i.round i.policy i.x.toNat).out
  | 2 => outInt 32 (fToInt fp64 ⟨32, true⟩ i.round i.x.toNat)
  | 3 => outInt 32 (fToInt fp64 ⟨32, false⟩ i.round i.x.toNat)
  | 4 => (intToF fp64 i.round i.xw.toInt).out64
  | _ => (intToF fp64 i.round i.xw.toNat).out64
def fnDrnd (i : LaneIn) : LaneOut := (fRound fp64 i.roundSel i.x.toNat).out64

/-! ### The meanings -/

/-- FADD (R226). -/
def execFadd (d a b : Field) : State → Host.Outcome State Fault Refusal :=
  execWord 0x30 d a b (Pkg.Exe.short fnFadd)

/-- FSUB (R226). -/
def execFsub (d a b : Field) : State → Host.Outcome State Fault Refusal :=
  execWord 0x31 d a b (Pkg.Exe.short fnFsub)

/-- FMUL (R226). -/
def execFmul (d a b : Field) : State → Host.Outcome State Fault Refusal :=
  execWord 0x32 d a b (Pkg.Exe.short fnFmul)

/-- FFMA (R226). -/
def execFfma (d a b : Field) : State → Host.Outcome State Fault Refusal :=
  execWord 0x33 d a b (Pkg.Exe.short fnFfma)

/-- FMIN (R227). -/
def execFmin (d a b : Field) : State → Host.Outcome State Fault Refusal :=
  execWord 0x34 d a b (Pkg.Exe.short fnFmin)

/-- FMAX (R227). -/
def execFmax (d a b : Field) : State → Host.Outcome State Fault Refusal :=
  execWord 0x35 d a b (Pkg.Exe.short fnFmax)

/-- FCMP.EQ (R228). -/
def execFcmpEq (d a b : Field) : State → Host.Outcome State Fault Refusal :=
  execWord 0x36 d a b (Pkg.Exe.short fnFcmpEq)

/-- FCMP.LT (R228). -/
def execFcmpLt (d a b : Field) : State → Host.Outcome State Fault Refusal :=
  execWord 0x37 d a b (Pkg.Exe.short fnFcmpLt)

/-- FCMP.LE (R228). -/
def execFcmpLe (d a b : Field) : State → Host.Outcome State Fault Refusal :=
  execWord 0x38 d a b (Pkg.Exe.short fnFcmpLe)

/-- FCMP.UO (R228). -/
def execFcmpUo (d a b : Field) : State → Host.Outcome State Fault Refusal :=
  execWord 0x39 d a b (Pkg.Exe.short fnFcmpUo)

/-- FRND (R229). -/
def execFrnd (d a b : Field) : State → Host.Outcome State Fault Refusal :=
  execWord 0x3A d a b (Pkg.Exe.short fnFrnd)

/-- FFRC (R229). -/
def execFfrc (d a b : Field) : State → Host.Outcome State Fault Refusal :=
  execWord 0x3B d a b (Pkg.Exe.short fnFfrc)

/-- FCLASS (R230). -/
def execFclass (d a b : Field) : State → Host.Outcome State Fault Refusal :=
  execWord 0x3C d a b (Pkg.Exe.short fnFclass)

/-- FLDEXP (R226). -/
def execFldexp (d a b : Field) : State → Host.Outcome State Fault Refusal :=
  execWord 0x3D d a b (Pkg.Exe.short fnFldexp)

/-- CVTI (R231). -/
def execCvti (d a b : Field) : State → Host.Outcome State Fault Refusal :=
  execWord 0x3E d a b (Pkg.Exe.short fnCvti)

/-- CVTF (R231). -/
def execCvtf (d a b : Field) : State → Host.Outcome State Fault Refusal :=
  execWord 0x3F d a b (Pkg.Exe.short fnCvtf)

/-- CVTH (R232). -/
def execCvth (d a b : Field) : State → Host.Outcome State Fault Refusal :=
  execWord 0x40 d a b (Pkg.Exe.short fnCvth)

/-- CVTW (R233). -/
def execCvtw (d a b : Field) : State → Host.Outcome State Fault Refusal :=
  execWord 0x41 d a b (Pkg.Exe.short fnCvtw)

/-- HADD2 (R235). -/
def execHadd2 (d a b : Field) : State → Host.Outcome State Fault Refusal :=
  execWord 0x42 d a b (Pkg.Exe.short fnHadd2)

/-- HMUL2 (R235). -/
def execHmul2 (d a b : Field) : State → Host.Outcome State Fault Refusal :=
  execWord 0x43 d a b (Pkg.Exe.short fnHmul2)

/-- HFMA2 (R235). -/
def execHfma2 (d a b : Field) : State → Host.Outcome State Fault Refusal :=
  execWord 0x44 d a b (Pkg.Exe.short fnHfma2)

/-- HMIN2 (R235). -/
def execHmin2 (d a b : Field) : State → Host.Outcome State Fault Refusal :=
  execWord 0x45 d a b (Pkg.Exe.short fnHmin2)

/-- HMAX2 (R235). -/
def execHmax2 (d a b : Field) : State → Host.Outcome State Fault Refusal :=
  execWord 0x46 d a b (Pkg.Exe.short fnHmax2)

/-- DADD (R226). -/
def execDadd (d a b : Field) : State → Host.Outcome State Fault Refusal :=
  execWord 0x47 d a b (Pkg.Exe.short fnDadd)

/-- DMUL (R226). -/
def execDmul (d a b : Field) : State → Host.Outcome State Fault Refusal :=
  execWord 0x48 d a b (Pkg.Exe.short fnDmul)

/-- DFMA (R226). -/
def execDfma (d a b : Field) : State → Host.Outcome State Fault Refusal :=
  execWord 0x49 d a b (Pkg.Exe.short fnDfma)

/-- DMIN (R227). -/
def execDmin (d a b : Field) : State → Host.Outcome State Fault Refusal :=
  execWord 0x4A d a b (Pkg.Exe.short fnDmin)

/-- DMAX (R227). -/
def execDmax (d a b : Field) : State → Host.Outcome State Fault Refusal :=
  execWord 0x4B d a b (Pkg.Exe.short fnDmax)

/-- DCMP.EQ (R228). -/
def execDcmpEq (d a b : Field) : State → Host.Outcome State Fault Refusal :=
  execWord 0x4C d a b (Pkg.Exe.short fnDcmpEq)

/-- DCMP.LT (R228). -/
def execDcmpLt (d a b : Field) : State → Host.Outcome State Fault Refusal :=
  execWord 0x4D d a b (Pkg.Exe.short fnDcmpLt)

/-- DCVT (R234). -/
def execDcvt (d a b : Field) : State → Host.Outcome State Fault Refusal :=
  execWord 0x4E d a b (Pkg.Exe.short fnDcvt)

/-- DRND (R229). -/
def execDrnd (d a b : Field) : State → Host.Outcome State Fault Refusal :=
  execWord 0x4F d a b (Pkg.Exe.short fnDrnd)

end Sys2Proof.Machine
end

