-- ==== Sys2Proof/Machine/SpecialFn.lean ====
section
/-!
DEFINITION. The special functions of R238 as correctly rounded functions of FP32 patterns. Each value is computed
as an integer multiple of a small unit, below the true value by less than the guard, and handed to the one
rounding with the sticky rest set: no value outside the exact cases is representable, so it is never exact
(log entry 9 states the working precision).
-/
namespace Sys2Proof.Machine

/-- Fraction bits of the working precision. -/
def fnBits : Nat := 640
/-- Bound on the error of every series, in units of the working precision. -/
def fnGuard : Nat := 2 ^ 12

/-- term − term·r²/((k+1)(k+2)) + …, at scale 2^p: the alternating Taylor tail of sine and cosine. -/
def altTail (p r2 : Nat) : Nat → Nat → Nat → Int
  | 0, _, _ => 0
  | n + 1, k, term => (term : Int) - altTail p r2 n (k + 2) (((term * r2) >>> p) / ((k + 1) * (k + 2)))

/-- Σ term·r^i / ((k+1)…(k+i)), at scale 2^p: the exponential series. -/
def expTail (p r : Nat) : Nat → Nat → Nat → Nat
  | 0, _, _ => 0
  | n + 1, k, term => term + expTail p r n (k + 1) (((term * r) >>> p) / (k + 1))

/-- Σ z^(2i+1)/(2i+1), at scale 2^p: the inverse hyperbolic tangent series. -/
def atanhTail (p z2 : Nat) : Nat → Nat → Nat → Nat
  | 0, _, _ => 0
  | n + 1, k, zk => zk / k + atanhTail p z2 n (k + 2) ((zk * z2) >>> p)

/-- Σ (−1)^i / ((2i+1) d^(2i+1)), at scale 2^p: the inverse tangent of 1/d. -/
def atanTail (d2 : Nat) : Nat → Nat → Nat → Int
  | 0, _, _ => 0
  | n + 1, k, dk => ((dk / k : Nat) : Int) - atanTail d2 n (k + 2) (dk / d2)

/-- ln 2 at scale 2^fnBits: 2 atanh(1/3). -/
def ln2Fix : Nat :=
  let z := 2 ^ fnBits / 3
  2 * atanhTail fnBits (2 ^ fnBits / 9) 220 1 z

/-- π/2 at scale 2^(fnBits + 128), by Machin's formula: π/4 = 4 atan(1/5) − atan(1/239). -/
def halfPiFix : Nat :=
  let s := 2 ^ (fnBits + 128)
  (2 * (4 * atanTail 25 200 1 (s / 5) - atanTail 57121 60 1 (s / 239))).toNat

/-- e^r at scale 2^fnBits for 0 ≤ r < 1. -/
def expFix (r : Nat) : Nat := expTail fnBits r 160 0 (2 ^ fnBits)

/-- A value just below `a` units of 2^-fnBits, times 2^n. -/
def belowFix (neg : Bool) (a : Int) (n : Int) : Exact :=
  ⟨neg, (a - (fnGuard : Int)).toNat, n - (fnBits : Int), true⟩

/-- Is the magnitude below 2^-60? -/
def tinyArg (x : Nat) : Bool := decide (fp32.mag x < (127 - 60) * 2 ^ 23)

/-- A value just below the magnitude of a finite pattern. -/
def justBelow (x : Nat) : Exact :=
  let a := exactOf fp32 x
  ⟨a.neg, a.m * 2 ^ 200 - 1, a.e - 200, true⟩

/-- A value just below 1. -/
def belowOne (neg : Bool) : Exact := ⟨neg, 2 ^ 200 - 1, -200, true⟩

/-- FEXP2 (R238). -/
def fExp2 (mode x : Nat) : FRes :=
  let a := exactOf fp32 x
  if fp32.isNaN x then nanOut fp32 [x]
  else if fp32.isInf x then ⟨if fp32.isNeg x then 0 else fp32.inf, 0⟩
  else if fp32.isZero x then ⟨0x3F800000, 0⟩
  else if fp32.mag x ≥ (127 + 10) * 2 ^ 23 then
    (if a.neg then roundTo fp32 mode ⟨false, 1, -2000, false⟩ else roundTo fp32 mode ⟨false, 1, 2000, false⟩)
  else if tinyArg x then
    (if a.neg then roundTo fp32 mode (belowOne false) else roundTo fp32 mode ⟨false, 2 ^ 200, -200, true⟩)
  else
    -- x = n + r with 0 ≤ r < 1, r at scale 2^fnBits
    let v := a.intAt (-(fnBits : Int))
    let n := v / (2 ^ fnBits : Int)
    let r := (v % (2 ^ fnBits : Int)).toNat
    if r = 0 then roundTo fp32 mode ⟨false, 1, n, false⟩
    else roundTo fp32 mode (belowFix false (expFix ((r * ln2Fix) >>> fnBits)) n)

/-- FLOG2 (R238). -/
def fLog2 (mode x : Nat) : FRes :=
  if fp32.isNaN x then nanOut fp32 [x]
  else if fp32.isZero x then ⟨fp32.signed true fp32.inf, flDZ⟩
  else if fp32.isNeg x then invalid fp32
  else if fp32.isInf x then ⟨x, 0⟩
  else
    let a := exactOf fp32 x
    let k := bitLen a.m - 1
    let n : Int := a.e + (k : Int)
    if a.m = 2 ^ k then intToF fp32 mode n
    else
      -- m / 2^k = 1 + f; ln(1 + f) = 2 atanh(f / (2 + f))
      let z := (a.m - 2 ^ k) * 2 ^ fnBits / (a.m + 2 ^ k)
      let l := 2 * atanhTail fnBits ((z * z) >>> fnBits) 220 1 z
      let v : Int := n * (2 ^ fnBits : Int) + ((l * 2 ^ fnBits / ln2Fix : Nat) : Int)
      roundTo fp32 mode (belowFix (decide (v < 0)) v.natAbs 0)

/-- sin r and cos r at scale 2^fnBits for 0 ≤ r ≤ π/2. -/
def sinFix (r : Nat) : Int := altTail fnBits ((r * r) >>> fnBits) 90 1 r
def cosFix (r : Nat) : Int := altTail fnBits ((r * r) >>> fnBits) 90 0 (2 ^ fnBits)

/-- FSIN (`cosine = false`) and FCOS (R238). -/
def fSinCos (cosine : Bool) (mode x : Nat) : FRes :=
  if fp32.isNaN x then nanOut fp32 [x]
  else if fp32.isInf x then invalid fp32
  else if fp32.isZero x then ⟨if cosine then 0x3F800000 else x, 0⟩
  else if tinyArg x then
    (if cosine then roundTo fp32 mode (belowOne false) else roundTo fp32 mode (justBelow x))
  else
    let a := exactOf fp32 x
    let v := (({ a with neg := false } : Exact).intAt (-((fnBits + 128 : Nat) : Int))).toNat
    let q := v / halfPiFix
    let r := (v % halfPiFix) >>> 128
    let q := if cosine then q + 1 else q
    let val := if q % 2 = 0 then sinFix r else cosFix r
    let neg := (decide (q % 4 ≥ 2)) != (!cosine && a.neg)
    roundTo fp32 mode (belowFix (neg != decide (val < 0)) val.natAbs 0)

/-- FTANH (R238). -/
def fTanh (mode x : Nat) : FRes :=
  let a := exactOf fp32 x
  if fp32.isNaN x then nanOut fp32 [x]
  else if fp32.isInf x then ⟨fp32.signed (fp32.isNeg x) 0x3F800000, 0⟩
  else if fp32.isZero x then ⟨x, 0⟩
  else if tinyArg x then roundTo fp32 mode (justBelow x)
  else if fp32.mag x ≥ (127 + 6) * 2 ^ 23 then roundTo fp32 mode (belowOne a.neg)
  else
    -- e^(-2y) = e^(r - 2y') with 2y = n ln 2 - r, 0 ≤ r < ln 2
    let y2 := 2 * (({ a with neg := false } : Exact).intAt (-(fnBits : Int))).toNat
    let n := y2 / ln2Fix + 1
    let w := expFix (n * ln2Fix - y2) >>> n
    let one := 2 ^ fnBits
    roundTo fp32 mode (belowFix a.neg ((one - w) * one / (one + w) : Nat) 0)

end Sys2Proof.Machine
end

