-- ==== Sys2Proof/Machine/Special.lean ====
section
/-!
DEFINITION. Special-function instructions and activation tables, opcodes 0x50 to 0x5D (R237 to R245).
-/
namespace Sys2Proof.Machine

open Pkg (Exe)

def fp32One : Nat := 0x3F800000
def fp64One : Nat := 0x3FF0000000000000

def fnFrcp (i : LaneIn) : LaneOut := (fDiv fp32 i.round fp32One i.fx).out
def fnFrsq (i : LaneIn) : LaneOut := (fRsqrt fp32 i.round i.fx).out
def fnFsqrt (i : LaneIn) : LaneOut := (fSqrt fp32 i.round i.fx).out
def fnFexp2 (i : LaneIn) : LaneOut := (fExp2 i.round i.fx).out
def fnFlog2 (i : LaneIn) : LaneOut := (fLog2 i.round i.fx).out
def fnFsin (i : LaneIn) : LaneOut := (fSinCos false i.round i.fx).out
def fnFcos (i : LaneIn) : LaneOut := (fSinCos true i.round i.fx).out
def fnFtanh (i : LaneIn) : LaneOut := (fTanh i.round i.fx).out
def fnFdiv (i : LaneIn) : LaneOut := (fDiv fp32 i.round i.fx i.fy).out
def fnDrcp (i : LaneIn) : LaneOut := (fDiv fp64 i.round fp64One i.x.toNat).out64
def fnDsqrt (i : LaneIn) : LaneOut := (fSqrt fp64 i.round i.x.toNat).out64
def fnDdiv (i : LaneIn) : LaneOut := (fDiv fp64 i.round i.x.toNat i.y.toNat).out64

/-! ### Activation tables (R240 to R243) -/

/-- One evaluation of a slot (R242): RNE in every step, and only NV and OF are set. -/
def actEval (slot : Option ActSlot) (x : Nat) : FRes :=
  let keep (fl : Nat) : Nat := fl &&& (flNV ||| flOF)
  match slot with
  | none => ⟨fp32.canon, flNV⟩
  | some s =>
    let k (i : Nat) : Nat := (s.knots.getD i 0).toNat
    let segment (i : Nat) (f : FRes) (base fl : Nat) : FRes :=
      let diff := fSub fp32 0 (k (i + 1)) (k i)
      let r := fFma fp32 0 diff.bits f.bits base
      ⟨r.bits, keep (fl ||| f.flags ||| diff.flags ||| r.flags)⟩
    if fp32.isNaN x then ⟨fp32.quiet x, if fp32.isSNaN x then flNV else 0⟩
    else
      let t := fSub fp32 0 x s.lo.toNat
      let u := fMul fp32 0 t.bits s.inv.toNat
      let fl := t.flags ||| u.flags
      let below := (fCmp fp32 .lt u.bits 0).bits == 1
      let above := (fCmp fp32 .lt 0x43800000 u.bits).bits == 1
      if below || above then
        if !s.linear then ⟨if below then k 0 else k 256, keep fl⟩
        else if below then segment 0 ⟨u.bits, 0⟩ (k 0) fl
        else segment 255 (fSub fp32 0 u.bits 0x43800000) (k 256) fl
      else
        let i := min (fToInt fp32 ⟨32, false⟩ 2 u.bits).1.toNat 255
        segment i ⟨(fSub fp32 0 u.bits (intToF fp32 0 i).bits).bits, 0⟩ (k i) fl

/-- The slot that a record loads: none where it leaves the slot invalid (R241). -/
def actSlotOf (r : List Byte) : Option ActSlot :=
  let word (o : Nat) : Nat := leNat ((r.drop o).take 4)
  let lo := word 0
  let hi := word 4
  let w := (fSub fp32 0 hi lo).bits
  let inv := (fDiv fp32 0 0x43800000 w).bits
  if !fp32.isFinite lo || !fp32.isFinite hi || (fCmp fp32 .lt lo hi).bits != 1
      || !fp32.isFinite inv || fp32.isZero inv then none
  else some { lo := BitVec.ofNat 32 lo, hi := BitVec.ofNat 32 hi, linear := word 8 % 2 == 1, inv := BitVec.ofNat 32 inv,
              knots := (List.range 257).map fun m => BitVec.ofNat 32 (word (16 + 4 * m)) }

namespace Pkg

/-- The contents of the slot that a strand's mode selects. -/
def actSlot (p : Pkg) (sid : Nat) (st : Strand) : Option ActSlot :=
  (p.core (sidCk sid)).acts.get? (modeActSlot st.mode)

/-- Does another resident strand of the core select a slot (R241)? -/
def slotSelected (p : Pkg) (sid slot : Nat) : Bool :=
  p.strands.any fun e => e.1 != sid && sidCk e.1 == sidCk sid && !e.2.finished && modeActSlot e.2.mode == slot

/-- Write a slot from a record (R241). -/
def loadSlot (p : Pkg) (sid slot : Nat) (r : Option (List Byte)) : Pkg :=
  p.updCore (sidCk sid) fun c =>
    match r.bind actSlotOf with
    | some s => { c with acts := c.acts.set slot s }
    | none => { c with acts := c.acts.erase slot }

end Pkg

/-- ACT (R242). -/
def bodyAct (x : Exe) : Eff :=
  let slot := x.p.actSlot x.sid x.st
  x.laneLater (fun i => (actEval slot i.fx).out)

/-- ACTLD (R241): the checks of the record, the park while another strand selects the slot, then the load. -/
def bodyActld (x : Exe) : Eff :=
  let va := (x.env.uniform64 x.a).toNat
  Pkg.withGlobal x 16 needRead ((List.range 66).map fun k => ⟨x.st.low, va + 16 * k⟩) fun p ls =>
    if !x.st.truss && p.slotSelected x.sid x.b then .park p (.actSlot x.b)
    else if modeActSlot x.st.mode == x.b && x.st.ops.any (fun o => Pkg.opSetsCf o.kind) then .hold
    else p.issueOp x [] true (.actLoad x.b ls)

/-- FRCP (R238). -/
def execFrcp (d a b : Field) : State → Host.Outcome State Fault Refusal :=
  execWord 0x50 d a b (Pkg.Exe.laneLater fnFrcp)

/-- FRSQ (R238). -/
def execFrsq (d a b : Field) : State → Host.Outcome State Fault Refusal :=
  execWord 0x51 d a b (Pkg.Exe.laneLater fnFrsq)

/-- FSQRT (R238). -/
def execFsqrt (d a b : Field) : State → Host.Outcome State Fault Refusal :=
  execWord 0x52 d a b (Pkg.Exe.laneLater fnFsqrt)

/-- FEXP2 (R238). -/
def execFexp2 (d a b : Field) : State → Host.Outcome State Fault Refusal :=
  execWord 0x53 d a b (Pkg.Exe.laneLater fnFexp2)

/-- FLOG2 (R238). -/
def execFlog2 (d a b : Field) : State → Host.Outcome State Fault Refusal :=
  execWord 0x54 d a b (Pkg.Exe.laneLater fnFlog2)

/-- FSIN (R238). -/
def execFsin (d a b : Field) : State → Host.Outcome State Fault Refusal :=
  execWord 0x55 d a b (Pkg.Exe.laneLater fnFsin)

/-- FCOS (R238). -/
def execFcos (d a b : Field) : State → Host.Outcome State Fault Refusal :=
  execWord 0x56 d a b (Pkg.Exe.laneLater fnFcos)

/-- FTANH (R238). -/
def execFtanh (d a b : Field) : State → Host.Outcome State Fault Refusal :=
  execWord 0x57 d a b (Pkg.Exe.laneLater fnFtanh)

/-- FDIV (R238). -/
def execFdiv (d a b : Field) : State → Host.Outcome State Fault Refusal :=
  execWord 0x58 d a b (Pkg.Exe.laneLater fnFdiv)

/-- ACT (R242). -/
def execAct (d a b : Field) : State → Host.Outcome State Fault Refusal :=
  execWord 0x59 d a b bodyAct

/-- ACTLD (R241). -/
def execActld (d a b : Field) : State → Host.Outcome State Fault Refusal :=
  execWord 0x5A d a b bodyActld

/-- DRCP (R238). -/
def execDrcp (d a b : Field) : State → Host.Outcome State Fault Refusal :=
  execWord 0x5B d a b (Pkg.Exe.laneLater fnDrcp)

/-- DSQRT (R238). -/
def execDsqrt (d a b : Field) : State → Host.Outcome State Fault Refusal :=
  execWord 0x5C d a b (Pkg.Exe.laneLater fnDsqrt)

/-- DDIV (R238). -/
def execDdiv (d a b : Field) : State → Host.Outcome State Fault Refusal :=
  execWord 0x5D d a b (Pkg.Exe.laneLater fnDdiv)

end Sys2Proof.Machine
end

