-- ==== Sys2Proof/Machine/Shapes.lean ====
section
/-!
DEFINITION. Shape records, shape forms and sweeps, opcodes 0xB0 to 0xBD (R298 to R307), and outlier capture (R83, R84).
-/
namespace Sys2Proof.Machine

open Pkg (Exe)

/-! ### Shape records (R298) -/

/-- A shape record with its fields apart. -/
structure Shape where
  base : Nat
  space : Nat
  fmt : Nat
  rank : Nat
  bcast : Nat
  swz : Nat
  ext : List Nat
  stride : List Int
  ctr : List Nat
  handle : Nat
  reserved : Nat
  deriving DecidableEq, Repr

def shapeOf (r : BitVec 512) : Shape :=
  let f := ldField r
  { base := f 63 0, space := f 67 64, fmt := f 71 68, rank := f 74 72 + 1, bcast := f 79 75, swz := f 83 80,
    ext := (List.range 5).map fun d => f (24 * d + 119) (24 * d + 96),
    stride := (List.range 5).map fun d => signedOf 32 (f (32 * d + 247) (32 * d + 216)),
    ctr := (List.range 5).map fun d => f (24 * d + 399) (24 * d + 376),
    handle := f 511 496, reserved := f 95 84 }

namespace Shape

/-- Extent of a dimension; 1 at or beyond the rank. -/
def extent (s : Shape) (d : Nat) : Nat := if d < s.rank then s.ext.getD d 0 else 1
def counter (s : Shape) (d : Nat) : Nat := s.ctr.getD d 0
/-- Stride of a dimension; 0 where the dimension contributes index 0. -/
def step (s : Shape) (d : Nat) : Int := if d < s.rank && !bit s.bcast d then s.stride.getD d 0 else 0
def esize (s : Shape) : Nat := elemBytes s.fmt
def elems (s : Shape) : Nat := (List.range 5).foldl (fun n d => n * s.extent d) 1

/-- Row bytes of a swizzle code (R252, R298). -/
def rowBytes (code : Nat) : Nat := match code with | 1 => 128 | 2 => 256 | _ => 512

/-- The offset of the element at an index, in elements. -/
def offset (s : Shape) (ix : List Nat) : Int :=
  (List.range 5).foldl (fun n d => n + s.step d * (ix.getD d 0 : Nat)) 0

/-- The byte address or offset of an element (R298). -/
def addr (s : Shape) (ix : List Nat) : Nat :=
  let base := if s.space == 0 then s.base else s.base % 2 ^ 32
  let a := ((base : Int) + s.esize * s.offset ix)
  let a := if s.space == 0 then (a % 2 ^ 64).toNat else a.toNat
  swizzleBy s.swz s.esize a
where
  swizzleBy (code w a : Nat) : Nat := if code == 4 then swizzle 3 w a else swizzle code w a

/-- A field value that R298 marks illegal. `counters` says whether the index counters are the record's own. -/
def illegal (s : Shape) (acc5 counters truss : Bool) : Bool :=
  s.reserved != 0 || 5 < s.space || s.space == 4 || (s.space == 5 && !acc5)
    || elemBytes s.fmt == 0 || 5 < s.rank
    || (List.range s.rank).any (fun d => s.ext.getD d 0 == 0)
    || (s.space != 5 && s.swz != 0 && (s.space < 2 || !(s.swz == 1 || s.swz == 2 || s.swz == 4)))
    || (s.space == 3 && s.base / 2 ^ (if truss then 34 else 32) != 0)
    || (counters && (List.range 5).any (fun d => if d < s.rank then s.extent d ≤ s.counter d else s.counter d != 0))

/-- The index of a linear position under five extents, dimension 0 fastest. -/
def indexOf (ext : Nat → Nat) (e : Nat) : List Nat :=
  ((List.range 5).foldl (fun (acc : List Nat × Nat) d => (acc.1 ++ [acc.2 % ext d], acc.2 / ext d)) ([], e)).1

/-- The linear position of an index. -/
def linear (ext : Nat → Nat) (ix : Nat → Nat) : Nat :=
  ((List.range 5).foldl (fun (acc : Nat × Nat) d => (acc.1 + acc.2 * ix d, acc.2 * ext d)) (0, 1)).1

/-- The least and one past the greatest byte that the shape can touch in a scratchpad, whole rows under a swizzle
code (R299). -/
def span (s : Shape) : Int × Int :=
  let ends (f : Int → Int → Int) : Int :=
    (List.range 5).foldl (fun n d => n + f 0 (s.step d * ((s.extent d : Int) - 1))) 0
  let base : Int := if s.space == 3 then (s.base % 2 ^ 32 : Nat) else s.base
  let lo := base + s.esize * ends min
  let hi := base + s.esize * ends max + s.esize
  if s.swz == 0 then (lo, hi)
  else
    let b : Int := rowBytes s.swz
    (lo / b * b, (hi + b - 1) / b * b)

end Shape

/-- Who uses a shape: its context, its bent, its own crew (none where the base names the crew position), the lease
and launch it runs under, the core whose L1 it goes through, and the place where its translations are cached. -/
structure Agent where
  ctx : Nat
  bent : Nat
  crew : Option Nat
  lease : List LeaseRange
  desc : BitVec 512
  core : Option Nat
  port : TlbHome

/-- A strand as the user of a shape. -/
def agentOf (p : Pkg) (sid : Nat) (st : Strand) : Agent :=
  { ctx := sidCtx sid, bent := st.bent, crew := if st.truss then none else some st.crew,
    lease := p.leaseOf st, desc := p.descOf st, core := sidCore sid, port := .core (sidCk sid % 1024) }

/-- The crew position that a shape in space 3 addresses (R99). -/
def Shape.crewOf (s : Shape) (g : Agent) : Nat := g.crew.getD (bits s.base 33 32)

/-- The size of the allocation that a shape lies in. -/
def Shape.allocation (p : Pkg) (g : Agent) (s : Shape) : Nat :=
  match s.space with
  | 1 => p.shareOf g.ctx
  | 2 => ldQspad g.desc
  | _ => if (p.crew? g.bent (s.crewOf g)).isSome then ldKspad g.desc else 0

/-- The location of a byte of a scratchpad shape. -/
def Shape.locAt (g : Agent) (s : Shape) (off : Nat) : Loc :=
  match s.space with
  | 1 => .die g.ctx off
  | 2 => .clus g.bent off
  | _ => .core g.bent (s.crewOf g) off

/-- The checks of R299 over the operands in order: Misaligned in any, then Allocation Bound in any. No lane forms an address here,
and the spec does not say which lanes and which address the record names: the On lanes and the base of the shape, the model's
choice (log entry 104). -/
def checkShapes (p : Pkg) (g : Agent) (lanes : List Nat) (ss : List Shape) (k : Eff) : Eff :=
  match ss.find? fun s => s.space != 5 && s.base % s.esize != 0 with
  | some s => .trap p { cause := 0x05, lanes := lanes, addr := s.base }
  | none =>
    match ss.find? fun s => 1 ≤ s.space && s.space ≤ 3 && (s.span.1 < 0 || (s.allocation p g : Int) < s.span.2) with
    | some s => .trap p { cause := 0x0E, lanes := lanes, addr := s.base, extra0 := s.space, extra1 := s.allocation p g }
    | none => k

/-! ### Shape forms (R300) -/

/-- Shape register `n` of a strand. -/
def Strand.shape (st : Strand) (n : Nat) : BitVec 512 := st.sh.get n 0
def Strand.putShape (st : Strand) (n : Nat) (r : BitVec 512) : Strand := { st with sh := st.sh.set n r }

/-- The bits of a field selector: high and low. -/
def shField (f : Nat) : Nat × Nat :=
  if f == 0 then (63, 0) else if f == 1 then (67, 64) else if f == 2 then (71, 68) else if f == 3 then (74, 72)
  else if f == 4 then (79, 75) else if f == 5 then (83, 80) else if f == 6 then (511, 496)
  else if f ≤ 12 then (24 * (f - 8) + 119, 24 * (f - 8) + 96)
  else if f ≤ 20 then (32 * (f - 16) + 247, 32 * (f - 16) + 216)
  else (24 * (f - 24) + 399, 24 * (f - 24) + 376)

def setField512 (r : BitVec 512) (hl : Nat × Nat) (v : Nat) : BitVec 512 := BitVec.ofNat 512 (setBits r.toNat hl.1 hl.2 v)

/-- SHSET: Illegal Operand for a value that does not fit its field. -/
def bodyShset (x : Exe) : Eff :=
  let f := x.b
  let v := if f == 0 then (x.env.uniform64 x.a).toNat else (x.env.uniform x.a).toNat
  let hl := shField f
  let fits := if f == 0 || (16 ≤ f && f ≤ 20) then true
              else if f == 3 then 1 ≤ v && v ≤ 5 else v < 2 ^ (hl.1 + 1 - hl.2)
  if fits then
    .next (x.p.setStrand x.sid
      (x.st.putShape x.d (setField512 (x.st.shape x.d) hl (if f == 3 then v - 1 else v))))
  else .trap x.p { cause := 0x03, lanes := x.st.onLanes }

/-- SHGET. -/
def bodyShget (x : Exe) : Eff :=
  let hl := shField x.b
  let v := ldField (x.st.shape x.a) hl.1 hl.2
  x.uniformResult (if x.b == 0 then 2 else 1) (BitVec.ofNat 64 (if x.b == 3 then v + 1 else v))

/-- SHIDX: all five index counters become 0. -/
def bodyShidx (x : Exe) : Eff :=
  .next (x.p.setStrand x.sid (x.st.putShape x.d (setField512 (x.st.shape x.d) (495, 376) 0)))

/-- The 64 bytes of a record. -/
def recordBytes (r : BitVec 512) : List Byte := leBytes 64 r.toNat

/-- SHLD and SHST: the location of the 64 bytes, then the operation. -/
def bodyShapeMem (store : Bool) (x : Exe) : Eff :=
  let kind (l : Loc) : OpKind := if store then .shapeStore l (recordBytes (x.st.shape x.d)) else .shapeLoad x.d l
  if x.b == 64 then
    let v := if x.st.truss then (x.env.uniform64 x.a).toNat else (x.env.uniform x.a).toNat
    match x.p.coreTarget x.st v with
    | none => .trap x.p { cause := 0x03, lanes := x.st.onLanes }
    | some t =>
      withScratch x 3 64 [⟨x.st.low, v, t.2.2.1, 64, t.2.2.2, .core t.1 t.2.1 t.2.2.1⟩] fun p _ =>
        p.issueOp x [] false (kind (.core t.1 t.2.1 t.2.2.1))
  else
    Pkg.withGlobal x 64 (if store then needWrite else needRead) [⟨x.st.low, (x.env.uniform64 x.a).toNat⟩] fun p ls =>
      p.issueOp x [] true (kind (ls.head?.getD (.hbm 0)))

/-! ### Outlier lists (R83, R84) -/

/-- The address field of a capture: the virtual address, or the space code over the offset (R83). -/
def captureAddr (s : Shape) (ix : List Nat) : Nat :=
  if s.space == 0 then s.addr ix else s.space * 2 ^ 60 + s.addr ix % 2 ^ 32

namespace Pkg

/-- Why a group or an operand cannot be accessed now. -/
inductive Stall where
  | absent
  | elastic (va : Nat)
  | fail (va cause reason : Nat) (extra0 extra1 : Nat)
  | outside (va : Nat)
  | bad (va : Nat)
  deriving DecidableEq, Repr

def stallOf (c : Checked) : Stall :=
  match c with
  | .ok _ => .absent
  | .outside _ va => .outside va
  | .trap _ va cause reason e0 e1 => .fail va cause reason e0 e1
  | .elastic _ g => .elastic g

/-- One global access of an agent, at a multiple of `align`: its location, or why it cannot take place. -/
def agentLoc (p : Pkg) (g : Agent) (va align : Nat) (n : Need) : Pkg × Except Stall Loc :=
  if va % align != 0 then (p, .error (.fail va 0x05 0 0 0))
  else
    match p.checkGlobal (fun _ => g.port) g.ctx g.lease n [⟨0, va⟩] with
    | (p, .ok (l :: _)) => (p, if n.read && p.isBad l then .error (.bad l.offset) else .ok l)
    | (p, .ok []) => (p, .error (.outside va))
    | (p, c) => (p, .error (stallOf c))

/-- Several accesses of an agent. -/
def agentLocs (p : Pkg) (g : Agent) (align : Nat) (n : Need) : List Nat → Pkg × Except Stall (List Loc)
  | [] => (p, .ok [])
  | va :: rest =>
    match p.agentLoc g va align n with
    | (p, .error e) => (p, .error e)
    | (p, .ok l) =>
      match p.agentLocs g align n rest with
      | (p, .error e) => (p, .error e)
      | (p, .ok ls) => (p, .ok (l :: ls))

/-- Append captures to the list that a handle names, as accesses of the writing instruction (R83, R84): whether some
capture found the list full. Every access is checked before any is performed, so that a step that has to wait and runs
again counts each capture once (R85). `clear` says which bytes the strand's earlier accesses leave free (R121). -/
def capture (p : Pkg) (g : Agent) (clear : Loc → Nat → Bool) (handle : Nat) (cs : List Capture) : Pkg × Except Stall Bool :=
  if cs.isEmpty then (p, .ok false)
  else
    let table := ((p.ctxs.get? g.ctx).map fun c => crOutlierTable c.record).getD 0
    match p.agentLoc g (table + 8 * handle) 8 needRead with
    | (p, .error e) => (p, .error e)
    | (p, .ok lt) =>
      let (p, tb) := (p.dropLoc g.core lt 8).readHome lt 8
      match p.agentLoc g (leNat tb) 32 needAtomic with
      | (p, .error e) => (p, .error e)
      | (p, .ok ld) =>
        let (p, d) := (p.dropLoc g.core ld 32).readHome ld 32
        let cap := leNat ((d.drop 8).take 4)
        let count := leNat ((d.drop 16).take 8)
        let stored := cs.take (cap - count)
        match p.agentLocs g 16 needWrite (stored.zipIdx.map fun c => leNat (d.take 8) + 16 * (count + c.2)) with
        | (p, .error e) => (p, .error e)
        | (p, .ok ls) =>
          if !(clear lt 8 && clear ld 32 && ls.all fun l => clear l 16) then (p, .error .absent)
          else
            let full := decide (cap < count + cs.length)
            let p := (ls.zip stored).foldl (fun p e => p.writeLoc g.core false e.1 e.2.bytes) p
            let p := p.writeLoc g.core false (ld.plus 16) (leBytes 8 (count + cs.length))
            (if full then p.writeLoc g.core false (ld.plus 24) [(d.getD 24 0) ||| 2] else p, .ok full)

end Pkg

/-! ### Element values (R304) -/

/-- An element as FP32: its pattern and the flags of the conversion. -/
def toFp32 (fmt mode policy x : Nat) : FRes :=
  match intOfCode fmt with
  | some t => intToF fp32 mode (t.view x)
  | none =>
    match fmtOfCode fmt with
    | some f => if fmt == 0 then ⟨x, 0⟩ else fConv f fp32 mode policy x
    | none => ⟨x, 0⟩

/-- An FP32 result in a destination format: its pattern, its flags, and whether it overflows under capture. -/
def fromFp32 (fmt mode policy : Nat) (list : Bool) (x : Nat) : FRes × Bool :=
  match intOfCode fmt with
  | some t => let r := fToInt fp32 t mode x; (⟨patternOf t.w r.1, r.2⟩, false)
  | none =>
    match fmtOfCode fmt with
    | some f =>
      if fmt == 0 then (⟨x, 0⟩, false)
      else if policy == 2 && list && narrowOverflows fp32 f mode x then
        (⟨0, flOF ||| flNX ||| cfCaptured.toNat⟩, true)
      else (fConv fp32 f mode (min policy 1) x, false)
    | none => (⟨x, 0⟩, false)

/-! ### Sweeps (R302 to R307) -/

/-- The extents that a sweep walks: D's, or for SWRED A's (R306). -/
def walkExt (code : Nat) (d a : Shape) (k : Nat) : Nat := if code == 0xBC then a.extent k else d.extent k

/-- Does a source match D dimension by dimension (R303)? `shift` is 1 for SWRED's source. -/
def matches? (d s : Shape) (shift : Nat) : Bool :=
  (List.range d.rank).all fun k =>
    bit s.bcast (k + shift) || s.rank ≤ k + shift || s.extent (k + shift) == d.extent k

/-- Does a record name an outlier list beyond the context's table of `outliers` entries (R84)? -/
def badHandle (outliers : Nat) (s : Shape) : Bool := s.handle != 0 && outliers ≤ s.handle

/-- Are a sweep's operands illegal (R84, R298, R303, R306)? -/
def sweepIllegal (code sel outliers : Nat) (d a b : Shape) : Bool :=
  let two := 0xB5 ≤ code && code ≤ 0xB8
  let red := code == 0xBC
  d.illegal false (!red) false || a.illegal false true false || (two && b.illegal false true false)
    || d.fmt == 9 || a.fmt == 9 || (two && b.fmt == 9)
    || d.bcast != 0
    || badHandle outliers d || badHandle outliers a || (two && badHandle outliers b)
    || (if code == 0xBD then
          d.rank < 2 || d.extent 0 != a.extent 1 || d.extent 1 != a.extent 0
            || (List.range d.rank).any (fun k => 2 ≤ k && !(bit a.bcast k || a.rank ≤ k || a.extent k == d.extent k))
        else !matches? d a (if red then 1 else 0))
    || (two && !matches? d b 0)
    || ((code == 0xBB || code == 0xBD) && d.esize != a.esize)
    || (red && (1 < sel || (a.rank == 1 && d.elems != 1)
          || (List.range 5).any (fun k => walkExt code d a k ≤ d.counter k)))

/-- The index in a source of the element at an index of the walk. -/
def sourceIndex (code : Nat) (s : Shape) (ix : List Nat) : List Nat :=
  let ix := if code == 0xBD then
      match ix with | i0 :: i1 :: rest => i1 :: i0 :: rest | l => l
    else ix
  ix.zipIdx.map fun e => if e.2 < s.rank then e.1 else 0

/-- Issue a sweep: its checks, then the operation (R303, R299). An SWRED that is issued with D's counters inside a run starts with
no running total, and its output covers the rest of the run alone: the spec says that the sweep starts from the counters and not
with what total, so that is the model's choice (log entry 105). -/
def bodySweep (code : Nat) (x : Exe) : Eff :=
  let two := 0xB5 ≤ code && code ≤ 0xB8
  let d := shapeOf (x.st.shape x.d)
  let a := shapeOf (x.st.shape x.a)
  let b := if two then shapeOf (x.st.shape x.b) else a
  let outliers := ((x.p.ctxs.get? (sidCtx x.sid)).map fun c => crOutliers c.record).getD 0
  if sweepIllegal code x.b outliers d a b then .trap x.p { cause := 0x03, lanes := x.st.onLanes }
  else
    checkShapes x.p (agentOf x.p x.sid x.st) x.st.onLanes (if two then [d, a, b] else [d, a])
      (x.p.issueOp x [] false (.sweep
        { code := code, shD := x.d, shA := x.a, shB := if two then x.b else x.a,
          recA := x.st.shape x.a, recB := x.st.shape (if two then x.b else x.a), sel := x.b, mode := x.st.mode,
          lowLane := x.st.low, slot := if code == 0xBA then x.p.actSlot x.sid x.st else none }))

namespace Pkg

/-- Locations as found, unless an element that is read has an uncorrectable error (R266, R313). -/
def soundLocs (p : Pkg) (n : Need) (ls : List Loc) : Except Stall (List Loc) :=
  match ls.find? fun l => n.read && p.isBad l with
  | some l => .error (.bad l.offset)
  | none => .ok ls

/-- The locations of elements of a shape, for reading or writing (R106, R154). Of several elements whose checks fail the first in
the order given is reported, as if each were a lane of its own: the spec does not say which (log entry 98). -/
def locate (p : Pkg) (g : Agent) (s : Shape) (n : Need) (ixs : List (List Nat)) : Pkg × Except Stall (List Loc) :=
  if s.space == 0 then
    match p.checkGlobal (fun _ => g.port) g.ctx g.lease n (ixs.zipIdx.map fun e => ⟨e.2, s.addr e.1⟩) with
    | (p, .ok ls) => (p, p.soundLocs n ls)
    | (p, c) => (p, .error (stallOf c))
  else
    let ls := ixs.map fun ix => s.locAt g (s.addr ix)
    (p, if ls.all fun l => p.isPresentAt l s.esize then p.soundLocs n ls else .error .absent)

/-- The locations of a sweep's elements, once no earlier access of its strand to them is outstanding (R121). -/
def sweepLocate (p : Pkg) (g : Agent) (clear : Loc → Nat → Bool) (s : Shape) (n : Need) (ixs : List (List Nat)) :
    Pkg × Except Stall (List Loc) :=
  match p.locate g s n ixs with
  | (p, .ok ls) => (p, if ls.all fun l => clear l s.esize then .ok ls else .error .absent)
  | r => r

/-- Read one value at each location. -/
def readEach (p : Pkg) (who : Option Nat) (n : Nat) : List Loc → Pkg × List Nat
  | [] => (p, [])
  | l :: rest =>
    let (p, b) := p.readLoc who 0 l n
    let (p, vs) := p.readEach who n rest
    (p, leNat b :: vs)

/-- Write one value at each location, in order. -/
def writeEach (p : Pkg) (who : Option Nat) (n : Nat) : List (Loc × Nat) → Pkg
  | [] => p
  | e :: rest => (p.writeLoc who false e.1 (leBytes n e.2)).writeEach who n rest

end Pkg

/-- The value of one element of an arithmetic sweep (R302, R304), in D's format: flags and whether it is captured. -/
def sweepValue (s : Sweep) (d a b : Shape) (slot : Option ActSlot) (xa xb xd : Nat) : FRes × Bool × Nat :=
  let r := modeRound s.mode
  let pol := min (modePolicy s.mode) 1
  let fa := toFp32 a.fmt r pol xa
  let fb := toFp32 b.fmt r pol xb
  let fd := toFp32 d.fmt r pol xd
  let two := fa.flags ||| fb.flags
  let res : FRes := match s.code with
    | 0xB5 => let v := fAdd fp32 r fa.bits fb.bits; ⟨v.bits, v.flags ||| two⟩
    | 0xB6 => let v := fMul fp32 r fa.bits fb.bits; ⟨v.bits, v.flags ||| two⟩
    | 0xB7 => let v := fFma fp32 r fa.bits fb.bits fd.bits; ⟨v.bits, v.flags ||| two ||| fd.flags⟩
    | 0xB8 => let v := fMinMax fp32 true fa.bits fb.bits; ⟨v.bits, v.flags ||| two⟩
    | 0xBA => let v := actEval slot fa.bits; ⟨v.bits, v.flags ||| fa.flags⟩
    | _ => fa
  let list := d.handle != 0
  if s.code == 0xB9 && a.fmt == 3 then
    -- the narrowing of the FP64 element: captured where it overflows, and as its RNE value (R82, R83)
    let lo := (fConv fp64 fp32 0 0 xa).bits
    if d.fmt ≤ 2 && modePolicy s.mode == 2 && list && narrowOverflows fp64 fp32 r xa then
      (⟨0, flOF ||| flNX ||| cfCaptured.toNat⟩, true, lo)
    else
      let (o, c) := fromFp32 d.fmt r (modePolicy s.mode) list res.bits
      (⟨o.bits, o.flags ||| res.flags⟩, c, lo)
  else
    let (o, c) := fromFp32 d.fmt r (modePolicy s.mode) list res.bits
    (⟨o.bits, o.flags ||| res.flags⟩, c, res.bits)

namespace Pkg

/-- Flags of a sweep go to the lane that was Low() at issue (R305). -/
def sweepFlags (p : Pkg) (sid lane fl : Nat) : Pkg :=
  p.updStrand sid fun st => st.mapCf (fun j => j == lane) fun _ old => old ||| BitVec.ofNat 32 fl

/-- Replace an operation of a strand, or remove it. -/
def updOp (p : Pkg) (sid id : Nat) (k : Option OpKind) : Pkg :=
  let change (o : Op) : Option Op := if o.id == id then k.map (fun k => { o with kind := k }) else some o
  p.updStrand sid fun st => { st with ops := st.ops.filterMap change }

/-- D's counters after a group, or 0 at the end (R305); at the end the sweep completes. -/
def sweepAdvance (p : Pkg) (sid id : Nat) (s : Sweep) (ext : Nat → Nat) (total next : Nat) : Pkg :=
  let fin := total ≤ next
  let ix := if fin then List.replicate 5 0 else Shape.indexOf ext next
  let p := p.updStrand sid fun st => st.putShape s.shD
    (ix.zipIdx.foldl (fun r e => setField512 r (shField (24 + e.2)) e.1) (st.shape s.shD))
  p.updOp sid id (if fin then none else some (.sweep { s with elastic := none }))

/-- A sweep that cannot go on (R307): it waits on presence or on an elastic fault; a Permission or Key Alias stops it
and the strand observes the failure later; an outside-lease access or an uncorrectable error ends the tree. The record names the
lane that was Low() at issue, of which the spec says nothing: the model's choice (log entry 106). -/
def sweepStall (p : Pkg) (sid : Nat) (st : Strand) (o : Op) (s : Sweep) (e : Stall) : Pkg :=
  match e with
  | .absent => p
  | .elastic g => p.updOp sid o.id (some (.sweep { s with elastic := some g }))
  | .fail va cause reason e0 e1 =>
    (p.updOp sid o.id none).updStrand sid fun t => { t with failures := t.failures ++
      [{ op := o.id, flag := o.flag, regs := [123], shapes := [s.shD, s.shA, s.shB], cause := cause, reason := reason,
         lanes := laneMask [s.lowLane],
         addr := BitVec.ofNat 64 va, extra0 := BitVec.ofNat 32 e0, extra1 := BitVec.ofNat 32 e1, extra2 := 0 }] }
  | .outside va => p.endOutside (p.treeKeyOf st) va
  | .bad va => (p.say (.errorEvent va)).endTree (p.treeKeyOf st) 7

/-- One group of SWRED (R306): at most 96 elements of A within one run, aligned to the run. The walk goes by A's extents,
also in a dimension that A broadcasts or lacks; an output whose index lies outside D has no element to write: the model's
choice (log entry 71). -/
def sweepReduce (p : Pkg) (sid : Nat) (st : Strand) (o : Op) (s : Sweep) : Pkg :=
  let g := agentOf p sid st
  let d := shapeOf (st.shape s.shD)
  let a := shapeOf s.recA
  let ext := walkExt s.code d a
  let all := (List.range 5).foldl (fun n k => n * ext k) 1
  let e := Shape.linear ext fun k => d.counter k
  let i0 := e % ext 0
  let len := min (96 - i0 % 96) (ext 0 - i0)
  let ixs := (List.range len).map fun k => sourceIndex 0 a (Shape.indexOf ext (e + k))
  let r := modeRound s.mode
  let clear := clearOf p sid st o
  match p.sweepLocate g clear a needRead ixs with
  | (p, .error x) => p.sweepStall sid st o s x
  | (p, .ok ls) =>
    let (p, raw) := p.readEach g.core a.esize ls
    let vals := raw.map (toFp32 a.fmt r (min (modePolicy s.mode) 1))
    let fl0 := vals.foldl (fun f v => f ||| v.flags) 0
    let (total, fl) :=
      if s.sel == 0 then
        let run := sumTree r (List.replicate (i0 % 96) none ++ vals.map (fun v => some v.bits)
          ++ List.replicate (96 - i0 % 96 - len) none)
        match s.total with
        | some t => let v := fAdd fp32 r t.toNat (run.1.getD 0); (v.bits, fl0 ||| run.2 ||| v.flags)
        | none => (run.1.getD 0, fl0 ||| run.2)
      else
        vals.foldl (fun (acc : Option Nat × Nat) v =>
          match acc.1 with
          | some t => let m := fMinMax fp32 true t v.bits; (some m.bits, acc.2 ||| m.flags)
          | none => (some v.bits, acc.2)) (s.total.map (·.toNat), fl0)
        |> fun x => (x.1.getD 0, x.2)
    if i0 + len < ext 0 then
      (p.sweepFlags sid s.lowLane fl).sweepAdvance sid o.id { s with total := some (BitVec.ofNat 32 total) } ext all (e + len)
    else
      let all5 := (Shape.indexOf ext e).drop 1
      let dix := if (List.range 5).all fun k => all5.getD k 0 < d.extent k then [all5] else []
      let (v, cap) := fromFp32 d.fmt r (modePolicy s.mode) (d.handle != 0) total
      match p.sweepLocate g clear d needWrite dix with
      | (p, .error x) => p.sweepStall sid st o s x
      | (p, .ok wl) =>
        match p.capture g clear d.handle (if cap then dix.map fun ix => ⟨captureAddr d ix, total, 0⟩ else []) with
        | (p, .error x) => p.sweepStall sid st o s x
        | (p, .ok full) =>
          let p := p.writeEach g.core d.esize (wl.map fun l => (l, v.bits))
          (p.sweepFlags sid s.lowLane (fl ||| v.flags ||| if full then cfListFull.toNat else 0)).sweepAdvance
            sid o.id { s with total := none } ext all (e + len)

/-- One group of a sweep other than SWRED (R305): every source element is read before any element of D is written. -/
def sweepMap (p : Pkg) (sid : Nat) (st : Strand) (o : Op) (s : Sweep) : Pkg :=
  let g := agentOf p sid st
  let d := shapeOf (st.shape s.shD)
  let a := shapeOf s.recA
  let b := shapeOf s.recB
  let ext := d.extent
  let e := Shape.linear ext fun k => d.counter k
  let len := min 96 (d.elems - e)
  let dix := (List.range len).map fun k => Shape.indexOf ext (e + k)
  let copies := s.code == 0xBB || s.code == 0xBD
  let clear := clearOf p sid st o
  match p.sweepLocate g clear a needRead (dix.map (sourceIndex s.code a)) with
  | (p, .error x) => p.sweepStall sid st o s x
  | (p, .ok la) =>
    match p.sweepLocate g clear b needRead (dix.map (sourceIndex s.code b)) with
    | (p, .error x) => p.sweepStall sid st o s x
    | (p, .ok lb) =>
      match p.sweepLocate g clear d (if s.code == 0xB7 then needUpdate else needWrite) dix with
      | (p, .error x) => p.sweepStall sid st o s x
      | (p, .ok ld) =>
        let (p, va) := p.readEach g.core a.esize la
        let (p, vb) := p.readEach g.core b.esize lb
        let (p, vd) := if s.code == 0xB7 then p.readEach g.core d.esize ld else (p, va)
        let outs := (List.range len).map fun k =>
          if copies then ((⟨va.getD k 0, 0⟩, false, 0) : FRes × Bool × Nat)
          else sweepValue s d a b s.slot (va.getD k 0) (vb.getD k 0) (vd.getD k 0)
        let caps := ((dix.zip outs).filter (·.2.2.1)).map fun z => { addr := captureAddr d z.1, lo := z.2.2.2, hi := 0 : Capture }
        match p.capture g clear d.handle (rankCaptures p.fresh caps) with
        | (p, .error x) => p.sweepStall sid st o s x
        | (p, .ok full) =>
          let p := p.writeEach g.core d.esize (ld.zip (outs.map (·.1.bits)))
          let fl := outs.foldl (fun f v => f ||| v.1.flags) (if full then cfListFull.toNat else 0)
          (p.sweepFlags sid s.lowLane fl).sweepAdvance sid o.id s ext d.elems (e + len)

/-- SWEEP_GROUP: one group of a strand's sweep. -/
def sweepGroup (p : Pkg) (sid id : Nat) : Pkg :=
  match p.strand? sid with
  | none => p
  | some st =>
    match st.ops.find? (fun o => o.id == id) with
    | some o =>
      match o.kind with
      | .sweep s => if !p.isResident sid then p else if s.code == 0xBC then p.sweepReduce sid st o s else p.sweepMap sid st o s
      | _ => p
    | none => p

end Pkg

/-! ### The meanings -/

/-- SHLD (R300). -/
def execShld (d a b : Field) : State → Host.Outcome State Fault Refusal :=
  execWord 0xB0 d a b (bodyShapeMem false)

/-- SHST (R300). -/
def execShst (d a b : Field) : State → Host.Outcome State Fault Refusal :=
  execWord 0xB1 d a b (bodyShapeMem true)

/-- SHSET (R300). -/
def execShset (d a b : Field) : State → Host.Outcome State Fault Refusal :=
  execWord 0xB2 d a b bodyShset

/-- SHGET (R300). -/
def execShget (d a b : Field) : State → Host.Outcome State Fault Refusal :=
  execWord 0xB3 d a b bodyShget

/-- SHIDX (R300). -/
def execShidx (d a b : Field) : State → Host.Outcome State Fault Refusal :=
  execWord 0xB4 d a b bodyShidx

/-- SWADD (R302). -/
def execSwadd (d a b : Field) : State → Host.Outcome State Fault Refusal :=
  execWord 0xB5 d a b (bodySweep 0xB5)

/-- SWMUL (R302). -/
def execSwmul (d a b : Field) : State → Host.Outcome State Fault Refusal :=
  execWord 0xB6 d a b (bodySweep 0xB6)

/-- SWFMA (R302). -/
def execSwfma (d a b : Field) : State → Host.Outcome State Fault Refusal :=
  execWord 0xB7 d a b (bodySweep 0xB7)

/-- SWMAX (R302). -/
def execSwmax (d a b : Field) : State → Host.Outcome State Fault Refusal :=
  execWord 0xB8 d a b (bodySweep 0xB8)

/-- SWCVT (R302). -/
def execSwcvt (d a b : Field) : State → Host.Outcome State Fault Refusal :=
  execWord 0xB9 d a b (bodySweep 0xB9)

/-- SWACT (R302). -/
def execSwact (d a b : Field) : State → Host.Outcome State Fault Refusal :=
  execWord 0xBA d a b (bodySweep 0xBA)

/-- SWCPY (R302). -/
def execSwcpy (d a b : Field) : State → Host.Outcome State Fault Refusal :=
  execWord 0xBB d a b (bodySweep 0xBB)

/-- SWRED (R302). -/
def execSwred (d a b : Field) : State → Host.Outcome State Fault Refusal :=
  execWord 0xBC d a b (bodySweep 0xBC)

/-- SWTRN (R302). -/
def execSwtrn (d a b : Field) : State → Host.Outcome State Fault Refusal :=
  execWord 0xBD d a b (bodySweep 0xBD)

end Sys2Proof.Machine
end

