-- ==== Sys2Proof/Machine/Matrix.lean ====
section
/-!
DEFINITION. The matrix engine: accumulator pairs (R86, R87), matrix sums (R88 to R90), the truss-queue forms and the
strands' access to tiles, opcodes 0xE0 to 0xE9 (R308 to R317).
-/
namespace Sys2Proof.Machine

open Pkg (Exe)

/-! ### Down-conversion of a pair (R86, R87) -/

/-- Round an exact value to a floating-point target under an overflow policy (R82): also whether it is captured. -/
def narrowExact (f : Fmt) (mode policy : Nat) (list : Bool) (x : Exact) : FRes × Bool :=
  if policy == 2 && list && (roundTo f mode x).flags &&& flOF != 0 then
    (⟨0, flOF ||| flNX ||| cfCaptured.toNat⟩, true)
  else (roundTo f mode x (min policy 1), false)

/-- An integer pair in a target format. -/
def intPairDown (pair : DWord) (fmt mode policy : Nat) (list : Bool) : FRes × Bool :=
  let v := pair.toInt
  match intOfCode fmt, fmtOfCode fmt with
  | some t, _ =>
    if v < t.lo then (⟨patternOf t.w t.lo, flOF⟩, false)
    else if t.hi < v then (⟨patternOf t.w t.hi, flOF⟩, false)
    else (⟨patternOf t.w v, 0⟩, false)
  | none, some f => narrowExact f mode policy list ⟨decide (v < 0), v.natAbs, 0, false⟩
  | none, none => (⟨0, 0⟩, false)

/-- A special value of R86, as an FP32 pattern, in a target format. -/
def specialDown (x fmt mode : Nat) : FRes :=
  match intOfCode fmt, fmtOfCode fmt with
  | some t, _ => let r := fToInt fp32 t mode x; ⟨patternOf t.w r.1, r.2⟩
  | none, some f => fConv fp32 f mode 0 x
  | none, none => ⟨0, 0⟩

/-- A float pair in a target format. -/
def floatPairDown (pair : DWord) (fmt mode policy : Nat) (list : Bool) : FRes × Bool :=
  let s := (pair.extractLsb' 0 32).toNat
  let c := (pair.extractLsb' 32 32).toNat
  if fp32.isNaN s then (specialDown s fmt mode, false)
  else if fp32.isNaN c then (specialDown c fmt mode, false)
  else if fp32.isInf s && fp32.isInf c && fp32.isNeg s != fp32.isNeg c then
    (match fmtOfCode fmt with | some f => invalid f | none => ⟨0, flNV⟩, false)
  else if fp32.isInf s then (specialDown s fmt mode, false)
  else if fp32.isInf c then (specialDown c fmt mode, false)
  else
    let v := (exactOf fp32 s).add (exactOf fp32 c) (fp32.isNeg s && fp32.isNeg c)
    match intOfCode fmt, fmtOfCode fmt with
    | some t, _ => let r := exactToInt t mode v; (⟨patternOf t.w r.1, r.2⟩, false)
    | none, some f => narrowExact f mode policy list v
    | none, none => (⟨0, 0⟩, false)

/-- A pair read by the kind of its tile in a target format (R87). -/
def pairDown (isInt : Bool) (pair : DWord) (fmt mode policy : Nat) (list : Bool) : FRes × Bool :=
  if isInt then intPairDown pair fmt mode policy list else floatPairDown pair fmt mode policy list

/-! ### Sums (R89, R90) -/

/-- The product of two FP16 or BF16 elements in FP32. -/
def mmaProduct (f : Fmt) (a b : Nat) : FRes := fMul fp32 0 (fConv f fp32 0 0 a).bits (fConv f fp32 0 0 b).bits

/-- TwoSum with the status of its node. -/
def twoSumNode (x y : Nat) : Nat × Nat × Nat :=
  let h := twoSum x y
  (h.1, h.2, (fAdd fp32 0 x y).flags)

/-- The products of one step added in three levels: the high part, the error terms in order and the status. -/
def mmaTree (p : List Nat) : Nat × List Nat × Nat :=
  let g (i : Nat) : Nat := p.getD i 0
  let a := twoSumNode (g 0) (g 1)
  let b := twoSumNode (g 2) (g 3)
  let c := twoSumNode (g 4) (g 5)
  let d := twoSumNode (g 6) (g 7)
  let x := twoSumNode a.1 b.1
  let y := twoSumNode c.1 d.1
  let z := twoSumNode x.1 y.1
  (z.1, [a.2.1, b.2.1, c.2.1, d.2.1, x.2.1, y.2.1, z.2.1],
    a.2.2 ||| b.2.2 ||| c.2.2 ||| d.2.2 ||| x.2.2 ||| y.2.2 ||| z.2.2)

/-- One step of eight products into a pair (R89): the pair and the status flags. -/
def mmaStep (pair : DWord) (products : List FRes) : DWord × Nat :=
  let s := (pair.extractLsb' 0 32).toNat
  let c := (pair.extractLsb' 32 32).toNat
  let t := mmaTree (products.map (·.bits))
  let add (acc : Nat × Nat) (x : Nat) : Nat × Nat := let r := fAdd fp32 0 acc.1 x; (r.bits, acc.2 ||| r.flags)
  let e := (t.2.1.drop 1).foldl add (t.2.1.headD 0, 0)
  let u := twoSumNode s t.1
  let ge := fAdd fp32 0 u.2.1 e.1
  let c' := fAdd fp32 0 c ge.bits
  (BitVec.ofNat 32 c'.bits ++ BitVec.ofNat 32 u.1,
    products.foldl (fun f r => f ||| r.flags) (t.2.2 ||| e.2 ||| u.2.2 ||| ge.flags ||| c'.flags))

/-- The steps of one output element, `n` of them. -/
def mmaFloat (f : Fmt) : Nat → DWord × Nat → List (Nat × Nat) → DWord × Nat
  | 0, acc, _ => acc
  | n + 1, acc, l =>
    let r := mmaStep acc.1 ((l.take 8).map fun e => mmaProduct f e.1 e.2)
    mmaFloat f n (r.1, acc.2 ||| r.2) (l.drop 8)

/-- One output element: its old pair and the operands along the depth (R89, R90). -/
def mmaElement (fa fb : Nat) (pair : DWord) (l : List (Nat × Nat)) : DWord × Nat :=
  match intOfCode fa, intOfCode fb with
  | some ta, some tb =>
    (BitVec.ofInt 64 (l.foldl (fun (n : Int) e => n + ta.view e.1 * tb.view e.2) pair.toInt), 0)
  | _, _ => mmaFloat (if fb == 1 then fp16 else bf16) (l.length / 8) (pair, 0) l

/-! ### Queue operations (R309 to R311) -/

/-- The source tile and first column that an MMAC's A record names (R309). -/
def chainTile (a : Shape) : Nat := bits a.base 4 0
def chainColumn (a : Shape) : Nat := bits a.base 13 8

/-- The tiles that an operation involves (R311). -/
def MatOp.tiles (o : MatOp) : List Nat :=
  if o.code == 2 then [o.tile, chainTile (shapeOf o.recA)] else [o.tile]

/-- Are the operands of MMA, MMAZ or MMAC illegal (R84, R298, R309)? -/
def mmaIllegal (code tile outliers : Nat) (a b : Shape) : Bool :=
  let k := b.extent 1
  badHandle outliers a || badHandle outliers b || a.illegal (code == 2) true true || b.illegal false true true
    || a.rank != 2 || b.rank != 2 || a.extent 1 != 64 || b.extent 0 != 64 || a.extent 0 != k
    || k % 8 != 0 || k < 8 || 512 < k || a.bcast != 0 || b.bcast != 0
    || (if code == 2 then
          a.space != 5 || a.fmt != 9 || !([1, 2, 4, 5].contains b.fmt) || a.base &&& 0x3F1F != a.base
            || chainColumn a % 8 != 0 || 64 < chainColumn a + k || chainTile a == tile
        else !((a.fmt == 1 && b.fmt == 1) || (a.fmt == 2 && b.fmt == 2)
            || ((a.fmt == 4 || a.fmt == 5) && (b.fmt == 4 || b.fmt == 5))))

/-- Is the shape of ACCLD (`load`) or ACCST illegal (R84, R298, R310)? -/
def tileShapeIllegal (load : Bool) (outliers : Nat) (s : Shape) : Bool :=
  s.illegal false true true || s.rank != 2 || s.extent 0 != 64 || s.extent 1 != 64
    || (load && !(s.fmt == 9 || s.fmt == 0 || s.fmt == 7))
    || badHandle outliers s

/-- Enter an operation in the matrix queue; a full queue stops the strand in place (R311). -/
def enqueue (x : Exe) (code tile : Nat) (recA recB : BitVec 512) : Eff :=
  match x.p.bentOf x.st with
  | none => .next x.p
  | some b =>
    if 8 ≤ b.matq.length then .hold
    else
      let o : MatOp := { seq := b.mseq + 1, code := code, tile := tile, recA := recA, recB := recB, mode := x.st.mode,
                         after := if code == 3 then [] else Pkg.releasedAfter x.st }
      .next (x.p.updBent x.st.bent fun b => { b with mseq := b.mseq + 1, matq := b.matq ++ [o] })

/-- Entries of the outlier-list table of a strand's context (R84). -/
def outliersOf (x : Exe) : Nat := ((x.p.ctxs.get? (sidCtx x.sid)).map fun c => crOutliers c.record).getD 0

/-- MMA, MMAZ and MMAC. -/
def bodyMma (code : Nat) (x : Exe) : Eff :=
  let a := shapeOf (x.st.shape x.a)
  let b := shapeOf (x.st.shape x.b)
  if mmaIllegal code x.d (outliersOf x) a b then .trap x.p { cause := 0x03, lanes := x.st.onLanes }
  else checkShapes x.p (agentOf x.p x.sid x.st) x.st.onLanes [a, b]
    (enqueue x code x.d (x.st.shape x.a) (x.st.shape x.b))

def bodyAccz (x : Exe) : Eff := enqueue x 3 x.d 0 0

/-- ACCLD and ACCST: the shape register and the tile. -/
def bodyTileShape (load : Bool) (sh tile : Nat) (x : Exe) : Eff :=
  let s := shapeOf (x.st.shape sh)
  if tileShapeIllegal load (outliersOf x) s then .trap x.p { cause := 0x03, lanes := x.st.onLanes }
  else checkShapes x.p (agentOf x.p x.sid x.st) x.st.onLanes [s]
    (enqueue x (if load then 4 else 5) tile (x.st.shape sh) 0)
def bodyAccld (x : Exe) : Eff := bodyTileShape true x.a x.d x
def bodyAccst (x : Exe) : Eff := bodyTileShape false x.d x.a x

/-- The queue of a strand's bent. -/
def matQueue (x : Exe) : List MatOp := ((x.p.bentOf x.st).map (·.matq)).getD []

/-- ACCWAIT (R312): the truss core has no L1 to discard (R264). What the ACCSTs that it has waited for have written becomes
visible (R115, R311). -/
def bodyAccwait (x : Exe) : Eff :=
  if (matQueue x).any fun o => x.b == 32 || o.tiles.contains x.b then .hold
  else .next (x.p.revealTiles x.st.bent fun t => x.b == 32 || t == x.b)

/-- The matrix status word (R312). -/
def Bent.matStatus (b : Bent) : Nat :=
  (if b.matq.isEmpty then 0 else 1) + (if b.mOF then 2 else 0) + (if b.mUF then 4 else 0) + (if b.mNV then 8 else 0)
    + (if b.mFailed then 16 else 0) + 256 * b.matq.length

/-- The highest n such that every operation numbered at most n has completed. -/
def Bent.matCompleted (b : Bent) : Nat := (b.matq.foldl (fun n o => min n o.seq) (b.mseq + 1)) - 1

/-- MSTAT's words (R312). -/
def Bent.matWord (b : Bent) (n : Nat) : Nat :=
  match n with
  | 1 => b.matCompleted
  | 2 => b.matCompleted / 2 ^ 32
  | 3 => b.mseq
  | 4 => b.mseq / 2 ^ 32
  | 6 => b.mFirstFailed
  | _ => b.matStatus

/-- The sticky bits cleared (R312). -/
def Bent.clearSticky (b : Bent) : Bent :=
  { b with mFailed := false, mNV := false, mUF := false, mOF := false, mFirstFailed := 0 }

def bodyMstat (x : Exe) : Eff :=
  let v := ((x.p.bentOf x.st).map fun b => b.matWord x.b).getD 0
  let p := if x.b == 5 then x.p.updBent x.st.bent Bent.clearSticky else x.p
  Pkg.Exe.uniformResult { x with p := p } 1 (BitVec.ofNat 64 v)

/-! ### Strand access to tiles (R315) -/

/-- Sticky status bits from flags (R312). -/
def Bent.addStatus (b : Bent) (fl : Nat) : Bent :=
  { b with mNV := b.mNV || fl &&& flNV != 0, mUF := b.mUF || fl &&& flUF != 0, mOF := b.mOF || fl &&& flOF != 0 }

def Bent.tile (b : Bent) (t : Nat) : Tile := b.tiles.get t {}
def Tile.pair (t : Tile) (i j : Nat) : DWord := t.pairs.get (64 * i + j) 0

/-- The lanes of ACCRD and ACCWR. -/
def tileLanes (x : Exe) : List Nat := x.st.onLanes.filter (· < 64)

/-- The checks of ACCRD and ACCWR: a bent with a truss entry, and no incomplete operation on the tile. -/
def withTile (x : Exe) (t : Nat) (k : Bent → Eff) : Eff :=
  match x.p.bentOf x.st with
  | none => .next x.p
  | some b =>
    if ldTruss (x.p.descOf x.st) == 0 then .trap x.p { cause := 0x0E, lanes := tileLanes x, extra0 := 5 }
    else
      match b.matq.find? fun o => o.tiles.contains t with
      | some o => .trap x.p { cause := 0x09, lanes := tileLanes x, extra0 := t, extra1 := o.seq, extra2 := o.seq / 2 ^ 32 }
      | none => k b

/-- ACCRD. Whether it sees an ACCWR of its own strand to the row that is still outstanding the spec does not say: the row is
read at issue, so it does not, the model's choice (log entry 84). -/
def bodyAccrd (x : Exe) : Eff :=
  withTile x x.a fun b =>
    let row := (x.env.uniform x.b).toNat % 64
    let t := b.tile x.a
    let vals := (tileLanes x).map fun j => (j, (pairDown t.isInt (t.pair row j) 0 0 0 false).1)
    let p := x.p.updBent x.st.bent fun b => b.addStatus (vals.foldl (fun f e => f ||| e.2.flags) 0)
    p.issueOp x [x.d] false (.tileRead x.a (vals.map fun e => (landReg x e.1, e.1, BitVec.ofNat 32 e.2.bits)))

def bodyAccwr (x : Exe) : Eff :=
  withTile x x.d fun _ =>
    x.p.issueOp x [] false
      (.tileWrite x.d ((x.env.uniform x.b).toNat % 64) ((tileLanes x).map fun j => (j, x.env.get x.a j)))

namespace Pkg

/-- An ACCWR's values reach their row: s the value and c +0. -/
def writeRow (p : Pkg) (bent tile row : Nat) (vals : List (Nat × Word)) : Pkg :=
  p.updBent bent fun b =>
    let t := b.tile tile
    let pairs := vals.foldl (fun m e => m.set (64 * row + e.1) (e.2.setWidth 64)) t.pairs
    { b with tiles := b.tiles.set tile { t with pairs := pairs } }

/-! ### Start and completion (R311, R313, R317) -/

/-- The user of a bent's shapes: the matrix engine. -/
def bentAgent (p : Pkg) (k : Nat) (b : Bent) : Agent :=
  let l := p.launches.get? b.launch
  { ctx := b.ctx, bent := k, crew := none, lease := (l.map (·.lease)).getD [], desc := (l.map (·.desc)).getD 0, core := none,
    port := .core (576 + b.cluster) }

/-- Change one operation of a matrix queue. -/
def updMatOp (p : Pkg) (k seq : Nat) (f : MatOp → MatOp) : Pkg :=
  p.updBent k fun b => { b with matq := b.matq.map fun o => if o.seq == seq then f o else o }

/-- An operation leaves the queue with the flags it raised. -/
def matDone (p : Pkg) (k seq fl : Nat) : Pkg :=
  p.updBent k fun b => { b.addStatus fl with matq := b.matq.filter fun o => o.seq != seq }

/-- An operation fails (R313): it counts as completed, and its tree records MATRIX_FAILED. The first failed operation is that
of the lowest sequence number (R312). -/
def matFail (p : Pkg) (k seq fl : Nat) : Pkg :=
  let tree := (((p.bents.get? k).bind fun b => p.launches.get? b.launch).map (·.tree)).getD 0
  let p := (p.matDone k seq fl).updBent k fun b =>
    { b with mFailed := true, mFirstFailed := if b.mFirstFailed == 0 then seq else min b.mFirstFailed seq }
  p.failTree tree 6

/-- An operation that cannot go on: it waits, fails, or ends the tree. -/
def matStall (p : Pkg) (k seq fl : Nat) (e : Stall) : Pkg :=
  match e with
  | .absent => p.updMatOp k seq fun o => { o with started := false }
  | .elastic g => p.updMatOp k seq fun o => { o with started := false, elastic := some g }
  | .fail .. => p.matFail k seq fl
  | .bad va => (p.say (.errorEvent va)).matFail k seq fl
  | .outside va =>
    match (p.bents.get? k).bind fun b => p.launches.get? b.launch with
    | some l => p.endOutside l.tree va
    | none => p

/-- Does a bent's cluster execute its context's work? -/
def bentResident (p : Pkg) (b : Bent) : Bool := p.runsOn b.cluster b.ctx

/-- Does an ACCRD or ACCWR of the bent hold a tile (R315)? -/
def tileHeld (p : Pkg) (k tile : Nat) : Bool :=
  p.strands.any fun e => e.2.bent == k && e.2.ops.any fun o =>
    match o.kind with
    | .tileRead t _ => t == tile
    | .tileWrite t _ _ => t == tile
    | _ => false

/-- May an operation start (R128, R311, R315)? -/
def matReady (p : Pkg) (k : Nat) (b : Bent) (o : MatOp) : Bool :=
  let truss := (b.truss.bind p.strand?).map fun st => st.ops.map (·.id)
  !o.started && o.elastic.isNone && p.bentResident b && !p.isExhausted b.ctx
    && o.after.all (fun i => !(truss.getD []).contains i)
    && b.matq.all (fun e => o.seq ≤ e.seq || e.tiles.all fun t => !o.tiles.contains t)
    && o.tiles.all fun t => !p.tileHeld k t

/-- MATRIX_OP_START. -/
def matStart (p : Pkg) (k seq : Nat) : Pkg :=
  match p.bents.get? k with
  | some b =>
    match b.matq.find? fun o => o.seq == seq with
    | some o => if p.matReady k b o then p.updMatOp k seq fun o => { o with started := true } else p
    | none => p
  | none => p

/-- The elements of a rank-2 shape in the order of the given indexes. -/
def fetchAll (p : Pkg) (g : Agent) (s : Shape) (ixs : List (List Nat)) : Pkg × Except Stall (List Nat) :=
  match p.locate g s needRead ixs with
  | (p, .error e) => (p, .error e)
  | (p, .ok ls) => let (p, vs) := p.readEach g.core s.esize ls; (p, .ok vs)

/-- The rows of A: from its shape, or down-converted from the source tile of an MMAC (R309), with status flags. -/
def mmaRows (p : Pkg) (g : Agent) (b : Bent) (o : MatOp) (k fmtB : Nat) : Pkg × Except Stall (List Nat × Nat) :=
  let a := shapeOf o.recA
  if o.code == 2 then
    let t := b.tile (chainTile a)
    let vs := (List.range (64 * k)).map fun n => (pairDown t.isInt (t.pair (n / k) (chainColumn a + n % k)) fmtB 0 0 false).1
    (p, .ok (vs.map (·.bits), vs.foldl (fun f v => f ||| v.flags) 0))
  else
    match p.fetchAll g a ((List.range (64 * k)).map fun n => [n % k, n / k]) with
    | (p, .error e) => (p, .error e)
    | (p, .ok vs) => (p, .ok (vs, 0))

/-- The operands of an MMA, MMAZ or MMAC: the columns of B, the rows of A, and status flags. -/
def mmaOperands (p : Pkg) (key : Nat) (b : Bent) (o : MatOp) : Pkg × Except Stall (List Nat × List Nat × Nat) :=
  let g := p.bentAgent key b
  let sb := shapeOf o.recB
  let k := sb.extent 1
  match p.fetchAll g sb ((List.range (64 * k)).map fun n => [n / k, n % k]) with
  | (p, .error e) => (p, .error e)
  | (p, .ok vb) =>
    match p.mmaRows g b o k sb.fmt with
    | (p, .error e) => (p, .error e)
    | (p, .ok (va, fl)) => (p, .ok (vb, va, fl))

/-- The product of an MMA, MMAZ or MMAC into its tile: the tile and the flags raised. -/
def mmaTile (b : Bent) (o : MatOp) (vb va : List Nat) (fl : Nat) : Tile × Nat :=
  let sb := shapeOf o.recB
  let k := sb.extent 1
  let fa := if o.code == 2 then sb.fmt else (shapeOf o.recA).fmt
  let row (i : Nat) := (va.drop (k * i)).take k
  let col (j : Nat) := (vb.drop (k * j)).take k
  let t := b.tile o.tile
  let outs := (List.range 64).flatMap fun i => (List.range 64).map fun j =>
    (64 * i + j, mmaElement fa sb.fmt (if o.code == 1 then 0 else t.pair i j) ((row i).zip (col j)))
  ({ isInt := (intOfCode sb.fmt).isSome, pairs := outs.map fun e => (e.1, e.2.1) }, outs.foldl (fun f e => f ||| e.2.2) fl)

/-- MMA, MMAZ and MMAC: the product into the tile. -/
def mmaRun (p : Pkg) (key : Nat) (b : Bent) (o : MatOp) : Pkg :=
  match p.mmaOperands key b o with
  | (p, .error e) => p.matStall key o.seq 0 e
  | (p, .ok (vb, va, fl)) =>
    let r := mmaTile b o vb va fl
    (p.updBent key fun b => { b with tiles := b.tiles.set o.tile r.1 }).matDone key o.seq r.2

/-- Rows `o.nextRow` up to `last` of an ACCLD. The whole rest is checked before any row changes (R311). One that a halt has
stopped at a row (R317) and that fails after it resumes leaves the rows loaded before the halt in the tile: the spec does not
say whether R313 takes them back; the model's choice (log entry 83). -/
def accldRun (p : Pkg) (key : Nat) (b : Bent) (o : MatOp) (last : Nat) : Pkg :=
  let g := p.bentAgent key b
  let s := shapeOf o.recA
  let first := o.nextRow
  match p.fetchAll g s ((List.range (64 * (64 - first))).map fun n => [n % 64, first + n / 64]) with
  | (p, .error e) => p.matStall key o.seq 0 e
  | (p, .ok vs) =>
    let pair (x : Nat) : DWord :=
      if s.fmt == 7 then BitVec.ofInt 64 (signedOf 32 x) else BitVec.ofNat 64 x
    let t := b.tile o.tile
    let rows := ((vs.take (64 * (last - first))).zipIdx).foldl (fun m e => m.set (64 * first + e.2) (pair e.1)) t.pairs
    let fin := last == 64
    let kind := if fin && s.fmt != 9 then s.fmt == 7 else t.isInt
    let p := p.updBent key fun b => { b with tiles := b.tiles.set o.tile { isInt := kind, pairs := rows } }
    if fin then p.matDone key o.seq 0 else p.updMatOp key o.seq fun o => { o with started := false, nextRow := last }

/-- One row of an ACCST: the captures, what is written where, and the flags raised. -/
def accstRow (p : Pkg) (g : Agent) (t : Tile) (s : Shape) (mode : DWord) (i : Nat) :
    Pkg × Except Stall (List (Loc × List Byte) × Nat) :=
  let ixs := (List.range 64).map fun j => [j, i]
  match p.locate g s needWrite ixs with
  | (p, .error e) => (p, .error e)
  | (p, .ok ls) =>
    let outs := (List.range 64).map fun j =>
      if s.fmt == 9 then ((⟨(t.pair i j).toNat, 0⟩, false) : FRes × Bool)
      else pairDown t.isInt (t.pair i j) s.fmt (modeRound mode) (modePolicy mode) (s.handle != 0)
    let caps := ((ixs.zip outs).zipIdx.filter (·.1.2.2)).map fun e =>
      let pr := t.pair i e.2
      { addr := captureAddr s e.1.1, lo := (pr.extractLsb' 0 32).toNat, hi := (pr.extractLsb' 32 32).toNat : Capture }
    match p.capture g (fun _ _ => true) s.handle (rankCaptures p.fresh caps) with
    | (p, .error e) => (p, .error e)
    | (p, .ok full) =>
      (p, .ok ((ls.zip outs).map fun e => (e.1, leBytes s.esize e.2.1.bits),
        outs.foldl (fun f v => f ||| v.1.flags) (if full then cfListFull.toNat else 0)))

/-- The rows of an ACCST in ascending order, `n` of them from row `i`; capture bits go to the truss strand's cf. What is
written is kept from every program until the truss strand has waited for it (R115). -/
def accstRows (p : Pkg) (key : Nat) (b : Bent) (o : MatOp) : Nat → Nat → Pkg
  | 0, i => if i == 64 then p.matDone key o.seq 0 else p.updMatOp key o.seq fun o => { o with started := false, nextRow := i }
  | n + 1, i =>
    match p.accstRow (p.bentAgent key b) (b.tile o.tile) (shapeOf o.recA) o.mode i with
    | (p, .error e) => (p.updMatOp key o.seq fun o => { o with nextRow := i }).matStall key o.seq 0 e
    | (p, .ok (row, fl)) =>
      let p := p.updBent key fun b => { b.addStatus fl with hidden := b.hidden ++ row.map fun e => (o.tile, e) }
      let p := match b.truss with
        | some sid => p.updStrand sid fun st => st.mapCf (fun j => j == 0) fun _ old =>
            old ||| (BitVec.ofNat 32 fl &&& (cfCaptured ||| cfListFull))
        | none => p
      p.accstRows key b o n (i + 1)

/-- Carry out a started operation; an ACCLD or ACCST up to row `last`. -/
def matRun (p : Pkg) (key : Nat) (b : Bent) (o : MatOp) (last : Nat) : Pkg :=
  match o.code with
  | 3 =>
    (p.updBent key fun b => { b with tiles := b.tiles.set o.tile { b.tile o.tile with pairs := [] } }).matDone key o.seq 0
  | 4 => p.accldRun key b o last
  | 5 => p.accstRows key b o (last - o.nextRow) o.nextRow
  | _ => p.mmaRun key b o

/-! ### Depth steps and the slope governor (R396, R397) -/

def slope (p : Pkg) (cluster : Nat) : Slope := p.slopes.get cluster {}
def updSlope (p : Pkg) (cluster : Nat) (f : Slope → Slope) : Pkg := { p with slopes := p.slopes.set cluster (f (p.slope cluster)) }

/-- The upper bound of a cluster's window (R400). -/
def stepCeiling (p : Pkg) (cluster : Nat) : Nat := p.stepCeilings.get (clusterVf cluster) 64

/-- The most steps that a cluster's current window may hold. -/
def windowTop (p : Pkg) (cluster : Nat) : Nat :=
  min ((p.slope cluster).last + (p.slope cluster).active) (min (p.stepCeiling cluster) 64)

/-- The depth steps of an operation: 8 of K a step for FP16 and BF16, 16 for S8 and N8. -/
def depthSteps (o : MatOp) : Nat :=
  if 2 < o.code then 0
  else
    let b := shapeOf o.recB
    if (intOfCode b.fmt).isSome then ceilDiv (b.extent 1) 16 else b.extent 1 / 8

/-- Steps that a cluster's engine may make now: one a cycle of its current window, up to the window's top. None once the
window's cycles have passed, until its end has been taken (SLOPE_WINDOW). -/
def stepRoom (p : Pkg) (cluster : Nat) : Nat :=
  let x := p.slope cluster
  let cycles := p.cycleOf cluster - 64 * x.windows
  if 64 ≤ cycles then 0 else min (p.windowTop cluster) cycles - x.steps

/-- Energy of the operations that a cluster executes is metered (R371, R402). -/
def meter (p : Pkg) (cluster energy : Nat) : Pkg := p.updCluster cluster fun c => { c with meter := c.meter + energy }

/-- The quota of a context: none for unlimited. -/
def quotaOf (c : Ctx) : Option Nat := if crQuota c.record == 0 then none else some (crQuota c.record)

/-- Has a charge reached a context's quota? -/
def reachesQuota (c : Ctx) : Bool := match quotaOf c with | some q => q ≤ c.charge | none => false

/-- What a context has been charged beyond its quota: the debt that it would carry into the next interval (R403). -/
def overdraft (c : Ctx) : Nat := match quotaOf c with | some q => c.charge - q | none => 0

/-- Charge energy to a context: it is exhausted once the charge reaches its quota (R402). -/
def charge (p : Pkg) (cid energy : Nat) : Pkg :=
  p.updCtx cid fun c =>
    let c := { c with charge := c.charge + energy }
    { c with exhausted := c.exhausted || reachesQuota c }

/-- Whom the energy metered on a cluster is charged to: the context whose state it holds, or its function's resident context
where it holds none (R371). -/
def chargeOf (p : Pkg) (cluster : Nat) : Option Nat :=
  (p.clusters.get cluster {}).occupant.or (p.vfs.get (clusterVf cluster) {}).resident

/-- What some clusters have metered is charged to the contexts resident on them, as at the end of an interval and at a raising
(R371). -/
def chargeMeters (p : Pkg) (clusters : List Nat) : Pkg :=
  clusters.foldl (fun p k =>
    match p.chargeOf k, (p.clusters.get k {}).meter with
    | _, 0 | none, _ => p
    | some cid, e => (p.charge cid e).updCluster k fun c => { c with meter := 0 }) p

/-- A bent's operation makes up to `n` of the depth steps that it has left; how many it makes. -/
def makeSteps (p : Pkg) (k : Nat) (b : Bent) (o : MatOp) (n : Nat) : Pkg × Nat :=
  let m := min n (depthSteps o - o.steps)
  if m == 0 then (p, 0)
  else
    (((p.updBent k fun b => { b with matq := b.matq.map fun x => if x.seq == o.seq then { x with steps := x.steps + m } else x }).updSlope
      b.cluster fun x => { x with steps := x.steps + m, charged := some b.ctx }).meter b.cluster (m * Config.stepEnergy p.fresh), m)

/-- Operations make up to `n` depth steps in all, in order. -/
def spendSteps (p : Pkg) (n : Nat) : List (Nat × Bent × MatOp) → Pkg
  | [] => p
  | (k, b, o) :: rest =>
    let (p, m) := p.makeSteps k b o n
    p.spendSteps (n - m) rest

/-- Is an operation ready to step: an MMA, MMAZ or MMAC that has its operands (R397)? -/
def canStep (p : Pkg) (k : Nat) (b : Bent) (o : MatOp) : Bool :=
  o.code ≤ 2 && match (p.mmaOperands k b o).2 with | .ok _ => true | .error _ => false

/-- The started operations of a cluster that are ready to step, in queue order. -/
def startedOps (p : Pkg) (cluster : Nat) : List (Nat × Bent × MatOp) :=
  (p.bents.filter fun e => e.2.cluster == cluster && p.bentResident e.2).flatMap fun e =>
    (e.2.matq.filter fun o => o.started && p.canStep e.1 e.2 o).map fun o => (e.1, e.2, o)

/-- The next window of 64 cycles of a cluster ends, and in it operations have made up to `ready` steps more: the steps owed go
first, then the started operations'. Shims make up the difference to last − S; they come before the first step of a context
whose steps begin in this window, so that it is charged for its own real steps alone (R396 to R398). The result says who is
charged for how many shims. -/
def endWindow (p : Pkg) (cluster ready : Nat) : Pkg × Option (Nat × Nat) :=
  let room := p.windowTop cluster - (p.slope cluster).steps
  let paid := min room (p.slope cluster).owed
  let p := (p.updSlope cluster fun x => { x with steps := x.steps + paid, owed := x.owed - paid }).spendSteps (min ready (room - paid))
    (p.startedOps cluster)
  let x := p.slope cluster
  let shims := x.last - x.active - x.steps
  (p.updSlope cluster fun x =>
      { x with active := x.step, last := x.steps + shims, steps := 0, shims := shims, payer := x.charged, windows := x.windows + 1 },
    if shims == 0 then none else (x.payer.or x.charged).map fun cid => (cid, shims))

/-! ### Completion and halt (R311, R317) -/

/-- MATRIX_OP_COMPLETE: an operation that is ready to step makes the steps that the window has room for, and completes once it
has made them all (R396, R397). -/
def matComplete (p : Pkg) (k seq : Nat) : Pkg :=
  match p.bents.get? k with
  | some b =>
    match b.matq.find? fun o => o.seq == seq with
    | some o =>
      if !o.started || !p.bentResident b then p
      else if !p.canStep k b o then p.matRun k b o 64
      else
        let (p, m) := p.makeSteps k b o (p.stepRoom b.cluster)
        if o.steps + m < depthSteps o then p else p.matRun k b o 64
    | none => p
  | none => p

/-- A halt of the bent (R317): operations in execution complete, and an ACCLD or ACCST stops at a row boundary. The steps that
they still make are owed to the governor (R396). Rows already written stay written: they go on waiting for their ACCWAIT with
the bent, beside the saved queue (R115). -/
def matHalt (p : Pkg) (k : Nat) : Pkg :=
  match p.bents.get? k with
  | some b =>
    (b.matq.filter (·.started)).foldl (fun p o =>
      let last := min 64 (o.nextRow + 1 + Config.haltRow p.fresh o.seq)
      let left := depthSteps o - o.steps
      let p := if left == 0 || !p.canStep k b o then p
        else (p.updSlope b.cluster fun x => { x with owed := x.owed + left, charged := some b.ctx }).meter b.cluster
          (left * Config.stepEnergy p.fresh)
      match p.bents.get? k with
      | some b => p.matRun k b o last
      | none => p) p
  | none => p

end Pkg

/-! ### The meanings -/

/-- MMA (R309). -/
def execMma (d a b : Field) : State → Host.Outcome State Fault Refusal :=
  execWord 0xE0 d a b (bodyMma 0)

/-- MMAZ (R309). -/
def execMmaz (d a b : Field) : State → Host.Outcome State Fault Refusal :=
  execWord 0xE1 d a b (bodyMma 1)

/-- MMAC (R309). -/
def execMmac (d a b : Field) : State → Host.Outcome State Fault Refusal :=
  execWord 0xE2 d a b (bodyMma 2)

/-- ACCZ (R310). -/
def execAccz (d a b : Field) : State → Host.Outcome State Fault Refusal :=
  execWord 0xE3 d a b bodyAccz

/-- ACCLD (R310). -/
def execAccld (d a b : Field) : State → Host.Outcome State Fault Refusal :=
  execWord 0xE4 d a b bodyAccld

/-- ACCST (R310). -/
def execAccst (d a b : Field) : State → Host.Outcome State Fault Refusal :=
  execWord 0xE5 d a b bodyAccst

/-- ACCRD (R315). -/
def execAccrd (d a b : Field) : State → Host.Outcome State Fault Refusal :=
  execWord 0xE6 d a b bodyAccrd

/-- ACCWR (R315). -/
def execAccwr (d a b : Field) : State → Host.Outcome State Fault Refusal :=
  execWord 0xE7 d a b bodyAccwr

/-- ACCWAIT (R312). -/
def execAccwait (d a b : Field) : State → Host.Outcome State Fault Refusal :=
  execWord 0xE8 d a b bodyAccwait

/-- MSTAT (R312). -/
def execMstat (d a b : Field) : State → Host.Outcome State Fault Refusal :=
  execWord 0xE9 d a b bodyMstat

/-- MATRIX_OP_START (R311). -/
def execMatrixOpStart (bent seq : Nat) : State → Host.Outcome State Fault Refusal :=
  execPkg fun p => p.matStart bent seq

/-- MATRIX_OP_COMPLETE (R311). -/
def execMatrixOpComplete (bent seq : Nat) : State → Host.Outcome State Fault Refusal :=
  execPkg fun p => p.matComplete bent seq

end Sys2Proof.Machine
end

