-- ==== Sys2Proof/Machine/SaveArea.lean ====
section
/-!
DEFINITION. A context's save area in HBM (R385 to R390): where it lies, the images and records that a save writes there, and
what a restore reads back from it. Where the spec states the contents of a region without their places, the places are the
model's choice (log entry 14).
-/
namespace Sys2Proof.Machine

/-- An allocation of a core's or a cluster's SRAM: the core scratchpad of a crew of a bent, or a bent's part of a core position's
window. -/
inductive Alloc where
  | core (bent crew : Nat)
  | window (bent pos : Nat)
  deriving DecidableEq, Repr

/-- Words listed by number, as a store of `w` bytes a word. -/
def wordImage {n : Nat} (w : Nat) (m : AMap (BitVec n)) : Mem :=
  m.foldl (fun (s : Mem) e => s.writeBytes (w * e.1) (leBytes w e.2.toNat)) []

/-- The words of `w` bytes of a store that are not 0, by number. -/
def imageWords (w n : Nat) (m : Mem) : AMap (BitVec n) :=
  ((m.map (·.1 / w)).eraseDups).map fun i => (i, BitVec.ofNat n (leNat (m.readBytes (w * i) w)))

/-- The bytes of a range of a store, by their offset in it. -/
def cutMem (m : Mem) (o n : Nat) : Mem := (m.filter fun b => o ≤ b.1 && b.1 < o + n).map fun b => (b.1 - o, b.2)

/-- A region of `n` bytes that begins with some bytes. -/
def padTo (n : Nat) (b : List Byte) : List Byte := b.take n ++ List.replicate (n - b.length) 0

namespace Pkg

/-! ### Where things lie (R387) -/

/-- The bents of a context on a cluster. -/
def bentsAt (p : Pkg) (cid cluster : Nat) : AMap Bent := p.bents.filter fun b => b.2.ctx == cid && b.2.cluster == cluster
def bentsOn (p : Pkg) (cid cluster : Nat) : List Bent := (p.bentsAt cid cluster).map (·.2)

/-- The strands of a context on a cluster. -/
def strandsAt (p : Pkg) (cid cluster : Nat) : AMap Strand := p.strands.filter fun e => sidCtx e.1 == cid && sidCluster e.1 == cluster

/-- The launch descriptor of a bent. -/
def bentDesc (p : Pkg) (b : Bent) : BitVec 512 := ((p.launches.get? b.launch).map (·.desc)).getD 0

/-- Frames of a save area in order: frame f lies on stack (s0 + f) mod 12. -/
def saveFrame (first f : Nat) : Nat := (first / 786432 + f) % 12 * 786432 + first % 786432 + f / 12

/-- Physical address of an offset of a save area whose first frame is given. -/
def saveAddr (first offset : Nat) : Nat := saveFrame first (offset / 65536) * 65536 + offset % 65536

/-- The offset of a physical address in a save area whose first frame is given: none in no frame of it. -/
def areaOffset (first pa : Nat) : Option Nat :=
  let frame := pa / 65536
  if 9437184 ≤ frame || frame % 786432 < first % 786432 then none
  else
    let f := 12 * (frame % 786432 - first % 786432) + (frame / 786432 + 12 - first / 786432) % 12
    some (f * 65536 + pa % 65536)

/-- The bytes of a range of a context's save area, by their offset in the area. -/
def areaMem (p : Pkg) (c : Ctx) (o n : Nat) : Mem :=
  p.mem.foldl (fun (m : Mem) b =>
    match areaOffset (c.saveArea / 65536) b.1 with
    | some x => if o ≤ x && x < o + n then m.write x b.2 else m
    | none => m) []

/-- Does a range of a context's save area hold an uncorrectable error (R415)? -/
def areaBad (p : Pkg) (c : Ctx) (o n : Nat) : Bool :=
  p.badLines.any fun line =>
    match areaOffset (c.saveArea / 65536) (128 * line) with
    | some x => o < x + 128 && x < o + n
    | none => false

/-- Where the section of a cluster begins in a context's save area, and in it the block of a core position. -/
def sectionStart (cluster : Nat) : Nat := 0x10000 + cluster % 18 * 0x900000
def blockStart (cluster pos : Nat) : Nat := sectionStart cluster + 0x110000 + pos * 0x1D0000

/-- The block of the core of a vector strand. -/
def strandBlock (sid : Nat) : Nat := blockStart (sidCluster sid) (sidPlace sid / 16 % 4)

/-- Where the record of a strand lies: at the start of its cluster's section for a truss strand, in the block of its core
otherwise. -/
def recordOffset (sid : Nat) : Nat :=
  if sidIsTruss sid then sectionStart (sidCluster sid) else strandBlock sid + sidPlace sid % 16 * 0x4000

/-! ### The SRAM images (R387, R388) -/

/-- Items in a store, one behind the other from an offset on: offset and item. That the allocations of a store follow one
another in order is the model's choice (log entry 14). -/
def packed {α : Type} : Nat → List (Nat × α) → List (Nat × α)
  | _, [] => []
  | o, (n, x) :: rest => (o, x) :: packed (o + n) rest

/-- The allocations of a core position's scratchpad and of its window, with their lengths. -/
def coreAllocs (p : Pkg) (cid cluster k : Nat) : List (Nat × Alloc) :=
  (p.bentsAt cid cluster).flatMap fun b =>
    (b.2.crews.filter fun c => c.2.core == 4 * cluster + k).map fun c => (ldKspad (p.bentDesc b.2), Alloc.core b.1 c.1)
def windowAllocs (p : Pkg) (cid cluster k : Nat) : List (Nat × Alloc) :=
  (p.bentsAt cid cluster).map fun b => (ldQspad (p.bentDesc b.2) / 4, Alloc.window b.1 k)

/-- Where an allocation begins in the image of the save of its cluster. -/
def allocStart (p : Pkg) (a : Alloc) : Nat :=
  match a with
  | .core b c => ((p.crew? b c).map (·.spadAt)).getD 0
  | .window b _ => ((p.bents.get? b).map (·.windowStart)).getD 0

/-- Every allocation of a cluster's scratchpads and windows: its offset in the save area, its length, and what it is. -/
def spadAllocs (p : Pkg) (cid cluster : Nat) : List (Nat × Nat × Alloc) :=
  (List.range 4).flatMap fun k =>
    (p.coreAllocs cid cluster k).map (fun x => (blockStart cluster k + 0xD0000 + p.allocStart x.2, x.1, x.2))
      ++ (p.windowAllocs cid cluster k).map fun x => (blockStart cluster k + 0x190000 + p.allocStart x.2, x.1, x.2)

/-- The contents of an allocation. -/
def allocMem (p : Pkg) (a : Alloc) : Mem :=
  match a with
  | .core b c => ((p.crew? b c).map (·.kspad)).getD []
  | .window b k => ((p.bents.get? b).map fun x => x.qspad.get k []).getD []

def putAlloc (p : Pkg) (a : Alloc) (m : Mem) : Pkg :=
  match a with
  | .core b c => p.updCrew b c fun x => { x with kspad := m }
  | .window b k => p.updBent b fun x => { x with qspad := x.qspad.set k m }

/-- The images of the core scratchpads and of the cluster-shared windows of a cluster: offset, length and contents. -/
def spadImages (p : Pkg) (cid cluster : Nat) : List (Nat × Nat × Mem) :=
  (p.spadAllocs cid cluster).map fun x => (x.1, x.2.1, p.allocMem x.2.2)

/-- The strands of a context on a core, by slot. -/
def onCore (p : Pkg) (cid q : Nat) : List (Nat × Strand) :=
  p.strands.filter fun e => sidCtx e.1 == cid && !sidIsTruss e.1 && sidPlace e.1 / 16 == q

/-- The strands in lower slots of a strand's core. -/
def before (p : Pkg) (cid sid : Nat) : List (Nat × Strand) := (p.onCore cid (sidPlace sid / 16)).filter fun e => e.1 < sid

/-- Physical number of a strand's first register: those of the strands in lower slots of its core come before (log entry
14). -/
def registerBase (p : Pkg) (cid sid : Nat) : Nat := (p.before cid sid).foldl (fun n e => n + 96 * e.2.nregs) 0

/-- Bytes of a strand's lane slices, and where they begin in their store: those of the strands in lower slots come before. -/
def sliceBytes (p : Pkg) (st : Strand) : Nat := ldSlice (((p.launches.get? st.launch).map (·.desc)).getD 0)
def sliceBase (p : Pkg) (cid sid : Nat) : Nat := (p.before cid sid).foldl (fun n e => n + 96 * p.sliceBytes e.2) 0

/-- The registers of a strand as words: register r of lane j is word 96 r + j of its part of the file (log entry 14). -/
def registerWords (st : Strand) : AMap Word := st.v.flatMap fun r => r.2.map fun w => (96 * r.1 + w.1, w.2)

/-- Registers from their words, `n` lanes to a register. -/
def registersOf (n : Nat) (l : AMap Word) : AMap (AMap Word) :=
  l.foldl (fun v x => v.set (x.1 / n) ((v.get (x.1 / n) []).set (x.1 % n) x.2)) []

/-- A strand's lane slices of `n` bytes one behind the other, by lane (log entry 14). -/
def sliceImage (st : Strand) (n : Nat) : Mem := st.slice.map fun c => (n * (c.1 / 4096) + c.1 % 4096, c.2)

/-- Lane slices from their image. -/
def slicesOf (n : Nat) (m : Mem) : Mem := m.map fun c => (4096 * (c.1 / n) + c.1 % n, c.2)

/-- The images of a vector strand's registers and lane slices. -/
def strandImage (p : Pkg) (sid : Nat) (st : Strand) : List (Nat × Nat × Mem) :=
  if st.truss then []
  else
    [(strandBlock sid + 0x50000 + 4 * st.regBase, 384 * st.nregs, wordImage 4 (registerWords st)),
     (strandBlock sid + 0x150000 + st.sliceBase, 96 * p.sliceBytes st, sliceImage st (p.sliceBytes st))]

/-- Absent lines of allocations, by their place in the image. -/
def absentIn (p : Pkg) (l : List (Nat × Alloc)) : List Nat :=
  l.flatMap fun e =>
    let lines : List Nat := match e.2 with
      | .core b c => ((p.crew? b c).map fun (x : Crew) => x.absent.map (·.1)).getD []
      | .window b k => ((p.bents.get? b).map fun (x : Bent) => (x.absent.filter fun l => l.1 % 4 == k).map fun l => l.1 / 4).getD []
    lines.map (p.allocStart e.2 / 128 + ·)

/-- Presence bits of `n` lines, 1 for a present one, from the absent lines. -/
def presenceMem (n : Nat) (absent : List Nat) : Mem :=
  (List.range (n / 8)).map fun i =>
    (i, BitVec.ofNat 8 ((List.range 8).foldl (fun b k => b + if absent.contains (8 * i + k) then 0 else 2 ^ k) 0))

/-- The presence bits of a cluster's core scratchpads and windows: in each core's block those of the scratchpad's 4,096 lines,
then those of the window's 2,048, where the core holds an allocation. -/
def presenceImages (p : Pkg) (cid cluster : Nat) : List (Nat × Nat × Mem) :=
  (List.range 4).flatMap fun k =>
    let core := p.coreAllocs cid cluster k
    let window := p.windowAllocs cid cluster k
    if core.isEmpty && window.isEmpty then []
    else
      let bytes : Mem := (presenceMem 4096 (p.absentIn core)).filter (·.2 != 0)
      let more : Mem := (presenceMem 2048 (p.absentIn window)).filter (·.2 != 0)
      [(blockStart cluster k + 0x40000, 768, bytes ++ more.map fun c => (512 + c.1, c.2))]

/-- Every image that the save of a cluster writes: scratchpads and windows, presence bits, registers, lane slices, and the 32
accumulator tiles of a bent with a truss strand. -/
def clusterImages (p : Pkg) (cid cluster : Nat) : List (Nat × Nat × Mem) :=
  p.spadImages cid cluster ++ p.presenceImages cid cluster
    ++ ((p.strandsAt cid cluster).flatMap fun e => p.strandImage e.1 e.2)
    ++ ((p.bentsOn cid cluster).filter (·.truss.isSome)).flatMap fun b => (List.range 32).map fun t =>
        (sectionStart cluster + 0x10000 + 0x8000 * t, 32768, wordImage 8 (b.tiles.get t {}).pairs)

/-! ### The strand record (R389) -/

/-- The listed words of a register file, register e.1 lane w.1 at 384 e.1 + 4 w.1 from an offset. -/
def laneRegions (offset : Nat) (m : AMap (AMap Word)) : List (Nat × List Byte) :=
  m.flatMap fun e => e.2.map fun w => (offset + 384 * e.1 + 4 * w.1, leBytes 4 w.2.toNat)

/-- The boundary buffers of a strand's channels, channel c round r lane m at 256 c + 64 r + 4 m. -/
def bufferRegions (base : Nat) (d : Dovetail) : List (Nat × List Byte) :=
  d.chans.flatMap fun c => c.2.rounds.map fun r =>
    (base + 256 * c.1 + 64 * ((r.1 + 3) % 4), r.2.flatMap fun w => leBytes 4 w.toNat)

/-- A channel's declaration, count and ended mark, in 16 bytes of the record's 64. -/
def channelBytes (c : Channel) : List Byte :=
  [BitVec.ofNat 8 (1 + (if c.self then 2 else 0) + if c.ended then 4 else 0), BitVec.ofNat 8 c.vs, BitVec.ofNat 8 c.dist, 0]
    ++ leBytes 8 c.count ++ leBytes 4 0

/-- A park cause with its operands, by the order of the causes in R51; an energy park is not saved (R404). -/
def parkBytes (k : Option Park) : List Byte :=
  let cause (n x y : Nat) : List Byte := leBytes 1 n ++ leBytes 8 x ++ leBytes 8 y
  match k with
  | none => cause 0 0 0
  | some (.presence need) => cause 1 ((need.head?.map fun x => x.1.offset).getD 0) need.length
  | some (.dovetail needs) => cause 2 ((needs.head?.map (·.1)).getD 0) needs.length
  | some (.publish5 c) => cause 3 c 0
  | some (.lcwait w) => cause 4 w 0
  | some (.waitseq l v met) => cause 5 v.toNat (2 * l.offset + if met then 1 else 0)
  | some (.pollq m r) => cause 6 m.toNat r
  | some .waitdep => cause 7 0 0
  | some .table => cause 8 0 0
  | some .spawnQueue => cause 9 0 0
  | some (.actSlot n) => cause 10 n 0
  | some (.elastic lane va fetch) => cause 11 va (2 * lane + if fetch then 1 else 0)
  | some .energy => cause 0 0 0
  | some .trapPark => cause 13 0 0

/-- The first bytes of a strand record: launch and the tree's seed sequence, sn, register base and count, clause header address,
next slot (at 40), mode register, mask words, present lanes, flags (at 76), aging counter, POLLQ's last ring, priority delta, park
cause and operands, bent and crew. -/
def strandHead (p : Pkg) (st : Strand) : List Byte :=
  let seq := ((p.trees.get? (p.treeKeyOf st)).map (·.seedSeq.toNat)).getD 0
  leBytes 8 st.launch ++ leBytes 8 seq ++ leBytes 8 st.sn ++ leBytes 4 st.regBase ++ leBytes 4 st.nregs
    ++ leBytes 8 st.clause.toNat ++ leBytes 4 st.slot ++ leBytes 8 st.mode.toNat ++ leBytes 12 st.em.toNat
    ++ leBytes 12 st.present.toNat ++ leBytes 2 st.flagWord.toNat ++ leBytes 4 st.aging ++ leBytes 1 st.pollLast
    ++ leBytes 1 (bits st.mode.toNat 51 47) ++ parkBytes st.park ++ leBytes 8 st.bent ++ leBytes 4 st.crew

/-- What kind of operation a descriptor names. -/
def kindCode (k : OpKind) : Nat :=
  match k with
  | .load .. => 1 | .store .. => 2 | .atomic .. => 3 | .cas _ => 4 | .prefetch .. => 5 | .lock _ => 6 | .unlock _ => 7
  | .query _ => 8 | .regs .. => 9 | .tileRead .. => 10 | .tileWrite .. => 11 | .actLoad .. => 12 | .remote .. => 13
  | .sweep _ => 14 | .shapeLoad .. => 15 | .shapeStore .. => 16 | .post .. => 17 | .send .. => 18 | .putv _ => 19
  | .counterRead .. => 20 | .publish _ => 21 | .spawn .. => 22 | .trigger => 23

/-- Of an outstanding operation at a halt: the address at which it stands, the bytes or lanes that it has done, and the payload
bytes of a transfer that no packet has taken yet (R359); of an SWRED whether it has a running total, and that total (R307). -/
def opProgress (p : Pkg) (o : Op) : Nat × Nat × Nat :=
  let entry (k : Nat) : Nat × Nat × Nat :=
    match p.entries.get? k with
    | some e => (e.dest.toNat, e.done, e.length - e.done)
    | none => (0, 0, 0)
  match o.kind with
  | .remote _ ls => (((ls.find? fun l => !l.answered).map (·.addr.toNat)).getD 0, (ls.filter (·.answered)).length, 0)
  | .send _ k => entry k
  | .putv l =>
    let left := l.filter fun e => (p.entries.get? e.2).any fun x => x.done < x.length
    ((left.head?.map fun e => (entry e.2).1).getD 0, l.length - left.length, left.foldl (fun n e => n + (entry e.2).2.2) 0)
  | .sweep s => ((s.elastic).getD 0, if s.total.isSome then 1 else 0, (s.total.getD 0).toNat)
  | .post _ _ d _ _ => (d.toNat, 0, 0)
  | _ => (0, 0, 0)

/-- The descriptor of an outstanding operation: 24 bytes, with its byte offset and what of a transfer is unsent. -/
def opBytes24 (p : Pkg) (o : Op) : List Byte :=
  let (addr, done, unsent) := p.opProgress o
  padTo 24 (leBytes 4 o.id ++ leBytes 1 o.flag ++ leBytes 1 (kindCode o.kind) ++ leBytes 1 (o.dests.headD 255)
    ++ leBytes 1 o.dests.length ++ leBytes 8 addr ++ leBytes 4 done ++ leBytes 4 unsent)

/-- The clause, slot, mode and mask words of a trap frame. -/
def frameBytes (f : Frame) : List Byte :=
  leBytes 8 f.clause.toNat ++ leBytes 4 f.slot ++ leBytes 8 f.mode.toNat ++ leBytes 12 f.em.toNat

/-- The lanes of a record. -/
def recordLanes (st : Strand) : Nat := if st.truss then 1 else 96

/-- The dovetail state of a strand; a truss strand has none (R58). -/
def ownDove (p : Pkg) (st : Strand) : Dovetail := if st.truss then {} else p.dove st.launch st.sn

/-- The regions of a strand record that the strand uses, as offsets and bytes. -/
def recordRegions (p : Pkg) (st : Strand) : List (Nat × List Byte) :=
  let d := p.ownDove st
  [(0, padTo 256 (p.strandHead st))]
    ++ (st.ops.take 32).zipIdx.map (fun e => (0x100 + 24 * e.2, p.opBytes24 e.1))
    ++ (if st.sh.isEmpty then [] else (List.range 16).map fun i => (0x400 + 64 * i, leBytes 64 (st.shape i).toNat))
    ++ [(0x800, (List.range (recordLanes st)).flatMap fun j => leBytes 4 (st.cfAt j).toNat)]
    ++ (st.frame.toList.map fun f => (0x980, padTo 128 (frameBytes f)))
    ++ laneRegions 0xC00 st.t
    ++ laneRegions 0x1800 ((st.frame.map (·.temps)).getD [])
    ++ (d.chans.map fun c => (0x2400 + 384 * c.1, (List.range 96).flatMap fun j => leBytes 4 (c.2.defaults.get j 0).toNat))
    ++ bufferRegions 0x2A00 d
    ++ d.chans.map fun c => (0x2E00 + 16 * c.1, channelBytes c.2)

/-! ### The rest of a section (R70, R308, R312, R387) -/

/-- An ended strand whose boundary buffers a slot's part of the core block retains: the slot's own strand, or the one before its own,
whose values it may still read. -/
def retainedOf (p : Pkg) (st : Strand) : Option Nat :=
  if st.truss then none
  else if st.ended then some st.sn
  else if st.sn != 0 && (p.dove st.launch (st.sn - 1)).ended then some (st.sn - 1)
  else none

/-- Where a slot's part for a retained strand lies. -/
def retainedBase (sid : Nat) : Nat := strandBlock sid + 0x48000 + 2048 * (sidPlace sid % 16)

/-- The retained boundary buffers and last values of an ended strand, whether its slot is held or not. -/
def retainedRegions (p : Pkg) (sid : Nat) (st : Strand) : List (Nat × List Byte) :=
  match st.retained with
  | some sn =>
    let d := p.dove st.launch sn
    let o := retainedBase sid
    (o, leBytes 8 st.launch ++ leBytes 8 sn) :: bufferRegions (o + 16) d
      ++ d.chans.map fun c => (o + 1040 + 64 * c.1, c.2.final.flatMap fun w => leBytes 4 w.toNat)
  | none => []

/-- An activation slot: lo, hi, the linear bit, inv and the knots. -/
def slotBytes (a : ActSlot) : List Byte :=
  leBytes 4 a.lo.toNat ++ leBytes 4 a.hi.toNat ++ leBytes 4 (if a.linear then 1 else 0) ++ leBytes 4 a.inv.toNat
    ++ a.knots.flatMap fun k => leBytes 4 k.toNat

/-- The space of a counter, and the crew position of one in a core scratchpad. -/
def counterSpace (l : Loc) : Nat × Nat :=
  match l with
  | .core _ c _ => (3, c)
  | .clus .. => (2, 0)
  | _ => (1, 0)

/-- A landing-counter watch: its number, its owner's slot, whether it has fired, its target, and its counter's space, crew
position and offset. -/
def watchBytes (n : Nat) (w : Watch) : List Byte :=
  leBytes 4 n ++ leBytes 4 (sidPlace w.owner % 16) ++ leBytes 4 (if w.fired then 1 else 0) ++ leBytes 8 w.target.toNat
    ++ leBytes 1 (counterSpace w.loc).1 ++ leBytes 1 (counterSpace w.loc).2 ++ leBytes 2 0 ++ leBytes 8 w.loc.offset

/-- The activation slots and watches of a core from two offsets on, and at a third which slots are valid and how many watches
there are. -/
def coreRegions (c : Core) (acts watches marks : Nat) : List (Nat × List Byte) :=
  (marks, leBytes 4 (c.acts.foldl (fun n a => n + 2 ^ a.1) 0) ++ leBytes 4 c.watches.length)
    :: (c.acts.map fun a => (acts + 1056 * a.1, slotBytes a.2))
    ++ c.watches.zipIdx.map fun w => (watches + 32 * w.2, watchBytes w.1.1 w.1.2)

/-- An entry of a matrix queue with its captured records: 512 bytes. -/
def queueBytes (o : MatOp) : List Byte :=
  padTo 512 (leBytes 64 o.recA.toNat ++ leBytes 64 o.recB.toNat ++ leBytes 8 o.seq ++ leBytes 8 o.mode.toNat ++ leBytes 4 o.nextRow
    ++ leBytes 1 o.code ++ leBytes 1 o.tile ++ leBytes 1 (if o.started then 1 else 0))

/-- The queue status word, the sequence counter, the bent binding, as the index of the bent in its launch, and the kinds of the
tiles, bit t for tile t (at 32). -/
def bindingBytes (b : Bent) : List Byte :=
  leBytes 8 b.matStatus ++ leBytes 8 b.mFirstFailed ++ leBytes 8 b.mseq ++ leBytes 8 b.index
    ++ leBytes 4 (b.tiles.foldl (fun n t => n + if t.2.isInt then 2 ^ (t.1 % 32) else 0) 0)

/-- A truss strand's registers, 400 bytes. -/
def trussRegisters (sid : Nat) (st : Strand) : Nat × List Byte :=
  (sectionStart (sidCluster sid) + 0x4000, (List.range 100).flatMap fun r => leBytes 4 ((st.v.get r []).get 0 0).toNat)

/-- What the section of a bent with a truss strand holds beside the strand's record and tables: the matrix queue and its status. -/
def trussRegions (cluster : Nat) (b : Bent) : List (Nat × List Byte) :=
  let o := sectionStart cluster
  if b.truss.isNone then []
  else b.matq.zipIdx.map (fun e => (o + 0x5000 + 512 * e.2, queueBytes e.1)) ++ [(o + 0x6000, bindingBytes b)]

/-- The barrier counts of a strand. -/
def countRegions (sid : Nat) (st : Strand) : List (Nat × List Byte) :=
  if st.truss then []
  else [(strandBlock sid + 0x43000 + 8 * (sidPlace sid % 16), (List.range 8).flatMap fun n => leBytes 1 (st.arrivals.get n 0))]

/-- What a save writes of one strand beside its images: its record, a truss strand's registers, barrier counts and retained
buffers. -/
def strandRegions (p : Pkg) (sid : Nat) (st : Strand) : List (Nat × List Byte) :=
  (p.recordRegions st).map (fun x => (recordOffset sid + x.1, x.2))
    ++ (if st.truss then [trussRegisters sid st] else []) ++ countRegions sid st ++ p.retainedRegions sid st

/-- The private tables of the cores of a cluster, the truss core among them, as a save writes them. -/
def tableRegions (p : Pkg) (cid cluster : Nat) : List (Nat × List Byte) :=
  let o := sectionStart cluster
  coreRegions (p.cores.get (cid * 1024 + 576 + cluster) {}) (o + 0x4200) (o + 0x4A80) (o + 0x4B00)
    ++ (List.range 4).flatMap fun k =>
      coreRegions (p.cores.get (cid * 1024 + 4 * cluster + k) {}) (blockStart cluster k + 0x41000) (blockStart cluster k + 0x42000)
        (blockStart cluster k + 0x42F00)

/-- What the save of a cluster writes of its records: those of the strands, the truss section, and of each core its private
tables. -/
def sectionRegions (p : Pkg) (cid cluster : Nat) : List (Nat × List Byte) :=
  ((p.strandsAt cid cluster).flatMap fun e => p.strandRegions e.1 e.2)
    ++ ((p.bentsAt cid cluster).flatMap fun b => trussRegions cluster b.2) ++ p.tableRegions cid cluster

/-! ### Writing (R385, R387) -/

/-- Write an image to a context's save area: its whole range. -/
def writeImage (p : Pkg) (cid : Nat) (x : Nat × Nat × Mem) : Pkg :=
  match p.ctxs.get? cid with
  | some c =>
    let first := c.saveArea / 65536
    let inside (pa : Nat) : Bool := (areaOffset first pa).any fun o => x.1 ≤ o && o < x.1 + x.2.1
    x.2.2.foldl (fun p b => p.writeL2 none (saveAddr first (x.1 + b.1)) [b.2])
      { p with mem := p.mem.filter fun b => !inside b.1 }
  | none => p

/-- Write regions of a context's save area. -/
def writeRegions (p : Pkg) (cid : Nat) (l : List (Nat × List Byte)) : Pkg :=
  match p.ctxs.get? cid with
  | some c => l.foldl (fun p x => p.writeL2 none (saveAddr (c.saveArea / 65536) x.1) x.2) p
  | none => p

/-- The places in its images that a save gives to what is on a cluster, kept until the next save: the allocations of each store one
behind the other, the registers and the lane slices of the strands of a core in slot order, and the parts for retained buffers. What
ends while it is saved moves nothing of the rest. -/
def layOut (p : Pkg) (cid cluster : Nat) : Pkg :=
  let place (sid : Nat) (st : Strand) : Strand :=
    { st with regBase := p.registerBase cid sid, sliceBase := p.sliceBase cid sid, retained := p.retainedOf st }
  let here (sid : Nat) (st : Strand) : Bool := sidCtx sid == cid && sidCluster sid == cluster && !st.truss
  let q := { p with strands := p.strands.mapVals fun sid st => if here sid st then place sid st else st }
  (List.range 4).foldl (fun q k =>
    (packed 0 (p.coreAllocs cid cluster k) ++ packed 0 (p.windowAllocs cid cluster k)).foldl (fun (q : Pkg) x =>
      match x.2 with
      | .core b c => q.updCrew b c fun y => { y with spadAt := x.1 }
      | .window b _ => q.updBent b fun y => { y with windowStart := x.1 }) q) q

/-- Bytes that the save of a cluster writes: those of its images and records. -/
def clusterBytes (p : Pkg) (cid cluster : Nat) : Nat :=
  let p := p.layOut cid cluster
  (p.clusterImages cid cluster).foldl (fun n x => n + x.2.1) ((p.sectionRegions cid cluster).foldl (fun n x => n + x.2.length) 0)

/-- The save of a cluster's images and records. -/
def writeSection (p : Pkg) (cid cluster : Nat) : Pkg :=
  let p := p.layOut cid cluster
  (p.clusterImages cid cluster).foldl (fun p x => p.writeImage cid x) (p.writeRegions cid (p.sectionRegions cid cluster))

/-- Is the state of a context on a cluster in its save area now? -/
def savedAt (p : Pkg) (cid cluster : Nat) : Bool := (p.clusters.get cluster {}).occupant != some cid

/-- The die-scratchpad share of a context goes to its save area: at STOP (R373, R387). -/
def saveShare (p : Pkg) (cid : Nat) : Pkg :=
  match p.ctxs.get? cid with
  | some c => p.writeImage cid (0xA210000, crShare c.record, c.dspad)
  | none => p

/-- A watch that fires while its core is saved fires in the saved tables too. -/
def keepWatches (p : Pkg) (cid : Nat) : Pkg :=
  ((List.range 144).filter fun k => p.savedAt cid k && !(p.bentsAt cid k).isEmpty).foldl (fun p k =>
    p.writeRegions cid (p.tableRegions cid k)) p

/-- A store to a scratchpad of a bent that has been saved reaches the image in the save area, and one to the share of a stopped
function's context the region of the share (R373, R385). -/
def keepImage (p : Pkg) (l : Loc) : Pkg :=
  let keep (k : Nat) : Pkg :=
    match p.bents.get? k with
    | some b =>
      if p.savedAt b.ctx b.cluster then (p.spadImages b.ctx b.cluster).foldl (fun p x => p.writeImage b.ctx x) (p.keepWatches b.ctx)
      else p
    | none => p
  match l with
  | .core k _ _ => keep k
  | .clus k _ => keep k
  | .die cid _ => let p := p.keepWatches cid; if (p.vfs.get (p.vfOf cid) {}).stopped then p.saveShare cid else p
  | _ => p

/-- A value that lands in a register of a strand that has been saved, as a reply does within the drain window, lands in its images
and its record (R267), and so does what management changes of it. -/
def keepStrand (p : Pkg) (sid : Nat) : Pkg :=
  match p.strand? sid with
  | some st =>
    let cid := sidCtx sid
    if p.savedAt cid (sidCluster sid) then
      (p.strandImage sid st).foldl (fun p x => p.writeImage cid x) (p.writeRegions cid (p.strandRegions sid st))
    else p
  | none => p

/-- What an event changes of the strands, watches and matrix queues of a context that has been saved, it changes in the records of
its save area. -/
def keepCtx (p : Pkg) (cid : Nat) : Pkg :=
  ((List.range 144).filter fun k => clusterVf k == ((p.ctxs.get? cid).map (·.vf)).getD 8 && p.savedAt cid k
      && !(p.bentsAt cid k).isEmpty).foldl (fun p k => p.writeRegions cid (p.sectionRegions cid k)) p

/-! ### Reading back (R386) -/

/-- The words of a register file that are in use, from a record. -/
def loadLanes (m : Mem) (o : Nat) (t : AMap (AMap Word)) : AMap (AMap Word) :=
  t.mapVals fun r w => w.mapVals fun j _ => BitVec.ofNat 32 (leNat (m.readBytes (o + 384 * r + 4 * j) 4))

/-- `n` words from an offset on. -/
def loadWords (m : Mem) (o n : Nat) : List Word := (List.range n).map fun i => BitVec.ofNat 32 (leNat (m.readBytes (o + 4 * i) 4))

/-- A park as a record's cause and operands give it. One that has ended since the save has ended; the places for which a park
waits stay as the package holds them, and where it holds none of that cause the strand executes its instruction again. -/
def loadPark (cause x y : Nat) (old : Option Park) : Option Park :=
  match old with
  | none => none
  | some k =>
    match cause, k with
    | 1, .presence need => some (.presence need)
    | 2, .dovetail needs => some (.dovetail needs)
    | 3, _ => some (.publish5 x)
    | 4, _ => some (.lcwait x)
    | 5, .waitseq l _ met => some (.waitseq l (BitVec.ofNat 64 x) (met || bit y 0))
    | 6, _ => some (.pollq (BitVec.ofNat 64 x) y)
    | 7, _ => some .waitdep
    | 8, _ => some .table
    | 9, _ => some .spawnQueue
    | 10, _ => some (.actSlot x)
    | 11, _ => some (.elastic (y / 2) x (bit y 0))
    | 13, _ => some .trapPark
    | _, _ => none

/-- An outstanding operation as its descriptor gives it: its flag, and what a sweep has reached; what it is to do has no room in 24
bytes and stays as the package holds it (log entry 14). -/
def loadOp (m : Mem) (at0 : Nat) (o : Op) : Op :=
  let num (a n : Nat) : Nat := leNat (m.readBytes (at0 + a) n)
  { o with
    flag := num 4 1
    kind := match o.kind with
      | .sweep s => .sweep { s with total := if num 16 4 == 1 then some (BitVec.ofNat 32 (num 20 4)) else none }
      | k => k }

/-- A strand as its images and its record give it: registers and lane slices; the first 32 outstanding operations; shape registers,
cf, the trap frame and both sets of temporaries; barrier counts; and of the head clause, slot, mode, mask words, present lanes,
aging counter, POLLQ's last ring and park. Reserved bits read 0, and a mode that is not legal is not taken. Which words are in use,
and what has no place that the spec gives, stays as the package holds it (log entry 14). -/
def loadStrand (p : Pkg) (m : Mem) (sid : Nat) (st : Strand) : Strand :=
  let o := recordOffset sid
  let num (a n : Nat) : Nat := leNat (m.readBytes (o + a) n)
  let block := strandBlock sid
  let slice := p.sliceBytes st
  let taken (n : Nat) (old : DWord) : DWord :=
    let mode : DWord := BitVec.ofNat 64 n &&& modeMask
    if modeLegal st.nregs mode then mode else old
  let present := BitVec.ofNat 96 (num 64 12)
  { st with
    v := if st.truss then registersOf 1 (imageWords 4 32 (cutMem m (trussRegisters sid st).1 400))
         else registersOf 96 (imageWords 4 32 (cutMem m (block + 0x50000 + 4 * st.regBase) (384 * st.nregs)))
    slice := if st.truss then st.slice else slicesOf slice (cutMem m (block + 0x150000 + st.sliceBase) (96 * slice))
    ops := st.ops.zipIdx.map fun e => if e.2 < 32 then loadOp m (o + 0x100 + 24 * e.2) e.1 else e.1
    sh := if st.sh.isEmpty then [] else (List.range 16).map fun i => (i, BitVec.ofNat 512 (num (0x400 + 64 * i) 64))
    cf := ((loadWords m (o + 0x800) (recordLanes st)).zipIdx).map fun w => (w.2, w.1 &&& cfMask)
    frame := st.frame.map fun f =>
      { clause := BitVec.ofNat 64 (num 0x980 8), slot := num 0x988 4, mode := taken (num 0x98C 8) f.mode
        em := BitVec.ofNat 96 (num 0x994 12), temps := loadLanes m (o + 0x1800) f.temps }
    t := loadLanes m (o + 0xC00) st.t
    clause := BitVec.ofNat 64 (num 32 8)
    slot := num 40 4
    mode := taken (num 44 8) st.mode
    em := BitVec.ofNat 96 (num 52 12) &&& present
    present := present
    aging := num 78 4
    pollLast := num 82 1
    park := loadPark (num 84 1) (num 85 8) (num 93 8) st.park
    arrivals := if st.truss then st.arrivals
      else ((List.range 8).map fun n => (n, leNat (m.readBytes (block + 0x43000 + 8 * (sidPlace sid % 16) + n) 1))).filter (·.2 != 0) }

/-- The rounds of a strand's channels from their buffers. -/
def loadRounds (m : Mem) (base c : Nat) (ch : Channel) : AMap (List Word) :=
  ch.rounds.map fun r => (r.1, loadWords m (base + 256 * c + 64 * ((r.1 + 3) % 4)) r.2.length)

/-- The dovetail state of a strand from its record: the declarations, the counts, the ended marks, the defaults and the buffers. -/
def loadDove (m : Mem) (sid : Nat) (d : Dovetail) : Dovetail :=
  let o := recordOffset sid
  { d with chans := d.chans.mapVals fun c ch =>
      let num (a n : Nat) : Nat := leNat (m.readBytes (o + 0x2E00 + 16 * c + a) n)
      { ch with
        self := bit (num 0 1) 1
        ended := bit (num 0 1) 2
        vs := num 1 1
        dist := num 2 1
        count := num 4 8
        defaults := ((loadWords m (o + 0x2400 + 384 * c) 96).zipIdx).map fun w => (w.2, w.1)
        rounds := loadRounds m (o + 0x2A00) c ch } }

/-- The retained buffers and last values of an ended strand. -/
def loadRetained (m : Mem) (sid : Nat) (d : Dovetail) : Dovetail :=
  let o := retainedBase sid
  { d with chans := d.chans.mapVals fun c ch =>
      { ch with rounds := loadRounds m (o + 16) c ch, final := loadWords m (o + 1040 + 64 * c) ch.final.length } }

/-- The dovetail states that the part of a strand holds. -/
def loadDoves (m : Mem) (p : Pkg) (e : Nat × Strand) : Pkg :=
  let st := e.2
  let upd (p : Pkg) (sn : Nat) (f : Dovetail → Dovetail) : Pkg :=
    p.updLaunch st.launch fun l => { l with dovetail := l.dovetail.update sn f }
  if st.truss then p
  else
    let q := upd p st.sn (loadDove m e.1)
    match st.retained with
    | some sn => upd q sn (loadRetained m e.1)
    | none => q

/-- The absent lines of an allocation, whose presence bits begin at a bit number of the area: a line that was absent before keeps
every copy for which it waits. -/
def loadAbsent (m : Mem) (at0 n : Nat) (line : Nat → Nat) (old : List (Nat × Nat)) : List (Nat × Nat) :=
  (List.range n).flatMap fun i =>
    if bit (m.read ((at0 + i) / 8)).toNat ((at0 + i) % 8) then []
    else
      let marks := old.filter fun e => e.1 == line i
      if marks.isEmpty then [(line i, 0)] else marks

/-- An allocation as its image and its presence bits give it. -/
def loadAlloc (m : Mem) (cluster : Nat) (p : Pkg) (x : Nat × Nat × Alloc) : Pkg :=
  let p := p.putAlloc x.2.2 (cutMem m x.1 x.2.1)
  let lines := x.2.1 / 128
  match x.2.2 with
  | .core b c =>
    let k := (((p.crew? b c).map (·.core)).getD 0) % 4
    let first := 8 * (blockStart cluster k + 0x40000) + (x.1 - (blockStart cluster k + 0xD0000)) / 128
    p.updCrew b c fun y => { y with absent := loadAbsent m first lines id y.absent }
  | .window b k =>
    let first := 8 * (blockStart cluster k + 0x40000 + 512) + (x.1 - (blockStart cluster k + 0x190000)) / 128
    p.updBent b fun y =>
      { y with absent := (y.absent.filter fun l => l.1 % 4 != k) ++ loadAbsent m first lines (fun i => 4 * i + k) y.absent }

/-- The accumulator tiles of a bent as their images and kinds give them. -/
def loadTiles (m : Mem) (cluster : Nat) (b : Bent) : Bent :=
  let kinds := leNat (m.readBytes (sectionStart cluster + 0x6020) 4)
  let tile (t : Nat) : Option (Nat × Tile) :=
    let words := imageWords 8 64 (cutMem m (sectionStart cluster + 0x10000 + 0x8000 * t) 32768)
    if words.isEmpty && (b.tiles.get? t).isNone then none else some (t, { isInt := bit kinds t, pairs := words })
  { b with tiles := (List.range 32).filterMap tile }

/-- An entry of a matrix queue as its 512 bytes give it; of the one that the package holds under the same number, the strand's
operations that it waits for, its depth steps and its elastic fault stay. -/
def loadEntry (m : Mem) (o : Nat) (old : List MatOp) : MatOp :=
  let num (a n : Nat) : Nat := leNat (m.readBytes (o + a) n)
  let before := old.find? fun x => x.seq == num 128 8
  { seq := num 128 8, code := num 148 1, tile := num 149 1, recA := BitVec.ofNat 512 (num 0 64), recB := BitVec.ofNat 512 (num 64 64)
    mode := BitVec.ofNat 64 (num 136 8), after := (before.map (·.after)).getD [], started := num 150 1 == 1, nextRow := num 144 4
    steps := (before.map (·.steps)).getD 0, elastic := before.bind (·.elastic) }

/-- The matrix queue, its status word and its numbers as the section of a bent with a truss strand gives them. -/
def loadQueue (m : Mem) (cluster : Nat) (b : Bent) : Bent :=
  let o := sectionStart cluster
  let status := leNat (m.readBytes (o + 0x6000) 8)
  { b with
    matq := (List.range (min 8 (status / 256))).map fun i => loadEntry m (o + 0x5000 + 512 * i) b.matq
    mseq := leNat (m.readBytes (o + 0x6010) 8), mFirstFailed := leNat (m.readBytes (o + 0x6008) 8)
    mOF := bit status 1, mUF := bit status 2, mNV := bit status 3, mFailed := bit status 4 }

/-- An activation slot from its bytes. -/
def loadAct (m : Mem) (o : Nat) : ActSlot :=
  let w (i : Nat) : Word := BitVec.ofNat 32 (leNat (m.readBytes (o + 4 * i) 4))
  { lo := w 0, hi := w 1, linear := w 2 == 1, inv := w 3, knots := (List.range 257).map fun i => w (4 + i) }

/-- A watch from its bytes: its number, and the watch where its owner is still there. -/
def loadWatch (p : Pkg) (m : Mem) (ck o : Nat) : Option (Nat × Watch) :=
  let num (a n : Nat) : Nat := leNat (m.readBytes (o + a) n)
  let cid := ck / 1024
  let sid := cid * 16384 + (if 576 ≤ ck % 1024 then 9216 + (ck % 1024 - 576) else 16 * (ck % 1024) + num 4 4 % 16)
  (p.strand? sid).map fun st =>
    let off := num 24 8
    (num 0 4, { owner := sid, target := BitVec.ofNat 64 (num 12 8), fired := num 8 4 == 1
                loc := match num 20 1 with
                  | 3 => .core st.bent (num 21 1) off
                  | 2 => .clus st.bent off
                  | _ => .die cid off })

/-- The private tables of a core from its activation slots, its watches and its marks. -/
def loadTables (p : Pkg) (m : Mem) (ck acts watches marks : Nat) : Core :=
  let valid := leNat (m.readBytes marks 4)
  { acts := ((List.range 2).filter (bit valid)).map fun i => (i, loadAct m (acts + 1056 * i))
    watches := (List.range (min 16 (leNat (m.readBytes (marks + 4) 4)))).filterMap fun i => p.loadWatch m ck (watches + 32 * i) }

/-- The private tables of the cores of a cluster. -/
def loadCores (p : Pkg) (m : Mem) (cid cluster : Nat) : Pkg :=
  let o := sectionStart cluster
  let truss := cid * 1024 + 576 + cluster
  (List.range 4).foldl (fun q k =>
    let ck := cid * 1024 + 4 * cluster + k
    let b := blockStart cluster k
    q.updCore ck fun _ => p.loadTables m ck (b + 0x41000) (b + 0x42000) (b + 0x42F00))
    (p.updCore truss fun _ => p.loadTables m truss (o + 0x4200) (o + 0x4A80) (o + 0x4B00))

/-- The section of a cluster as the context's save area holds it becomes the state of the context's strands, bents and cores there.
Every byte of SRAM that has no image is 0. -/
def loadSection (p : Pkg) (cid cluster : Nat) (c : Ctx) : Pkg :=
  let m := p.areaMem c (sectionStart cluster) 0x900000
  let here := p.strandsAt cid cluster
  let q := (p.spadAllocs cid cluster).foldl (loadAlloc m cluster) p
  let q := here.foldl (loadDoves m) q
  let q := here.foldl (fun (q : Pkg) e => q.updStrand e.1 fun st => p.loadStrand m e.1 st) (q.loadCores m cid cluster)
  ((p.bentsAt cid cluster).filter fun b => b.2.truss.isSome).foldl (fun (q : Pkg) b =>
    q.updBent b.1 fun x => loadQueue m cluster (loadTiles m cluster x)) q

/-- The ranges of the save area that the restore of a cluster reads: the header, and what its save has written. -/
def restoredRanges (p : Pkg) (cid cluster : Nat) : List (Nat × Nat) :=
  (0, 4096) :: (p.sectionRegions cid cluster).map (fun x => (x.1, x.2.length)) ++ (p.clusterImages cid cluster).map fun x => (x.1, x.2.1)

/-- The die-scratchpad share of a context comes back from its save area, at START (R375). -/
def loadShare (p : Pkg) (cid : Nat) : Pkg :=
  p.updCtx cid fun c => { c with dspad := cutMem (p.areaMem c 0xA210000 (crShare c.record)) 0xA210000 (crShare c.record) }

end Pkg

end Sys2Proof.Machine
end

