-- ==== Sys2Proof/Machine/Fabric.lean ====
section
/-!
DEFINITION. Fabric packets (R319 to R326), target-encoded addresses (R325), the remote instructions (R255, R259), and
what a package does with a request, a reply or a negative reply (R329 to R339).
-/
namespace Sys2Proof.Machine

open Pkg (Exe)

/-! ### The header flit (R323) -/

/-- `f n`, with `n` evaluated first. -/
def evalFirst (n : Nat) (f : Nat → Nat) : Nat := match n with | 0 => f 0 | m + 1 => f (m + 1)
/-- One bit of CRC-32C, reflected. -/
def crcBit (c : Nat) : Nat := evalFirst c fun c => if c % 2 == 1 then (c / 2) ^^^ 0x82F63B78 else c / 2
/-- One byte of CRC-32C. -/
def crcByte (c : Nat) (b : Byte) : Nat := (List.range 8).foldl (fun x _ => crcBit x) (c ^^^ b.toNat)
def crc32c (l : List Byte) : Nat := (l.foldl crcByte 0xFFFFFFFF) ^^^ 0xFFFFFFFF

/-- The fields of a header flit; the source port is the sender's, and the check is computed. -/
structure Head where
  op : Nat
  channel : Nat
  vf : Nat
  dest : Nat
  source : Nat
  gen : Nat
  flits : Nat
  counted : Bool
  last : Bool
  tag : Nat
  bytes : Nat
  target : Nat
  counter : Nat
  operand : Nat
  lease : Nat
  ctx : Nat
  deriving DecidableEq, Repr

/-- A number placed at a bit position, cut to a width. -/
def place (v width lo : Nat) : Nat := (v % 2 ^ width) * 2 ^ lo

/-- Bits [479:0] of a header flit. -/
def Head.low (h : Head) : Nat :=
  place h.op 8 0 + place h.channel 5 8 + place h.vf 3 13 + place h.dest 9 16 + place h.source 9 25
    + place h.gen 8 34 + place h.flits 7 42 + (if h.counted then 2 ^ 49 else 0) + (if h.last then 2 ^ 50 else 0)
    + place h.tag 32 64 + place h.bytes 32 96 + place h.target 64 128 + place h.counter 64 192
    + place h.operand 128 256 + place h.lease 16 384 + place h.ctx 6 400

/-- The header check: CRC-32C over bits [479:0]. -/
def headCheck (low : Nat) : Nat := evalFirst low fun n => crc32c (leBytes 60 n)

def Head.flit (h : Head) : BitVec 512 := BitVec.ofNat 512 (h.low + place (headCheck h.low) 32 480)

/-- The fields of a packet's header. -/
def headOf (p : Packet) : Head :=
  let f := ldField p.header
  { op := f 7 0, channel := f 12 8, vf := f 15 13, dest := f 24 16, source := f 33 25, gen := f 41 34, flits := f 48 42,
    counted := f 49 49 == 1, last := f 50 50 == 1, tag := f 95 64, bytes := f 127 96, target := f 191 128,
    counter := f 255 192, operand := f 383 256, lease := f 399 384, ctx := f 405 400 }

/-- Operation codes of R324. -/
def packetCodes : List Nat := [0x01, 0x02, 0x03, 0x04, 0x05, 0x08, 0x09, 0x0C, 0x0D, 0x0E, 0x0F, 0x10, 0x11, 0x12]

/-- Does a packet of an operation carry data flits (R322)? A READ, an ATOMIC and a CAS carry none. -/
def carriesData (op : Nat) : Bool := !(op == 0x03 || op == 0x04 || op == 0x05)

/-- Is a packet sound (R322, R324): it has arrived whole, its check holds, its code exists and its reserved fields are 0? -/
def soundPacket (p : Packet) : Bool :=
  let h := p.header.toNat
  bits h 511 480 == headCheck (h % 2 ^ 480) && packetCodes.contains (bits h 7 0)
    && bits h 479 406 == 0 && bits h 63 51 == 0
    && (!carriesData (bits h 7 0) || bits h 127 96 ≤ p.payload.length)

/-- The payload bytes of a packet, without the padding of its last data flit (R322). -/
def payloadOf (p : Packet) : List Byte := p.payload.take (headOf p).bytes

/-- Data flits of a payload. -/
def flitsOf (n : Nat) : Nat := ceilDiv n 64

namespace Pkg

/-! ### Planes (R320, R321, R339) -/

def livePlanes (p : Pkg) : List Nat := (List.range 48).filter fun n => !p.planesDown.contains n

/-- The plane of packet `m` of a transfer to a yard port. -/
def transferPlane (p : Pkg) (dest m : Nat) : Option Nat :=
  let first := (p.yardPort + dest) % 48
  let order := (p.livePlanes.filter (first ≤ ·)) ++ (p.livePlanes.filter (· < first))
  if order.isEmpty then none else order[m % order.length]?

/-- The plane that a pinned operation prefers. -/
def pinnedPlane (va rank : Nat) : Nat := (bits va 22 7 + 13 * rank) % 48

/-- The planes from one on in ascending order mod 48. -/
def planesFrom (n : Nat) : List Nat := (List.range 48).map fun i => (n + i) % 48

/-- The plane of a pinned operation: the first live one from the plane it prefers on (R321). -/
def firstLive (p : Pkg) (va rank : Nat) : Option Nat := (planesFrom (pinnedPlane va rank)).find? fun n => !p.planesDown.contains n

/-- The plane of a new pinned operation: none while operations sent on a lost plane that it passes over are open (R321). -/
def pinnedRoute (p : Pkg) (va rank : Nat) : Option Nat :=
  let lost := (planesFrom (pinnedPlane va rank)).takeWhile p.planesDown.contains
  if lost.any fun m => p.sent.any fun s => s.plane == m && !s.queued then none else p.firstLive va rank

/-! ### Sending -/

/-- Send a request: it leaves on a plane and is remembered until it is answered (R328). -/
def sendRequest (p : Pkg) (h : Head) (payload : List Byte) (plane : Nat) (sid : Option Nat)
    (entry : Option (Nat × Nat)) : Pkg :=
  let k : Packet := { header := h.flit, payload := payload }
  { p with outbox := p.outbox ++ [k],
           sent := p.sent ++ [{ tag := h.tag, packet := k, plane := plane, time := p.time, sid := sid, entry := entry }] }

/-- Bytes of the target that a pinned operation accesses. -/
def pinnedBytes (h : Head) : Nat :=
  if h.op == 0x03 then h.bytes else if h.op == 0x04 then (if bit h.operand 6 then 8 else 4) else 8

def isPinned (h : Head) : Bool := h.op == 0x03 || h.op == 0x04 || h.op == 0x05

/-- Do two requests access a common byte of one package as pinned operations? -/
def samePlace (h k : Head) : Bool :=
  isPinned h && isPinned k && h.dest == k.dest && h.ctx == k.ctx
    && h.target < k.target + pinnedBytes k && k.target < h.target + pinnedBytes h

/-- Is an earlier RLD, RATOM or RCAS of a strand to one of the same bytes open? The next one is not sent before that one
has been answered, so that they are performed in program order, whatever holds or sends back the first (R131). -/
def behindSent (p : Pkg) (sid : Nat) (h : Head) : Bool := p.sent.any fun s => s.sid == some sid && samePlace (headOf s.packet) h

/-- The number of the operation of a strand that a tag belongs to: those issued before it have lower ones. -/
def opOfTag (p : Pkg) (st : Strand) (tag : Nat) : Nat :=
  ((st.ops.find? fun o => match o.kind with | .remote _ ls => ls.any fun l => l.tag == tag | _ => false).map (·.id)).getD p.nextId

/-- Does a request to this package come after an access that its strand has made without the fabric, to one of the same
bytes, and that is not performed yet? A strand's accesses to a word are observed in program order (R121, R127). -/
def behindOwn (p : Pkg) (sid : Nat) (h : Head) : Bool :=
  h.dest == p.yardPort &&
    match p.strand? sid, p.targetPlace h.ctx h.lease h.target with
    | some st, some x => st.ops.any fun o => o.id < p.opOfTag st h.tag && match o.kind with
      | .remote .. => false
      | k => (opBytes p sid st k).any fun y => p.shareByte x.1 x.2 y.1 y.2
    | _, _ => false

/-- A lane's request: it is sent, or waits for the earlier ones. -/
def sendLane (p : Pkg) (sid : Nat) (h : Head) (payload : List Byte) (plane : Nat) : Pkg :=
  if p.behindSent sid h || p.behindOwn sid h then
    { p with sent := p.sent ++ [{ tag := h.tag, packet := { header := h.flit, payload := payload }, plane := plane, time := p.time,
                                  sid := some sid, entry := none, queued := true }] }
  else p.sendRequest h payload plane (some sid) none

/-- The gang rank of a yard port for a context (R330). -/
def rankOf (p : Pkg) (cid port : Nat) : Nat :=
  (((((p.ctxs.get? cid).map (·.gang)).getD []).find? fun e => e.2.getLsbD 15 && bits e.2.toNat 8 0 == port).map (·.1)).getD 0

/-- The plane on which an open request would go now: that of R321 for a pinned operation, which waits for a lost plane only
as long as it is new. -/
def planeNow (p : Pkg) (s : Sent) : Option Nat :=
  let h := headOf s.packet
  match s.sid with
  | some sid =>
    let rank := p.rankOf (sidCtx sid) h.dest
    if !isPinned h then p.transferPlane h.dest 0
    else if s.queued then p.pinnedRoute h.target rank else p.firstLive h.target rank
  | none => p.transferPlane h.dest 0

/-- Send the first waiting request before which nothing is open any more, under the generation of the moment (R323). A strand
that is halted sends nothing. -/
def sendQueued (p : Pkg) (before : List Sent) : List Sent → Pkg
  | [] => p
  | s :: rest =>
    let h := headOf s.packet
    let blocked := (before.any fun e => e.sid == s.sid && samePlace (headOf e.packet) h) || s.sid.any fun sid => p.behindOwn sid h
    match s.sid, p.planeNow s with
    | some sid, some n =>
      if !s.queued || blocked || !p.isResident sid then p.sendQueued (before ++ [s]) rest
      else
        let k := { s.packet with header := { h with gen := (p.vfs.get h.vf {}).gen }.flit }
        { p with outbox := p.outbox ++ [k],
                 sent := before ++ { s with packet := k, queued := false, time := p.time, plane := n } :: rest }
    | _, _ => p.sendQueued (before ++ [s]) rest

/-- The tag of a strand's request, and that of an engine's. A WRITE of a strand (RST) and one of an engine reach different
sides of a twin (R112), and the header says of neither which it is (R323): the packages tell them apart by bit 31 of the tag,
which is the issuer's to choose: the model's choice (log entry 27). -/
def strandTag (n : Nat) : Nat := 2 ^ 31 + n % 2 ^ 31
def engineTag (n : Nat) : Nat := n % 2 ^ 31

/-- The header of a request of a context to a target given by its gang-table entry. Its data flits are those it carries: none
for a READ, whose bytes field counts the bytes requested. Bit 50, last packet of its transfer, is 1: a READ, an ATOMIC and a
CAS, which belong to no transfer, are taken as transfers of one packet: the model's choice (log entry 72). -/
def requestHead (p : Pkg) (cid : Nat) (peer : Nat × Nat × Nat) (op tag bytes target operand : Nat) : Head :=
  let v := p.vfOf cid
  { op := op, channel := 3 * v, vf := v, dest := peer.1, source := p.yardPort, gen := (p.vfs.get v {}).gen,
    flits := if op == 0x01 || op == 0x02 then flitsOf bytes else 0, counted := false, last := true, tag := tag,
    bytes := bytes, target := target, counter := 0, operand := operand, lease := peer.2.2, ctx := peer.2.1 }

end Pkg

/-! ### Remote instructions (R255, R256, R259) -/

/-- The remote operation of a strand is over: the strand observes the failed lanes later (R256). -/
def remoteFailure (o : Op) (ls : List RemoteLane) : Option OpFailure :=
  match ls.filter fun l => l.failed.isSome with
  | [] => none
  | first :: rest =>
    some { op := o.id, flag := o.flag, regs := o.dests, cause := 0x0F, reason := 0, lanes := laneMask ((first :: rest).map (·.lane)),
           addr := first.addr, extra0 := BitVec.ofNat 32 (first.failed.getD 0),
           extra1 := BitVec.ofNat 32 (remoteRank first.addr.toNat), extra2 := 0 }

/-- End the remote operations of a strand that every lane has answered. -/
def settleRemote (st : Strand) : Strand :=
  let answers (o : Op) : Option (List RemoteLane) :=
    match o.kind with
    | .remote _ ls => if ls.all (·.answered) then some ls else none
    | _ => none
  { st with
    failures := st.failures ++ st.ops.filterMap fun o => (answers o).bind (remoteFailure o)
    ops := st.ops.filter fun o => (answers o).isNone }

/-- What a remote form sends for a lane: the packet code, its bytes field, its payload and its operand field. -/
structure RemoteReq where
  op : Nat
  bytes : Nat
  payload : List Byte
  operand : Nat

/-- The route of one lane: none while it has to wait for a plane. RST spreads as a transfer does. -/
def remoteRoute (p : Pkg) (pinned : Bool) (dest va rank : Nat) : Option Nat :=
  if pinned then p.pinnedRoute va rank else p.transferPlane dest 0

/-- Send the lanes of a remote form in order: what each lane then waits for. -/
def sendLanes (x : Exe) (req : Nat → RemoteReq) (reg : Nat → Nat) : Pkg → List Nat → Pkg × List RemoteLane
  | p, [] => (p, [])
  | p, j :: rest =>
    let a := (x.env.get64 x.a j).toNat
    let cid := sidCtx x.sid
    match p.gangEntry cid (remoteRank a) with
    | none =>
      let (p, ls) := sendLanes x req reg p rest
      (p, { lane := j, reg := reg j, addr := BitVec.ofNat 64 a, tag := 0, answered := true, failed := some 0xFF } :: ls)
    | some peer =>
      let r := req j
      let (n, p) := p.takeId
      let plane := (remoteRoute p (r.op != 0x01) peer.1 (remoteVa a) (remoteRank a)).getD 0
      let p := p.sendLane x.sid (p.requestHead cid peer r.op (Pkg.strandTag n) r.bytes (remoteVa a) r.operand) r.payload plane
      let (p, ls) := sendLanes x req reg p rest
      (p, { lane := j, reg := reg j, addr := BitVec.ofNat 64 a, tag := Pkg.strandTag n } :: ls)

/-- A remote form: the issuer checks alignment, then each On lane sends a packet (R255). `w` is the width code of
the value that comes back, 7 for none; `n` the registers it fills. -/
def bodyRemote (align w n : Nat) (req : Nat → RemoteReq) (x : Exe) : Eff :=
  let js := x.st.onLanes
  match x.p.misaligned align (js.map fun j => ⟨j, remoteVa (x.env.get64 x.a j).toNat⟩) with
  | some (.trap p t) => .trap p { t with addr := ((js.find? fun j =>
      remoteVa (x.env.get64 x.a j).toNat % align != 0).map fun j => (x.env.get64 x.a j).toNat).getD 0 }
  | some e => e
  | none =>
    if !x.p.canEnter x.sid x.st then .park x.p .table
    else if js.any fun j =>
        let a := (x.env.get64 x.a j).toNat
        match x.p.gangEntry (sidCtx x.sid) (remoteRank a) with
        | some peer => (remoteRoute x.p ((req j).op != 0x01) peer.1 (remoteVa a) (remoteRank a)).isNone
        | none => false
    then .hold
    else
      let (p, ls) := sendLanes x req (landReg x) x.p js
      match p.issueOp x (if w == 7 then [] else codesFrom x.d n) true (.remote w ls) with
      | .next p => .next (p.updStrand x.sid settleRemote)
      | e => e

def bodyRld (x : Exe) : Eff :=
  let w := x.b / 16
  bodyRemote (widthBytes w) w (widthRegs w) (fun _ => ⟨0x03, widthBytes w, [], 0⟩) x

def bodyRst (x : Exe) : Eff :=
  let w := x.b / 16
  bodyRemote (widthBytes w) 7 0
    (fun j => ⟨0x01, widthBytes w, storeData x x.d (widthRegs w) (widthBytes w) j, 0⟩) x

def bodyRatom (x : Exe) : Eff :=
  let n := atomBytes x.b
  bodyRemote n (if n == 8 then 5 else 4) (n / 4)
    (fun j => ⟨0x04, 0, [], x.b % 64 + (if n == 8 then 64 else 0) + place (x.env.getN (n / 4) x.d j) 64 64⟩) x

def bodyRcas (x : Exe) : Eff :=
  bodyRemote 8 5 2
    (fun j => ⟨0x05, 0, [], (x.env.get64 x.b j).toNat + place (x.env.get64 x.d j).toNat 64 64⟩) x

/-! ### Target-encoded addresses (R325) -/

/-- What an encoded address names: a global address, a scratchpad location with its allocation's size, or nothing,
with the target-side cause. -/
inductive Enc where
  | global (va : Nat)
  | scratch (l : Loc) (size : Nat)
  | bad (cause : Nat)
  deriving DecidableEq, Repr

namespace Pkg

/-- The bent of the most recently accepted launch that bears a tag, on a cluster (R325). -/
def taggedBent (p : Pkg) (cid tag cluster : Nat) : Option (Nat × Bent) :=
  match (p.ctxs.get? cid).bind fun c => c.tags.get? tag with
  | some l => p.bents.find? fun e => e.2.launch == l && e.2.cluster == cluster
  | none => none

/-- Decode an encoded address of a context. `saved` also reaches bents of a context that has been saved (R385). The crew
position lies in [49:48], as R325 and R343 have it; R99, which names bits [33:32], is read as speaking of the pairs of truss
strands and of shape records (log entry 73). Bits [54:32] in space 1 and [49:48] in space 2, which it neither uses nor reserves,
are ignored (log entry 107). -/
def decodeEnc (p : Pkg) (cid : Nat) (saved : Bool) (a : Nat) : Enc :=
  let off := bits a 31 0
  let cluster := 18 * p.vfOf cid + bits a 54 50
  let bentThere : Option (Nat × Bent) :=
    match p.taggedBent cid (bits a 47 32) cluster with
    | some e => if saved || (p.clusters.get cluster {}).occupant == some cid then some e else none
    | none => none
  if bits a 59 55 != 0 then .bad 0x03
  else match bits a 63 60 with
    | 0 => .global (bits a 54 0)
    | 1 => .scratch (.die cid off) (p.shareOf cid)
    | 2 =>
      if 17 < bits a 54 50 then .bad 0x03
      else match bentThere with
        | some (k, b) => .scratch (.clus k off) (((p.launches.get? b.launch).map fun l => ldQspad l.desc).getD 0)
        | none => .bad 0x0E
    | 3 =>
      if 17 < bits a 54 50 then .bad 0x03
      else match bentThere with
        | some (k, b) =>
          if (b.crews.get? (bits a 49 48)).isSome then
            .scratch (.core k (bits a 49 48) off) (((p.launches.get? b.launch).map fun l => ldKspad l.desc).getD 0)
          else .bad 0x0E
        | none => .bad 0x0E
    | _ => .bad 0x03

/-- What an access of a request at its target meets (R331). -/
inductive Reach where
  | at (l : Loc)
  | cause (c : Nat)
  | elastic (va : Nat)
  deriving DecidableEq, Repr

/-- Does some line of a byte range have an uncorrectable error? -/
def badIn (p : Pkg) (l : Loc) (n : Nat) : Bool :=
  (List.range ((l.offset % 128 + n + 127) / 128)).any fun i => p.isBad (if i == 0 then l else l.plus (128 * i - l.offset % 128))

/-- A location by the physical address that an access reaches: the unselected side of a twin for an engine write (R112). -/
def sideLoc (p : Pkg) (l : Loc) (engine : Bool) : Loc :=
  match l with
  | .twin c i pa => .hbm (if engine then p.shadowPa c i pa else p.selectedPa c i pa)
  | l => l

/-- The location of `n` bytes at an encoded address, under a lease, with the checks of R331. `engine` says which side of a
twin the request reaches. -/
def reach (p : Pkg) (cid : Nat) (lease : List LeaseRange) (saved engine : Bool) (a n : Nat) (need : Need) : Pkg × Reach :=
  let sound (p : Pkg) (l : Loc) : Pkg × Reach :=
    if p.badIn (p.sideLoc l engine) n then (p.say (.errorEvent l.offset), .cause 0xFC) else (p, .at l)
  match p.decodeEnc cid saved a with
  | .bad c => (p, .cause c)
  | .scratch l size => if size < l.offset + n then (p, .cause 0x0E) else sound p l
  | .global va =>
    match p.translate (p.enginePort cid) cid lease va need with
    | (p, .ok l) => sound p l
    | (p, .outside) => (p, .cause 0x06)
    | (p, .permission _) => (p, .cause 0x07)
    | (p, .keyAlias _ _) => (p, .cause 0x08)
    | (p, .elastic g) => (p, .elastic g)

/-! ### Performing a request (R332, R337, R352) -/

/-- A reply to a request: on its reply channel, under the request's generation. It belongs to no transfer, and its bit 50,
last packet of its transfer, is 0: the model's choice (log entry 72). -/
def reply (p : Pkg) (h : Head) (op : Nat) (payload : List Byte) (operand : Nat) : Pkg :=
  let ack := h.op == 0x01 || h.op == 0x02
  let r : Head :=
    { op := op, channel := 3 * h.vf + (if ack then 2 else 1), vf := h.vf, dest := h.source, source := p.yardPort,
      gen := h.gen, flits := flitsOf payload.length, counted := false, last := false, tag := h.tag,
      bytes := payload.length, target := 0, counter := 0, operand := operand, lease := 0, ctx := 0 }
  { p with outbox := p.outbox ++ [{ header := r.flit, payload := payload }] }

/-- Reception classes of R337. -/
inductive Age where
  | perform | stale | retry
  deriving DecidableEq, Repr

/-- The class of a packet of a function by its generation; `previous` says that it belongs to the previous one. -/
def ageOf (p : Pkg) (vf gen : Nat) : Age :=
  let v := p.vfs.get vf {}
  let d := (gen + 256 - v.gen % 256) % 256
  if d == 0 then .perform
  else if d == 255 then
    match v.drainEnd with
    | some t => if p.time < t then .perform else .stale
    | none => .stale
  else if 128 ≤ d then .stale else .retry

/-- One element of a REDUCE: the target's value `x` with the lane's value `y` (R352). -/
def reduceValue (fmt red x y : Nat) : Nat :=
  match intOfCode fmt with
  | some t =>
    let a := t.view x
    let b := t.view y
    patternOf t.w (if red == 0 then a + b else if red == 1 then min a b else max a b)
  | none =>
    match fmtOfCode fmt with
    | some f => (if red == 0 then fAdd f 0 x y else fMinMax f (red == 2) x y).bits
    | none => y

/-- Bytes of a location on the side that engine writes reach (R112), as a read-modify-write finds them. -/
def readEngine (p : Pkg) (l : Loc) (n : Nat) : List Byte := p.homeBytes (p.sideLoc l true) n

/-- Combine the elements of a REDUCE into their location. -/
def doReduce (p : Pkg) (l : Loc) (fmt red : Nat) (data : List Byte) : Nat → Pkg
  | 0 => p
  | n + 1 =>
    let e := elemBytes fmt
    let p := p.doReduce l fmt red data n
    let x := leNat (p.readEngine (l.plus (e * n)) e)
    p.writeLoc none true (l.plus (e * n)) (leBytes e (reduceValue fmt red x (leNat ((data.drop (e * n)).take e))))

/-- Add to a landing counter (R332). -/
def addCounter (p : Pkg) (l : Loc) (n : Nat) : Pkg :=
  p.writeLoc none true l (leBytes 8 (leNat (p.readEngine l 8) + n))

/-- Does a request reach the unselected side of a twin, as the engines' writes do, or the selected side, as a strand's
accesses do (R112)? An RST, whose tag is a strand's, acts as ST does (R255). -/
def engineWrite (h : Head) : Bool :=
  match h.op with
  | 0x01 => h.tag < 2 ^ 31
  | 0x02 => true
  | _ => false

/-- The core whose strand sent a request that this package has also received. -/
def issuerCore (p : Pkg) (h : Head) : Option Nat :=
  if h.source == p.yardPort then ((p.sent.find? fun s => s.tag == h.tag).bind (·.sid)).bind sidCore else none

/-- Bytes that the one access of a request reaches. -/
def requestBytes (h : Head) : Nat :=
  if h.op == 0x04 then (if bit h.operand 6 then 8 else 4) else if h.op == 0x05 then 8 else h.bytes

/-- What a request does once every check has passed: its effect and its reply. Remote data are cached in no L1 (R130): the
core of a strand that reaches its own package keeps no copy of the words, so that a later load of it finds none older than
this access (R121, R127). -/
def performAt (p : Pkg) (h : Head) (data : List Byte) (l : Loc) : Pkg :=
  let p := p.dropLoc (p.issuerCore h) l (requestBytes h)
  let n := requestBytes h
  match h.op with
  | 0x01 => p.writeLoc none (engineWrite h) l data
  | 0x02 => p.doReduce l (bits h.operand 3 0) (bits h.operand 7 4) data (data.length / elemBytes (bits h.operand 3 0))
  | 0x03 => let (p, b) := p.readHome l h.bytes; p.reply h 0x08 b 0
  | 0x04 =>
    let b := p.homeBytes l n
    let v := atomicValue (bits h.operand 5 0) (8 * n) (leNat b) (bits h.operand 127 64)
    (p.writeLoc none false l (leBytes n v)).reply h 0x09 b 0
  | _ =>
    let b := p.homeBytes l 8
    let p := if leNat b == bits h.operand 63 0 then p.writeLoc none false l (leBytes 8 (bits h.operand 127 64))
      else (p.readHome l 8).1.registerLoc none l 8
    p.reply h 0x09 b 0

/-- The access that a request makes: its bytes, its permissions and the multiple that its address has to be. -/
def requestAccess (h : Head) : Nat × Need × Nat :=
  match h.op with
  | 0x01 => (h.bytes, needWrite, 1)
  | 0x02 => (h.bytes, needAtomic, elemBytes (bits h.operand 3 0))
  | 0x03 => (h.bytes, needRead, 1)
  | 0x04 => (if bit h.operand 6 then 8 else 4, needAtomic, if bit h.operand 6 then 8 else 4)
  | _ => (8, needAtomic, 8)

/-- Is the operand field of a REDUCE or ATOMIC illegal? -/
def operandIllegal (h : Head) : Bool :=
  (h.op == 0x02 && (8 ≤ bits h.operand 3 0 || 2 < bits h.operand 7 4)) || (h.op == 0x04 && 12 < bits h.operand 5 0)

/-- The outcome of the checks of a request at its target. -/
inductive Arrival where
  | ok (l : Loc) (counter : Option Loc)
  | fail (cause : Nat)
  | elastic (va : Nat)
  deriving DecidableEq, Repr

/-- The checks of a request (R325, R330, R331). -/
def checkRequest (p : Pkg) (h : Head) : Pkg × Arrival :=
  match p.ctxs.get? h.ctx with
  | none => (p, .fail 0xFB)
  | some c =>
    match c.leases.get? h.lease with
    | none => (p, .fail 0xFB)
    | some lease =>
      if c.vf != h.vf then (p, .fail 0xFB)
      else if operandIllegal h then (p, .fail 0x03)
      else
        let v := p.vfs.get h.vf {}
        let saved := h.gen % 256 != v.gen % 256 || v.held == some h.ctx
        let (n, need, align) := requestAccess h
        if h.target % align != 0 || (h.counted && h.counter % 8 != 0) then (p, .fail 0x05)
        else
          match p.reach h.ctx lease saved (engineWrite h) h.target n need with
          | (p, .cause k) => (p, .fail k)
          | (p, .elastic g) => (p, .elastic g)
          | (p, .at l) =>
            if h.counted then
              match p.reach h.ctx lease saved true h.counter 8 needAtomic with
              | (p, .cause k) => (p, .fail k)
              | (p, .elastic g) => (p, .elastic g)
              | (p, .at m) => (p, .ok l (some m))
            else (p, .ok l none)

/-- Is a packet held that comes from the same package for the same bytes (R131)? -/
def behindHeld (h : Head) (l : List Packet) : Bool := l.any fun e => (headOf e).source == h.source && samePlace (headOf e) h

/-- A packet enters the fault hold of its function, or is sent back where the hold is full (R329). -/
def holdPacket (p : Pkg) (k : Packet) : Pkg :=
  let h := headOf k
  if (p.vfs.get h.vf {}).faultHold.length < 64 then p.updVf h.vf fun v => { v with faultHold := v.faultHold ++ [k] }
  else p.reply h 0x0D [] 0

/-- A request whose generation is performed: its effect, or a negative reply. `held` is one that Amiah performs out
of the fault hold. -/
def performRequest (p : Pkg) (k : Packet) (held : Bool) : Pkg :=
  let h := (headOf k)
  if !held && behindHeld h (p.vfs.get h.vf {}).faultHold then p.holdPacket k
  else
  match p.checkRequest h with
  | (p, .fail c) => p.reply h 0x0F [] c
  | (p, .elastic _) => if held then p else p.holdPacket k
  | (p, .ok l m) =>
    let p := (p.performAt h (payloadOf k) l).keepImage l
    let p := match m with | some c => (p.addCounter c h.bytes).keepImage c | none => p
    if h.op == 0x01 || h.op == 0x02 then p.reply h 0x0C [] 0 else p

/-- A packet arrives that should carry one of some operations: an unsound one is dropped and counted (R322, R324);
another operation is not this event. -/
def arrive (p : Pkg) (k : Packet) (codes : List Nat) (f : Pkg → Head → Pkg) : Pkg :=
  if !soundPacket k then { p with linkErrors := p.linkErrors + 1 }
  else if codes.contains (headOf k).op then f p (headOf k)
  else p

/-- A request arrives (R337). -/
def request (p : Pkg) (k : Packet) (code : Nat) : Pkg :=
  p.arrive k [code] fun p h =>
    match p.ageOf h.vf h.gen with
    | .perform => p.performRequest k false
    | .stale => p.reply h 0x0E [] 0
    | .retry => p.reply h 0x0D [] 0

/-! ### Replies (R255, R256, R334, R338) -/

/-- A request is no longer open; one that waited for it goes. -/
def closeSent (p : Pkg) (tag : Nat) : Pkg :=
  let rest := p.sent.filter fun s => s.tag != tag
  { p with sent := rest }.sendQueued [] rest

/-- One lane of a strand's remote operations has its answer: bytes that came back, or a failure. -/
def landLane (p : Pkg) (sid tag : Nat) (ans : Except Nat (List Byte)) : Pkg :=
  p.updStrand sid fun st =>
    let mine (ls : List RemoteLane) : Option RemoteLane := ls.find? fun l => l.tag == tag && !l.answered
    let land := st.ops.findSome? fun o =>
      match o.kind with
      | .remote w ls => (mine ls).map fun l => (w, l)
      | _ => none
    let st := match land, ans with
      | some (w, l), .ok b => if w == 7 then st else st.putLane l.reg l.lane (extendLoad w b)
      | _, _ => st
    let mark (l : RemoteLane) : RemoteLane :=
      if l.tag == tag && !l.answered then
        { l with answered := true, failed := match ans with | .error c => some c | .ok _ => none }
      else l
    let kind (k : OpKind) : OpKind := match k with | .remote w ls => .remote w (ls.map mark) | k => k
    settleRemote { st with ops := st.ops.map fun o => { o with kind := kind o.kind } }

/-- The answer of a lane: within the drain window it also reaches the record and the images of a strand that has been saved (R267). -/
def answerLane (p : Pkg) (sid tag : Nat) (ans : Except Nat (List Byte)) : Pkg := (p.landLane sid tag ans).keepStrand sid

/-- An engine entry's packet has its answer: an acknowledgement, or a status with a cause (R331, R334). -/
def answerPacket (p : Pkg) (entry m : Nat) (ans : Except (Nat × Nat) Unit) : Pkg :=
  p.updEntry entry fun e =>
    match ans with
    | .ok _ => { e with acks := e.acks.zipIdx.map fun a => if a.2 == m then (a.1.1, true) else a.1 }
    | .error (s, c) => if e.status.isNone then { e with status := some s, cause := c } else e

/-- The entry status of a target-side or issuer-side cause. -/
def statusOfCause (c : Nat) : Nat := if c == 0xFE then 7 else if c == 0xFD then 9 else 8

/-- A sent request fails with a cause. -/
def failSent (p : Pkg) (s : Sent) (cause : Nat) : Pkg :=
  let p := p.closeSent s.tag
  match s.sid, s.entry with
  | some sid, _ => p.answerLane sid s.tag (.error cause)
  | none, some (e, m) => p.answerPacket e m (.error (statusOfCause cause, if cause == 0xFE || cause == 0xFD then 0 else cause))
  | none, none => p

/-- A sent request is answered with bytes. -/
def answerSent (p : Pkg) (s : Sent) (data : List Byte) : Pkg :=
  let p := p.closeSent s.tag
  match s.sid, s.entry with
  | some sid, _ => p.answerLane sid s.tag (.ok data)
  | none, some (e, m) => p.answerPacket e m (.ok ())
  | none, none => p

/-- A reply arrives: after the drain window its operation fails as stale (R331, R337). -/
def replied (p : Pkg) (k : Packet) (code : Nat) (f : Pkg → Head → Sent → Pkg) : Pkg :=
  p.arrive k [code] fun p h =>
    match p.sent.find? fun s => s.tag == h.tag with
    | none => p
    | some s => if p.ageOf h.vf h.gen == .stale then p.failSent s 0xFE else f p h s

/-- LANDING ACK, READ RESPONSE and ATOMIC RESPONSE. -/
def answered (p : Pkg) (k : Packet) (code : Nat) : Pkg := p.replied k code fun p _ s => p.answerSent s (payloadOf k)

/-- NACK RETRY: the packet is sent again 1 µs later (R329). -/
def nackRetry (p : Pkg) (k : Packet) : Pkg :=
  p.replied k 0x0D fun p _ s =>
    { p with sent := p.sent.map fun x => if x.tag == s.tag then { x with resend := true, time := p.time } else x }

def nackStale (p : Pkg) (k : Packet) : Pkg := p.replied k 0x0E fun p _ s => p.failSent s 0xFE
def nackFail (p : Pkg) (k : Packet) : Pkg := p.replied k 0x0F fun p h s => p.failSent s (bits h.operand 7 0)

/-- RETRY_RESEND: unchanged, on a live plane for a transfer packet, else on the plane of R321. Nothing from before a
raising is sent again (R338). -/
def resend (p : Pkg) (tag : Nat) : Pkg :=
  match p.sent.find? fun s => s.tag == tag && s.resend with
  | none => p.sendQueued [] p.sent
  | some s =>
    let h := headOf s.packet
    match p.planeNow { s with resend := false } with
    | some n =>
      if s.time + 1000 ≤ p.time && h.gen % 256 == (p.vfs.get h.vf {}).gen % 256 then
        let again (x : Sent) : Sent :=
          if x.tag == tag then { x with resend := false, time := p.time, plane := n } else x
        { p with outbox := p.outbox ++ [s.packet], sent := p.sent.map again }
      else p
    | none => p

/-- Is a request on a plane that is down, or has gone down since it was sent? -/
def planeLost (p : Pkg) (s : Sent) : Bool :=
  p.planesDown.contains s.plane || ((p.planeFailures.get? s.plane).any fun t => s.time ≤ t)

/-- REMOTE_TIMEOUT: no reply 20 µs after the send, from a plane that has gone down (R339). -/
def timeout (p : Pkg) (tag : Nat) : Pkg :=
  match p.sent.find? fun s => s.tag == tag with
  | some s => if !s.queued && p.planeLost s && s.time + 20000 ≤ p.time then p.failSent s 0xFD else p
  | none => p

/-- The first held packet that can be performed: its page is resolved, and none held before it comes from the same package
for the same bytes (R131, R329). -/
def heldReady (p : Pkg) (before : List Packet) : List Packet → Option Packet
  | [] => none
  | k :: rest =>
    let h := headOf k
    let behind := behindHeld h before
    let waits := match (p.checkRequest h).2 with | .elastic _ => true | _ => false
    if behind || waits then p.heldReady (before ++ [k]) rest else some k

/-- FAULT_HOLD_PERFORM: a packet held for an elastic fault that can now be performed (R329). -/
def performHeld (p : Pkg) (vf : Nat) : Pkg :=
  match p.heldReady [] (p.vfs.get vf {}).faultHold with
  | none => p
  | some k => (p.updVf vf fun v => { v with faultHold := v.faultHold.erase k }).performRequest k true

/-- LINK_DOWN (R339): the link and its plane are down for this package. -/
def linkDown (p : Pkg) (port : Nat) : Pkg :=
  if 48 ≤ port || p.planesDown.contains port then p
  else { p with planesDown := p.planesDown ++ [port], planeFailures := p.planeFailures.set port p.time }.say (.planeDown port)

/-- PLANE_RETRAIN (R339). -/
def planeRetrain (p : Pkg) (port : Nat) : Pkg := { p with planesDown := p.planesDown.filter (· != port) }

end Pkg

/-! ### The meanings -/

/-- RLD (R255). -/
def execRld (d a b : Field) : State → Host.Outcome State Fault Refusal :=
  execWord 0x90 d a b bodyRld

/-- RST (R255). -/
def execRst (d a b : Field) : State → Host.Outcome State Fault Refusal :=
  execWord 0x91 d a b bodyRst

/-- RATOM (R259). -/
def execRatom (d a b : Field) : State → Host.Outcome State Fault Refusal :=
  execWord 0xA6 d a b bodyRatom

/-- RCAS (R259). -/
def execRcas (d a b : Field) : State → Host.Outcome State Fault Refusal :=
  execWord 0xA7 d a b bodyRcas

/-- WRITE (R332). -/
def execWrite (p : Packet) : State → Host.Outcome State Fault Refusal := execPkg fun q => q.request p 0x01

/-- REDUCE (R352). -/
def execReduce (p : Packet) : State → Host.Outcome State Fault Refusal := execPkg fun q => q.request p 0x02

/-- READ (R255). -/
def execRead (p : Packet) : State → Host.Outcome State Fault Refusal := execPkg fun q => q.request p 0x03

/-- ATOMIC (R258). -/
def execAtomic (p : Packet) : State → Host.Outcome State Fault Refusal := execPkg fun q => q.request p 0x04

/-- CAS (R259). -/
def execCas (p : Packet) : State → Host.Outcome State Fault Refusal := execPkg fun q => q.request p 0x05

/-- READ_RESPONSE (R255). -/
def execReadResponse (p : Packet) : State → Host.Outcome State Fault Refusal := execPkg fun q => q.answered p 0x08

/-- ATOMIC_RESPONSE (R259). -/
def execAtomicResponse (p : Packet) : State → Host.Outcome State Fault Refusal := execPkg fun q => q.answered p 0x09

/-- LANDING_ACK (R334). -/
def execLandingAck (p : Packet) : State → Host.Outcome State Fault Refusal := execPkg fun q => q.answered p 0x0C

/-- NACK_RETRY (R329). -/
def execNackRetry (p : Packet) : State → Host.Outcome State Fault Refusal := execPkg fun q => q.nackRetry p

/-- NACK_STALE (R338). -/
def execNackStale (p : Packet) : State → Host.Outcome State Fault Refusal := execPkg fun q => q.nackStale p

/-- NACK_FAIL (R331). -/
def execNackFail (p : Packet) : State → Host.Outcome State Fault Refusal := execPkg fun q => q.nackFail p

/-- FAULT_HOLD_PERFORM (R329). -/
def execFaultHoldPerform (vf : Nat) : State → Host.Outcome State Fault Refusal := execPkg fun q => q.performHeld vf

/-- RETRY_RESEND (R329). -/
def execRetryResend (tag : Nat) : State → Host.Outcome State Fault Refusal := execPkg fun q => q.resend tag

/-- REMOTE_TIMEOUT (R339). -/
def execRemoteTimeout (tag : Nat) : State → Host.Outcome State Fault Refusal := execPkg fun q => q.timeout tag

/-- LINK_DOWN (R339). -/
def execLinkDown (port : Nat) : State → Host.Outcome State Fault Refusal := execPkg fun q => q.linkDown port

/-- PLANE_RETRAIN (R339). -/
def execPlaneRetrain (port : Nat) : State → Host.Outcome State Fault Refusal := execPkg fun q => q.planeRetrain port

end Sys2Proof.Machine
end

