-- ==== Sys2Proof/Machine/Engines.lean ====
section
/-!
DEFINITION. Engine, transfer and launch instructions, opcodes 0xC0 to 0xCE (R341 to R357), the copy and fabric engines
(R105 to R119, R342 to R348), twin swaps (R113) and the ends of the waits of R349, R350, R353 and R46.
-/
namespace Sys2Proof.Machine

open Pkg (Exe)

/-! ### Records -/

/-- Chain descriptor fields (R342). -/
def cdFabric (d : Nat) : Bool := bit d 72
def cdCluster (d : Nat) : Nat := bits d 87 80
def cdTail (d : Nat) : Nat := bits d 191 128
def cdSeqWord (d : Nat) : Nat := bits d 319 256
def cdCompleted (d : Nat) : Nat := bits d 383 320
/-- Does a chain descriptor name no chain of a kind: its capacity, kind or cluster is one that no such chain has (R342)? -/
def cdUnserved (d : Nat) (fabric : Bool) : Bool :=
  16 < cdLog d || cdFabric d != fabric || (if fabric then cdCluster d != 0 else 17 < cdCluster d)
/-- Is a chain descriptor bad for CPQ or XFQ (R345)? Its reserved bits count there alone: an engine ignores them (R7). -/
def cdBad (d : Nat) (fabric : Bool) : Bool :=
  bits d 511 384 != 0 || bits d 255 192 != 0 || bits d 127 88 != 0 || bits d 79 73 != 0 || cdUnserved d fabric
/-- The address of the slot of entry `n`. -/
def cdSlot (d n : Nat) : Nat := cdBase d + 64 * ((n - 1) % 2 ^ cdLog d)

/-- Ring descriptor fields (R362). -/
def rdBase (d : Nat) : Nat := bits d 63 0
def rdHead (d : Nat) : Nat := bits d 127 64
def rdTail (d : Nat) : Nat := bits d 191 128
def rdLog (d : Nat) : Nat := bits d 196 192
def rdCollective (d : Nat) : Bool := bit d 200
def rdStopped (d : Nat) : Bool := bit d 201
def rdEnable (d : Nat) : Bool := bit d 202

namespace Pkg

/-- Does a context run: is it resident on its partition, or has the partition had no raising yet, and is the function
neither stopped nor held (R373, R380, R384)? -/
def ctxLive (p : Pkg) (cid : Nat) : Bool :=
  let v := p.vfs.get (p.vfOf cid) {}
  (v.resident == some cid || (v.resident.isNone && !v.raised)) && (p.ctxs.get? cid).isSome
    && !v.stopped && !v.heldOutOfStep && !v.heldRefused

/-- The ring descriptor of ring-table position `r`, 64 bytes as a number. -/
def ringDesc (p : Pkg) (cid r : Nat) : Pkg × Option Nat :=
  match p.ctxs.get? cid with
  | some c => let (p, b) := p.amiahRead cid (crRingTable c.record + 64 * r) 64; (p, b.map leNat)
  | none => (p, none)

/-! ### Bookkeeping accesses (R347) -/

/-- The location of a bookkeeping access, or the cause code of its failure. -/
def bookLoc (p : Pkg) (cid va align : Nat) (n : Need) : Pkg × Except Nat Loc :=
  if va % align != 0 then (p, .error 0x05)
  else
    match p.translate (p.enginePort cid) cid (p.allLeases cid) va n with
    | (p, .ok l) => (p, if n.read && p.isBad l then .error 0xFC else .ok l)
    | (p, .outside) => (p, .error 0x06)
    | (p, .keyAlias _ _) => (p, .error 0x08)
    | (p, _) => (p, .error 0x07)

/-- A bookkeeping access has failed: a fault record of kind 11 and an error event. -/
def bookFault (p : Pkg) (cid va cause : Nat) : Pkg :=
  (p.reportFault cid 11 0xFF 0xFF p.time cause va).say (.chainError va)

/-- Read 64 bytes of a chain. -/
def bookRead (p : Pkg) (cid va align : Nat) : Pkg × Option Nat :=
  match p.bookLoc cid va align needRead with
  | (p, .ok l) => let (p, b) := p.readHome l 64; (p, some (leNat b))
  | (p, .error c) => (p.bookFault cid va c, none)

/-- Write a field of a chain, or leave it unchanged where that fails. -/
def bookWrite (p : Pkg) (cid va align : Nat) (data : List Byte) : Pkg :=
  match p.bookLoc cid va align needWrite with
  | (p, .ok l) => p.writeLoc none false l data
  | (p, .error c) => p.bookFault cid va c

/-! ### Twins (R111 to R114) -/

/-- The enabled twins of a context, by index, whose range meets [va, va + n). -/
def twinsIn (p : Pkg) (cid va n : Nat) : List Nat :=
  (List.range 128).filter fun i =>
    let d := p.twinDesc cid i
    twEnabled d && twContext d == cid && twBase d < va + n && va < twBase d + twLength d

/-- The twin that holds all of [va, va + n). -/
def twinAround (p : Pkg) (cid va n : Nat) : Option Nat :=
  (p.twinsIn cid va n).find? fun i =>
    let d := p.twinDesc cid i
    twBase d ≤ va && va + n ≤ twBase d + twLength d

/-- The pending swaps of a twin, oldest first: strand and operation. -/
def pendingSwaps (p : Pkg) (cid twin : Nat) : List (Nat × Op) :=
  (p.strands.filter fun e => sidCtx e.1 == cid).flatMap fun e =>
    (e.2.ops.filter fun o => o.kind == .publish twin).map fun o => (e.1, o)

/-- Does an entry wait for a swap that was asked for before it was accepted (R113)? -/
def waitsForSwap (p : Pkg) (e : Entry) : Bool :=
  ((e.srcTwins.map fun t => (e.ctx, t)) ++ e.destTwins).any fun t => (p.pendingSwaps t.1 t.2).any fun s => s.2.id < e.accepted

/-! ### Presence of copy destinations (R105, R119) -/

/-- The lines that [l, l + n) touches. -/
def linesOf (l : Loc) (n : Nat) : List Nat :=
  if n == 0 then []
  else (List.range ((l.offset + n + 127) / 128 - l.offset / 128)).map (l.offset / 128 + ·)

/-- The lines of a copy's destination become absent. -/
def clearLines (p : Pkg) (id : Nat) (l : Loc) (n : Nat) : Pkg :=
  p.updAbsent l fun a => a ++ (linesOf l n).map fun k => (k, id)

/-- The scratchpad range that a local encoded address names, which a halt of its context does not change (R108). -/
def scratchAt (p : Pkg) (cid a : Nat) : Option Loc :=
  match p.decodeEnc cid true a with
  | .scratch l _ => some l
  | _ => none

/-- The lines of a copy into a local encoded address become absent: those inside the allocation (R105). -/
def clearDest (p : Pkg) (id cid a n : Nat) : Pkg :=
  match p.decodeEnc cid true a with
  | .scratch l size => p.clearLines id l (min n (size - l.offset))
  | _ => p

/-- Is the allocation of a scratchpad location on the package, not saved with its context? -/
def homeReady (p : Pkg) (l : Loc) : Bool :=
  let here (k : Nat) : Bool := match p.bents.get? k with
    | some b => (p.clusters.get b.cluster {}).occupant == some b.ctx
    | none => false
  match l with
  | .core b _ _ => here b
  | .clus b _ => here b
  | _ => true

/-- Bytes [from, upto) of an entry's destination are delivered: the lines all of whose bytes it has delivered become
present again. One that a failed copy left absent becomes so where this copy delivers it in full, after that failure (R119). -/
def deliverLines (p : Pkg) (id : Nat) (l : Loc) (total upto : Nat) : Pkg :=
  let first := l.offset
  let done := first + upto
  let fin (k : Nat) : Bool := min ((k + 1) * 128) (first + total) ≤ done
  let full (k : Nat) : Bool := first ≤ k * 128 && (k + 1) * 128 ≤ done
  p.updAbsent l fun a => a.filter fun e => !((e.2 == id && fin e.1) || (e.2 == 0 && full e.1 && a.contains (e.1, id)))

/-- Has a copy into a scratchpad delivered a byte of a line? -/
def hasBegun (p : Pkg) (id k : Nat) : Bool :=
  (p.entries.get? id).any fun e => e.destAt.any fun l => k * 128 < l.offset + e.done

/-- A copy is over: the lines that it has not delivered stay absent after a failure, also for a copy that has delivered a part of
them before it (R119); at a failure at acceptance they become present again (R118). -/
def abandonLines (p : Pkg) (id : Nat) (release : Bool) : Pkg :=
  let change (a : List (Nat × Nat)) : List (Nat × Nat) :=
    if release then a.filter fun e => e.2 != id
    else a.map fun e => if e.2 == id || (a.contains (e.1, id) && p.hasBegun e.2 e.1) then (e.1, 0) else e
  { p with
    bents := p.bents.mapVals fun _ b =>
      { b with absent := change b.absent, crews := b.crews.mapVals fun _ c => { c with absent := change c.absent } }
    ctxs := p.ctxs.mapVals fun _ c => { c with absent := change c.absent } }

/-! ### Acceptance (R347) -/

/-- The status and cause with which an entry fails at acceptance; none where it passes. R347 names the BAD_ENTRY of an expecting
source outside its ordered steps: here it stands after the first of them, the model's choice (log entry 100). -/
def acceptFails (p : Pkg) (e : Entry) (reserved : Bool) (expected : Nat) : Option (Nat × Nat) :=
  let esize := elemBytes e.format
  let source := p.decodeEnc e.ctx true e.source.toNat
  let dest := p.decodeEnc e.ctx true e.dest.toNat
  let around := match source with | .global va => p.twinAround e.ctx va e.length | _ => none
  let bounds (x : Enc) : Option (Nat × Nat) :=
    match x with
    | .scratch l size => if size < l.offset + e.length then some (4, 0) else none
    | .bad 0x03 => some (12, 0)
    | .bad _ => some (4, 0)
    | .global _ => none
  if reserved || e.length == 0 || e.length ≥ 2 ^ 32
      || (e.kind == 3 && (7 < e.format || 2 < e.reduction || e.length % esize != 0
            || (e.inlineData.isNone && (e.source.toNat % esize != 0 || e.dest.toNat % esize != 0)))) then some (12, 0)
  else if e.expect && (around.isNone || e.inlineData.isSome) then some (12, 0)
  else
    match if e.inlineData.isNone then bounds source else none with
    | some f => some f
    | none =>
      match if e.kind == 1 then bounds dest else none with
      | some f => some f
      | none =>
        if e.expect && (around.map fun t => twCount (p.twinDesc e.ctx t)) != some expected then some (3, 0)
        else if e.kind != 1 && (p.gangEntry e.ctx e.peer).isNone then some (8, 0xFF)
        else none

/-- The twins that an entry's destination reaches into: of its own context for a copy, of the context that a gang rank of
this package names for a fabric command (R113). -/
def destTwinsOf (p : Pkg) (e : Entry) : List (Nat × Nat) :=
  let cid := if e.kind == 1 then some e.ctx else (p.gangEntry e.ctx e.peer).bind fun g => if g.1 == p.yardPort then some g.2.1 else none
  match cid with
  | none => []
  | some k => match p.decodeEnc k true e.dest.toNat with
    | .global va => (p.twinsIn k va e.length).map fun t => (k, t)
    | _ => []

/-- The sides of its source twins that an entry reads, once chosen (R113, R348): those selected now. -/
def chooseSides (p : Pkg) (e : Entry) : Entry :=
  if e.sides.isEmpty then { e with sides := e.srcTwins.map fun t => (t, twSelector (p.twinDesc e.ctx t)) } else e

/-- An entry as it is accepted: the twins it touches, the sides it reads, and its failure if it has one. -/
def acceptEntry (p : Pkg) (id : Nat) (e : Entry) (reserved : Bool) (expected : Nat) (killed : Bool) : Pkg :=
  let (n, p) := p.takeId
  let src := match p.decodeEnc e.ctx true e.source.toNat with
    | .global va => if e.inlineData.isNone then p.twinsIn e.ctx va e.length else []
    | _ => []
  let e := { e with accepted := n, srcTwins := src, destTwins := p.destTwinsOf e,
                    srcAt := if e.inlineData.isNone then p.scratchAt e.ctx e.source.toNat else none,
                    destAt := if e.kind == 1 then p.scratchAt e.ctx e.dest.toNat else none }
  let e := if p.waitsForSwap e then e else p.chooseSides e
  let fail := if killed then some (13, 0) else p.acceptFails e reserved expected
  match fail with
  | some (s, c) =>
    let p := p.abandonLines id true
    { p with entries := p.entries.set id { e with status := some s, cause := c } }
  | none => { p with entries := p.entries.set id e }

/-- The key of a chain. -/
def chainKey (cid : Nat) (desc : Nat) : Nat := cid * 2 ^ 64 + desc

/-- The fields of a chain entry (R343): the entry, its expected count, and whether reserved bits are set or the kind
is not one of its chain's. -/
def entryOf (x cid vf key seq : Nat) (fabric : Bool) (who : Option Poster) (all : List LeaseRange) :
    Entry × Nat × Bool :=
  let kind := bits x 115 112
  ({ ctx := cid, vf := vf, chain := some (key, seq), sid := who.map (·.sid), tree := who.map (·.tree),
     lease := (who.map (·.lease)).getD all, kind := kind, source := BitVec.ofNat 64 (bits x 319 256),
     dest := BitVec.ofNat 64 (bits x 383 320), counter := BitVec.ofNat 64 (bits x 447 384), hasCounter := bit x 117,
     peer := bits x 136 128, format := bits x 121 118, reduction := bits x 125 122, length := bits x 223 192,
     expect := bit x 116, after := (who.map (·.after)).getD [] },
   bits x 191 160,
   bits x 511 448 != 0 || bits x 255 224 != 0 || bits x 159 137 != 0 || bits x 127 126 != 0
     || !(if fabric then kind == 2 || kind == 3 else kind == 1))

/-- Have the operations that an entry or queue operation is released after been performed (R128)? -/
def released (p : Pkg) (sid : Option Nat) (after : List Nat) : Bool :=
  match sid.bind p.strand? with
  | some st => after.all fun i => st.ops.all fun o => o.id != i
  | none => true

/-- Have the engine look, or stop looking, at the next slot of a chain (R346). -/
def lookAt (p : Pkg) (key : Nat) (on : Bool) : Pkg := { p with chains := p.chains.update key fun c => { c with look := on } }

/-- ENGINE_ENTRY_ACCEPT: the next posted entry of a chain whose next slot the engine looks at. Entries of an exhausted
context wait before they start (R403). -/
def engineAccept (p : Pkg) (key : Nat) : Pkg :=
  match p.chains.get? key with
  | none => p
  | some c =>
    if c.halted || !c.look || !p.ctxLive c.ctx || p.isExhausted c.ctx then p
    else
      match p.bookRead c.ctx c.desc.toNat 64 with
      | (p, none) => { p with chains := p.chains.set key { c with halted := true } }
      | (p, some d) =>
        if cdUnserved d c.fabric then p.lookAt key false
        else
          match p.bookRead c.ctx (cdSlot d c.next) 64 with
          | (p, none) => { p with chains := p.chains.set key { c with halted := true } }
          | (p, some x) =>
            let who := c.posted.get? c.next
            if bits x 103 96 != 1 || bits x 63 0 != c.next then p.lookAt key false
            else if !p.released (who.map (·.sid)) ((who.map (·.after)).getD []) then p
            else
              let (e, expected, bad) :=
                entryOf x c.ctx (p.vfOf c.ctx) key c.next c.fabric who (p.allLeases c.ctx)
              let killed := match who with
                | some w => ((p.trees.get? w.tree).map (·.killed)).getD true
                | none => false
              let (id, p) := match who with | some w => (w.id, p) | none => p.takeId
              let c := { c with next := c.next + 1, posted := c.posted.erase c.next, seen := BitVec.ofNat 512 d }
              let p := { p with chains := p.chains.set key c }
              let p := if who.isNone && e.kind == 1 then p.clearDest id c.ctx e.dest.toNat e.length else p
              p.acceptEntry id e bad expected killed

/-- The chain of a descriptor, served by its engine, which looks at its next slot (R346, R347). Of a chain that was not known,
the next entry to accept follows `completed`. Whether and when the engine takes its cursor anew from a descriptor that software
initialises again the spec does not say: it keeps the one it has, the model's choice (log entry 81). -/
def knowChain (p : Pkg) (cid : Nat) (desc : DWord) (d : Nat) (fabric : Bool) : Pkg :=
  let key := chainKey cid desc.toNat
  let new : Chain := { ctx := cid, desc := desc, fabric := fabric, next := cdCompleted d + 1, completed := cdCompleted d }
  let c := ((p.chains.get? key).bind fun c => if c.next == 0 then none else some c).getD new
  { p with chains := p.chains.set key { c with halted := false, look := true, seen := BitVec.ofNat 512 d } }

/-- CHAIN_WATCH_POLL (R346). -/
def watchPoll (p : Pkg) (cid desc : Nat) : Pkg :=
  match p.ctxs.get? cid with
  | none => p
  | some c =>
    if !c.watched.contains (BitVec.ofNat 64 desc) || !p.ctxLive cid then p
    else
      let key := chainKey cid desc
      let old := p.chains.get? key
      if (old.map (·.halted)).getD false then p
      else if (old.map fun c => c.next != 0).getD false then (p.lookAt key true).engineAccept key
      else
        match p.bookRead cid desc 64 with
        | (p, none) =>
          -- its service stops before it has begun: no entry number is known yet
          let c : Chain := { ctx := cid, desc := BitVec.ofNat 64 desc, fabric := false, next := 0, completed := 0, halted := true }
          { p with chains := p.chains.set key c }
        | (p, some d) =>
          if cdUnserved d (cdFabric d) then p
          else (p.knowChain cid (BitVec.ofNat 64 desc) d (cdFabric d)).engineAccept key

/-! ### The entries at work (R105, R108, R118, R320, R322, R348) -/

/-- An entry fails; an access outside the lease ends its tree (R158). -/
def failEntry (p : Pkg) (id status cause : Nat) : Pkg :=
  p.updEntry id fun e => { e with status := some (e.status.getD status), cause := cause }

/-- Why an engine's access does not take place. -/
inductive Block where
  | wait
  | elastic (va : Nat)
  | fail (status : Nat)
  | outside (va : Nat)
  deriving DecidableEq, Repr

/-- An entry that is blocked: it waits, parks on its page, fails, or ends its tree. -/
def blockEntry (p : Pkg) (id : Nat) (e : Entry) (b : Block) : Pkg :=
  match b with
  | .wait => p
  | .elastic g => p.updEntry id fun e => { e with elastic := some g }
  | .fail s => p.failEntry id s 0
  | .outside va =>
    let p := p.failEntry id 11 0
    match e.tree with
    | some k => p.endOutside k va (some id)
    | none => p

/-- A byte range cut at the 64 KiB page boundary: address and bytes. -/
def pieces (va n : Nat) : List (Nat × Nat) :=
  let m := 65536 - va % 65536
  if n ≤ m then [(va, n)] else [(va, m), (va + m, n - m)]

/-- The location of one piece of an entry's global range. -/
def pieceLoc (p : Pkg) (e : Entry) (va : Nat) (need : Need) : Pkg × Except Block Loc :=
  match p.translate (p.enginePort e.ctx) e.ctx e.lease va need with
  | (p, .ok l) => (p, .ok l)
  | (p, .outside) => (p, .error (.outside va))
  | (p, .permission _) => (p, .error (.fail 5))
  | (p, .keyAlias _ _) => (p, .error (.fail 6))
  | (p, .elastic g) => (p, .error (.elastic g))

/-- The locations of the pieces of a global range. -/
def pieceLocs (p : Pkg) (e : Entry) (need : Need) : List (Nat × Nat) → Pkg × Except Block (List (Loc × Nat))
  | [] => (p, .ok [])
  | (va, n) :: rest =>
    match p.pieceLoc e va need with
    | (p, .error b) => (p, .error b)
    | (p, .ok l) =>
      match p.pieceLocs e need rest with
      | (p, .error b) => (p, .error b)
      | (p, .ok ls) => (p, .ok ((l, n) :: ls))

/-- A location as an entry reads it: a twin source by the side chosen for it (R112, R348). -/
def sourceLoc (p : Pkg) (e : Entry) (l : Loc) : Loc :=
  match l with
  | .twin c i pa => match e.sides.get? i with
    | some side => .hbm (sidePa (p.twinDesc c i) pa side)
    | none => l
  | l => l

/-- Read locations one after another, past every L1. -/
def readHomes (p : Pkg) : List (Loc × Nat) → Pkg × List Byte
  | [] => (p, [])
  | (l, n) :: rest =>
    let (p, b) := p.readHome l n
    let (p, c) := p.readHomes rest
    (p, b ++ c)

/-- Are the lines of a source present? A copy does not wait for lines that its own delivery makes present (R106). -/
def sourcePresent (p : Pkg) (id : Nat) (l : Loc) (n : Nat) : Bool :=
  (p.absentOf l).all fun e => e.2 == id || !(l.offset < (e.1 + 1) * 128 && e.1 * 128 < l.offset + n)

/-- `n` bytes of an entry's source, from byte `done` on. -/
def fetchSource (p : Pkg) (id : Nat) (e : Entry) (n : Nat) : Pkg × Except Block (List Byte) :=
  match e.inlineData, e.srcAt with
  | some b, _ => (p, .ok ((b.drop e.done).take n))
  | none, some l =>
    let l := l.plus e.done
    if !p.homeReady l || !p.sourcePresent id l n then (p, .error .wait)
    else if p.badIn l n then (p, .error (.fail 10))
    else let (p, b) := p.readHome l n; (p, .ok b)
  | none, none =>
    match p.pieceLocs e needRead (pieces (e.source.toNat % 2 ^ 55 + e.done) n) with
    | (p, .error b) => (p, .error b)
    | (p, .ok ls) =>
      let ls := ls.map fun x => (p.sourceLoc e x.1, x.2)
      if ls.any fun x => p.badIn x.1 x.2 then (p, .error (.fail 10)) else let (p, b) := p.readHomes ls; (p, .ok b)

/-- A copy delivers bytes to global memory, in pieces: to the unselected side of a twin at once; elsewhere they are kept from
every program until the chain's sequence word tells of them (R115). -/
def landPieces (p : Pkg) (key seq : Nat) : Nat → List (Loc × Nat) → List Byte → Pkg
  | _, [], _ => p
  | a, (l, n) :: rest, data =>
    let p := match l with
      | .hbm _ => { p with chains := p.chains.update key fun c => { c with hidden := c.hidden ++ [(seq, a, l, data.take n)] } }
      | _ => p.writeLoc none true l (data.take n)
    p.landPieces key seq (a + n) rest (data.drop n)

/-- The bytes of the entries up to a number become visible. -/
def reveal (p : Pkg) (key upto : Nat) : Pkg :=
  let all := ((p.chains.get? key).map (·.hidden)).getD []
  let p := { p with chains := p.chains.update key fun c => { c with hidden := all.filter fun x => upto < x.1 } }
  (all.filter fun x => x.1 ≤ upto).foldl (fun p x => p.writeLoc none true x.2.2.1 x.2.2.2) p

/-- Do the byte ranges of two encoded addresses of a context meet? -/
def encMeets (p : Pkg) (cid a n b m : Nat) : Bool :=
  match p.decodeEnc cid true a, p.decodeEnc cid true b with
  | .global x, .global y => x < y + m && y < x + n
  | .scratch l _, .scratch k _ => l.overlaps n k m
  | _, _ => false

/-- A range of bytes by where it lies, on this package (none) or on that of a yard port, its encoded address and length. -/
abbrev Range := Option Nat × Nat × Nat

/-- Do two ranges of a context's entries meet? -/
def rangesMeet (p : Pkg) (cid : Nat) (x y : Range) : Bool :=
  x.1 == y.1 &&
    match x.1 with
    | none => p.encMeets cid x.2.1 x.2.2 y.2.1 y.2.2
    | some _ => x.2.1 < y.2.1 + y.2.2 && y.2.1 < x.2.1 + x.2.2

/-- The range that an entry writes: at its peer for a fabric entry, which may be the context's own package. -/
def writtenBy (p : Pkg) (e : Entry) : Range :=
  let place := if e.kind == 1 then none
    else match p.gangEntry e.ctx e.peer with
      | some g => if g.1 == p.yardPort && g.2.1 == e.ctx then none else some g.1
      | none => some 512
  (place, e.dest.toNat, e.length)

/-- Does an entry have to wait for an earlier entry of its chain (R347)? -/
def behindEarlier (p : Pkg) (e : Entry) : Bool :=
  match e.chain with
  | none => false
  | some (k, n) =>
    let reads (x : Entry) : Range := (none, x.source.toNat, x.length)
    let meet (x y : Range) : Bool := p.rangesMeet e.ctx x y
    p.entries.any (fun x =>
      match x.2.chain with
      | some (k', m) =>
        k' == k && m < n && (meet (p.writtenBy e) (p.writtenBy x.2) || meet (p.writtenBy e) (reads x.2)
          || meet (reads e) (p.writtenBy x.2))
      | none => false)
    || (((p.chains.get? k).map (·.hidden)).getD []).any fun h =>
        let r : Range := (none, h.2.1, h.2.2.2.length)
        h.1 < n && (meet (p.writtenBy e) r || meet (reads e) r)

/-- May an entry work now? A transfer of a strand sends nothing while its strand is halted (R359). At exhaustion an entry not
yet started waits; a transfer of a strand is an operation already issued, which completes (R403). -/
def entryActive (p : Pkg) (e : Entry) : Bool :=
  e.status.isNone && e.elastic.isNone && e.done < e.length && p.ctxLive e.ctx && !p.waitsForSwap e
    && p.released e.sid e.after && !p.behindEarlier e
    && (e.chain.isSome || (e.sid.map p.isResident).getD false)
    && (0 < e.done || e.chain.isNone || !p.isExhausted e.ctx)

/-- COPY_LINE_DELIVERED: the next 128 bytes of a copy (R108, R118). -/
def copyLine (p : Pkg) (id : Nat) : Pkg :=
  match p.entries.get? id with
  | none => p
  | some e =>
    if e.kind != 1 || !p.entryActive e then p
    else
      -- an entry that has waited for a swap uses the sides as they stand after it (R113)
      let e := p.chooseSides e
      let p := p.updEntry id fun _ => e
      let n := min 128 (e.length - e.done)
      match p.fetchSource id e n with
      | (p, .error b) => p.blockEntry id e b
      | (p, .ok data) =>
        match e.destAt with
        | some l =>
          if !p.homeReady l then p
          else
            ((p.writeLoc none true (l.plus e.done) data).updEntry id fun e => { e with done := e.done + n }).deliverLines
              id l e.length (e.done + n)
        | none =>
          let a := e.dest.toNat % 2 ^ 55 + e.done
          match p.pieceLocs e needWrite (pieces a n) with
          | (p, .error b) => p.blockEntry id e b
          | (p, .ok ls) =>
            (p.landPieces ((e.chain.map (·.1)).getD 0) ((e.chain.map (·.2)).getD 0) a ls data).updEntry id fun e =>
              { e with done := e.done + n }

/-- FABRIC_PACKET_SEND: the next packet of a transfer, cut at the 4 KiB boundaries of its target address (R322). -/
def sendPacket (p : Pkg) (id : Nat) : Pkg :=
  match p.entries.get? id with
  | none => p
  | some e =>
    if e.kind == 1 || !p.entryActive e then p
    else
      match p.gangEntry e.ctx e.peer with
      | none => p.failEntry id 8 0xFF
      | some g =>
        match p.transferPlane g.1 e.acks.length with
        | none => p
        | some plane =>
          let e := p.chooseSides e
          let p := p.updEntry id fun _ => e
          let target := e.dest.toNat + e.done
          let n := min (4096 - target % 4096) (e.length - e.done)
          match p.fetchSource id e n with
          | (p, .error b) => p.blockEntry id e b
          | (p, .ok data) =>
            let (tag, p) := p.takeId
            let h := p.requestHead e.ctx g (if e.kind == 2 then 0x01 else 0x02) (engineTag tag) n target
              (if e.kind == 2 then 0 else e.format + 16 * e.reduction)
            let h := { h with counted := e.hasCounter, counter := if e.hasCounter then e.counter.toNat else 0,
                              last := e.done + n == e.length }
            (p.sendRequest h data plane none (some (id, e.acks.length))).updEntry id fun e =>
              { e with done := e.done + n, acks := e.acks ++ [(n, false)] }

/-- Bytes done (R118, R334). -/
def bytesDone (e : Entry) : Nat :=
  if e.kind == 1 then e.done else ((e.acks.takeWhile (·.2)).map (·.1)).foldl (· + ·) 0

/-- The status of an entry that is over: every byte done, or failed with no packet open. -/
def entryOver (p : Pkg) (id : Nat) (e : Entry) : Option Nat :=
  if p.sent.any fun s => (s.entry.map (·.1)) == some id then none
  else if e.status.isSome then e.status
  else if e.done == e.length && e.acks.all (·.2) then some 2 else none

/-- The highest n such that every entry up to n has completed. -/
def advanceDone : Nat → Nat → List Nat → Nat
  | 0, c, _ => c
  | k + 1, c, l => if l.contains (c + 1) then advanceDone k (c + 1) l else c

/-- Is the STOP of a function done: every store of it is performed, and none follows before START (R373)? -/
def stoppedAll (p : Pkg) (vf : Nat) : Bool := (p.vfs.get vf {}).stopped && !(p.vfs.get vf {}).stopping

/-- ENTRY_COMPLETE: status, cause and bytes done, then completed and the sequence word (R347). Where the engine cannot read the
descriptor the service of the chain stops, and the entry, which was accepted, completes by the descriptor as last read. -/
def entryComplete (p : Pkg) (id : Nat) : Pkg :=
  match p.entries.get? id with
  | none => p
  | some e =>
    match e.chain, (if p.stoppedAll e.vf then none else p.entryOver id e) with
    | some (key, n), some status =>
      match p.chains.get? key with
      | none => { p with entries := p.entries.erase id }
      | some c =>
        let p := p.abandonLines id (status == 2)
        let p := { p with entries := p.entries.erase id }
        let (p, read) := p.bookRead c.ctx c.desc.toNat 64
        let d := read.getD c.seen.toNat
        let c := { c with halted := c.halted || read.isNone, seen := BitVec.ofNat 512 d }
        let p := p.bookWrite c.ctx (cdSlot d n + 8) 8
          (leBytes 4 (bytesDone e) ++ [BitVec.ofNat 8 status, BitVec.ofNat 8 e.cause])
        let l := c.finished ++ [n]
        let m := advanceDone l.length c.completed l
        let p := { p with chains := p.chains.set key { c with completed := m, finished := l.filter (m < ·) } }.reveal key m
        if m == c.completed then p
        else
          (p.bookWrite c.ctx (c.desc.toNat + 40) 8 (leBytes 8 m)).bookWrite c.ctx (cdSeqWord d) 8 (leBytes 8 m)
    | _, _ => p

/-! ### CPQ and XFQ (R345) -/

/-- The entry words with sequence, bytes done, cause and status set. -/
def postedWords (entry : List Word) (n : Nat) : Nat :=
  let x := leNat (entry.flatMap wordBytes)
  setBits (setBits (setBits x 63 0 n) 95 64 0) 111 96 1

/-- The value of a register pair written to every present lane. -/
def putPair (p : Pkg) (sid reg : Nat) (v : Nat) : Pkg :=
  p.updStrand sid fun st => st.put2 reg st.isPresent fun _ => BitVec.ofNat 64 v

/-- An operation of a strand is over. -/
def dropOp (p : Pkg) (sid id : Nat) : Pkg :=
  p.updStrand sid fun st => { st with ops := st.ops.filter fun o => o.id != id }

/-- Replace the effect of an outstanding operation. -/
def updOpKind (p : Pkg) (sid id : Nat) (k : OpKind) : Pkg :=
  p.updStrand sid fun st => { st with ops := st.ops.map fun q => if q.id == id then { q with kind := k } else q }

/-- An operation whose later access fails its checks: the strand observes it as a failed operation, or its tree ends;
on an elastic fault it waits. -/
def opStall (p : Pkg) (sid : Nat) (st : Strand) (o : Op) (c : Checked) : Pkg :=
  match c with
  | .ok _ | .elastic .. => p
  | .outside _ va => p.endOutside (p.treeKeyOf st) va
  | .trap lanes va cause reason e0 e1 =>
    (p.dropOp sid o.id).updStrand sid fun t => { t with failures := t.failures ++
      [{ op := o.id, flag := o.flag, regs := o.dests, cause := cause, reason := reason, lanes := laneMask lanes,
         addr := BitVec.ofNat 64 va, extra0 := BitVec.ofNat 32 e0, extra1 := BitVec.ofNat 32 e1, extra2 := 0 }] }

/-- What CPQ or XFQ reserves under a chain descriptor: all ones for a bad one, 0 for a full chain. -/
def reserveSeq (d : Nat) (fabric : Bool) : Nat :=
  if cdBad d fabric then 2 ^ 64 - 1
  else if 2 ^ cdLog d ≤ cdTail d - cdCompleted d then 0 else cdTail d + 1

/-- The effect of CPQ or XFQ (R345): one step at the chain descriptor, then the slot as a release write. The slot is written
with the checks of a store, and R345's steps raise the tail before that: where the checks fail, the spec does not say what
becomes of the tail. The model makes them first, so that a failed CPQ reserves nothing (log entry 82). The step at the
descriptor is an access of the strand: its core keeps no older copy of it (R127). -/
def doPost (p : Pkg) (sid : Nat) (st : Strand) (o : Op) (fabric : Bool) (reg : Nat) (desc : DWord)
    (entry : List Word) : Pkg :=
  let cid := sidCtx sid
  match p.checkGlobal (.lane sid) cid (p.leaseOf st) needAtomic [⟨st.low, desc.toNat⟩] with
  | (p, .ok (l :: _)) =>
    if p.isBad l then (p.say (.errorEvent desc.toNat)).endTree (p.treeKeyOf st) 7
    else
      let (p, b) := (p.dropLoc (sidCore sid) l 64).readHome l 64
      let d := leNat b
      let n := reserveSeq d fabric
      let finish (p : Pkg) : Pkg := (p.putPair sid reg n).dropOp sid o.id
      if n == 2 ^ 64 - 1 then finish p
      else if n == 0 then finish (p.knowChain cid desc d fabric)
      else if cdSlot d n % 64 != 0 then p.opStall sid st o (.trap [st.low] (cdSlot d n) 0x05 0 0 0)
      else
        match p.checkGlobal (.lane sid) cid (p.leaseOf st) needWrite [⟨st.low, cdSlot d n⟩] with
        | (p, .ok (s :: _)) =>
          let p := p.writeLoc (sidCore sid) false (l.plus 16) (leBytes 8 n)
          let x := postedWords entry n
          let p := p.writeLoc (sidCore sid) false s (leBytes 64 x)
          let (id, p) := p.takeId
          let p := p.knowChain cid desc d fabric
          let who : Poster := { id := id, sid := sid, tree := p.treeKeyOf st, lease := p.leaseOf st, after := [] }
          let chains := p.chains.update (chainKey cid desc.toNat) fun c => { c with posted := c.posted.set n who }
          let p := { p with chains := chains }
          -- an entry of another kind is no copy: it is to fail, and makes no line absent
          finish (if fabric || bits x 115 112 != 1 then p else p.clearDest id cid (bits x 383 320) (bits x 223 192))
        | (p, .elastic _ g) => p.updOpKind sid o.id (.post fabric reg desc entry (some g))
        | (p, c) => p.opStall sid st o c
  | (p, .elastic _ g) => p.updOpKind sid o.id (.post fabric reg desc entry (some g))
  | (p, c) => p.opStall sid st o c

end Pkg

/-- CPQ and XFQ: the checks of a load and a store on the descriptor, then the operation. -/
def bodyPost (fabric : Bool) (x : Exe) : Eff :=
  let c := x.env.uniform64 x.b
  Pkg.withGlobal x 64 needAtomic [⟨x.st.low, c.toNat⟩] fun p _ =>
    p.issueOp x [x.d, x.d + 1] true
      (.post fabric x.d c ((List.range 16).map fun w => x.env.uniform (x.a + w)) none)
def bodyCpq (x : Exe) : Eff := bodyPost false x
def bodyXfq (x : Exe) : Eff := bodyPost true x

/-! ### Waiting (R349, R350, R353, R357) -/

/-- The effect of an acquire on a strand's core. -/
def Pkg.acquire (p : Pkg) (sid : Nat) : Pkg := p.discardL1 (sidCore sid)

def bodyWaitseq (x : Exe) : Eff :=
  let target := x.env.uniform64 x.b
  let va := (x.env.uniform64 x.a).toNat
  Pkg.withGlobal x 8 needRead [⟨x.st.low, va⟩] fun p ls =>
    let l := ls.head?.getD (.hbm 0)
    if !selfClear p x.sid x.st l 8 then .hold
    else if p.isBad l then .endTree p 7 va
    else
      let (p, b) := p.readHome l 8
      if target.toNat ≤ leNat b then .next (p.acquire x.sid) else .park p (.waitseq l target false)

/-- Is a collective ring non-empty (R350)? A stopped one appears empty, whatever its enable bit (R362). -/
def Pkg.ringReady (p : Pkg) (cid r : Nat) : Pkg × Bool :=
  match p.ringDesc cid (16 + r) with
  | (p, some d) => (p, !rdStopped d && rdTail d != rdHead d)
  | (p, none) => (p, false)

/-- The first ready ring of a list that a mask names. -/
def Pkg.firstRing (p : Pkg) (cid : Nat) (mask : DWord) : List Nat → Pkg × Option Nat
  | [] => (p, none)
  | r :: rest =>
    if !mask.getLsbD r then p.firstRing cid mask rest
    else
      match p.ringReady cid r with
      | (p, true) => (p, some r)
      | (p, false) => p.firstRing cid mask rest

/-- The order in which POLLQ looks: last + 1, last + 2, … mod 64. -/
def pollOrder (last : Nat) : List Nat := (List.range 64).map fun k => (last + 1 + k) % 64

/-- POLLQ has found a ring: it writes the number and acquires. -/
def Pkg.pollDone (p : Pkg) (sid reg r : Nat) : Pkg :=
  (p.updStrand sid fun st =>
    { st.put reg st.isPresent (fun _ => BitVec.ofNat 32 r) with pollLast := r, park := none }).acquire sid

/-- Does no outstanding operation of a strand touch the descriptor of a collective ring that a mask names? -/
def Pkg.ringsClear (p : Pkg) (sid : Nat) (st : Strand) (mask : DWord) : Bool :=
  match p.ctxs.get? (sidCtx sid) with
  | some c => (List.range 64).all fun r => !mask.getLsbD r ||
      ((p.amiahLoc (sidCtx sid) (crRingTable c.record + 64 * (16 + r)) needRead).2.map fun l => selfClear p sid st l 64).getD true
  | none => true

def bodyPollq (x : Exe) : Eff :=
  let mask := x.env.uniform64 x.a
  if mask == 0 then .trap x.p { cause := 0x03, lanes := x.st.onLanes }
  else if !x.p.ringsClear x.sid x.st mask then .hold
  else
    match x.p.firstRing (sidCtx x.sid) mask (pollOrder x.st.pollLast) with
    | (p, some r) => .next (p.pollDone x.sid x.d r)
    | (p, none) => .park p (.pollq mask x.d)

/-! ### Transfers (R351, R352) -/

/-- A transfer of a strand, before acceptance. -/
def transferOf (x : Exe) (kind : Nat) (source dest counter : DWord) (counted : Bool) (peer fmt red len : Nat)
    (data : Option (List Byte)) : Entry :=
  { ctx := sidCtx x.sid, vf := x.p.vfOf (sidCtx x.sid), chain := none, sid := some x.sid,
    tree := some (x.p.treeKeyOf x.st), lease := x.p.leaseOf x.st, kind := kind, source := source, dest := dest,
    counter := counter, hasCounter := counted, peer := peer, format := fmt, reduction := red, length := len,
    inlineData := data, after := Pkg.releasedAfter x.st }

def bodyXsend (x : Exe) : Eff :=
  let w (k : Nat) : Word := x.env.uniform (x.a + k)
  let c := (w 5).toNat
  let kind := bits c 11 10
  if 1 < kind || bits c 31 20 != 0 || (kind == 1 && 2 < bits c 19 16) then
    .trap x.p { cause := 0x03, lanes := x.st.onLanes }
  else
    let (id, p) := x.p.takeId
    let e := transferOf x (2 + kind) (w 3 ++ w 2) (w 1 ++ w 0) (w 7 ++ w 6) (bit c 9) (bits c 8 0) (bits c 15 12)
      (bits c 19 16) (w 4).toNat none
    (p.acceptEntry id e false 0 false).issueOp x [x.d, x.d + 1] false (.send x.d id)

/-- The entries of XPUTV and XREDV, one for each On lane. -/
def laneTransfers (x : Exe) (kind : Nat) : Pkg → List Nat → Pkg × List (Nat × Nat)
  | p, [] => (p, [])
  | p, j :: rest =>
    let a := (x.env.get64 x.a j).toNat
    let fmt := modeElem x.st.mode
    let (id, p) := p.takeId
    let e := transferOf x kind 0 (BitVec.ofNat 64 (remoteVa a)) (x.env.get64 (x.a + 2) j) (bit x.b 0) (remoteRank a) fmt
      (x.b / 2) (elemBytes fmt) (some (storeData x x.d (elemRegs fmt) (elemBytes fmt) j))
    let (p, l) := laneTransfers x kind (p.acceptEntry id e false 0 false) rest
    (p, (j, id) :: l)

def bodyLaneTransfer (kind : Nat) (x : Exe) : Eff :=
  let (p, l) := laneTransfers x kind x.p x.st.onLanes
  p.issueOp x [] false (.putv l)
def bodyXputv (x : Exe) : Eff := bodyLaneTransfer 2 x
def bodyXredv (x : Exe) : Eff := bodyLaneTransfer 3 x

/-! ### Landing-counter watches (R353) -/

/-- The counter that a pair names: its space, offset, allocation size and location; none where the pair is illegal. -/
def counterAt (p : Pkg) (sid : Nat) (st : Strand) (v : Nat) : Option SAcc :=
  let space := bits v 63 60
  let off := bits v 31 0
  let mid := bits v 59 32
  if space == 3 && (mid == 0 || (st.truss && mid < 4)) then
    (p.coreTarget st (if st.truss then v % 2 ^ 34 else off)).map fun t => ⟨st.low, off, off, 8, t.2.2.2, .core t.1 t.2.1 off⟩
  else if mid != 0 then none
  else if space == 2 then some ⟨st.low, off, off, 8, ldQspad (p.descOf st), .clus st.bent off⟩
  else if space == 1 then some ⟨st.low, off, off, 8, p.shareOf (sidCtx sid), .die (sidCtx sid) off⟩
  else none

/-- Watch slots of a strand's core. -/
def watchSlots (st : Strand) : Nat := if st.truss then 4 else 16

/-- The watch that a strand owns under a number. -/
def Pkg.ownWatch (p : Pkg) (sid n : Nat) : Option Watch :=
  match (p.core (sidCk sid)).watches.get? n with
  | some w => if w.owner == sid && n < 16 then some w else none
  | none => none

def bodyLcset (x : Exe) : Eff :=
  match counterAt x.p x.sid x.st (x.env.uniform64 x.a).toNat with
  | none => .trap x.p { cause := 0x03, lanes := x.st.onLanes }
  | some s =>
    let space := bits (x.env.uniform64 x.a).toNat 63 60
    if s.off % 8 != 0 then .trap x.p { cause := 0x05, lanes := [x.st.low], addr := s.off }
    else if s.size < s.off + 8 then
      .trap x.p { cause := 0x0E, lanes := [x.st.low], addr := s.off, extra0 := space, extra1 := s.size }
    else
      let w := (x.env.uniform x.d).toNat
      let used := (x.p.core (sidCk x.sid)).watches
      let slot := if (x.p.ownWatch x.sid w).isSome then some w
                  else (List.range (watchSlots x.st)).find? fun n => (used.get? n).isNone
      match slot with
      | none => x.uniformResult 1 0xFFFFFFFF
      | some n =>
        if !selfClear x.p x.sid x.st s.loc 8 then .hold
        else
        let p := (x.p.updCore (sidCk x.sid) fun c =>
          { c with watches := c.watches.set n ⟨x.sid, s.loc, x.env.uniform64 x.b, false⟩ }).testWatches
        Pkg.Exe.uniformResult { x with p := p } 1 (BitVec.ofNat 64 n)

/-- A watch is freed and its strand acquires. -/
def Pkg.freeWatch (p : Pkg) (sid n : Nat) : Pkg :=
  (p.updCore (sidCk sid) fun c => { c with watches := c.watches.erase n }).acquire sid

def bodyLcwait (x : Exe) : Eff :=
  let n := (x.env.uniform x.a).toNat
  match x.p.ownWatch x.sid n with
  | none => .trap x.p { cause := 0x03, lanes := x.st.onLanes }
  | some w => if w.fired then .next (x.p.freeWatch x.sid n) else .park x.p (.lcwait n)

/-- LCRD; a die-scratchpad load holds an entry (R116). -/
def bodyLcrd (x : Exe) : Eff :=
  match counterAt x.p x.sid x.st (x.env.uniform64 x.a).toNat with
  | none => .trap x.p { cause := 0x03, lanes := x.st.onLanes }
  | some s => withScratch x (bits (x.env.uniform64 x.a).toNat 63 60) 8 [s] fun p _ =>
      p.issueOp x [x.d, x.d + 1] (bits (x.env.uniform64 x.a).toNat 63 60 == 1) (.counterRead x.d s.loc)

/-! ### Publication (R113, R354) -/

/-- Is the leaf of an address writable, by the page tables? -/
def Pkg.leafWritable (p : Pkg) (cid va : Nat) : Bool :=
  match p.ctxs.get? cid with
  | some c => match walkTree p (crRoot c.record) va with
    | .leaf _ e => bit e 3
    | _ => true
  | none => false

def bodyPubl (x : Exe) : Eff :=
  let va := (x.env.uniform64 x.a).toNat
  let denied (p : Pkg) (r : Nat) : Eff := .trap p { cause := 0x07, reason := r, lanes := [x.st.low], addr := va }
  match x.p.translate (.lane x.sid x.st.low) (sidCtx x.sid) (x.p.leaseOf x.st) va {} with
  | (_, .outside) => .endTree x.p 3 va
  | (p, .keyAlias k t) => p.failedCheck (.trap [x.st.low] va 0x08 0 k t)
  | (p, .ok (.twin _ i _)) => if p.leafWritable (sidCtx x.sid) va then p.issueOp x [] false (.publish i) else denied p 4
  | (p, _) => denied p 6

/-- The swap: selector and publication count change as one event. -/
def Pkg.swapTwin (p : Pkg) (cid twin : Nat) : Pkg :=
  match p.ctxs.get? cid with
  | none => p
  | some c =>
    let d := p.twinDesc cid twin
    let d' := setBits (setBits d 448 448 (if twSelector d then 0 else 1)) 511 480 (twCount d + 1)
    p.writeL2 none (c.twinPa + 64 * twin) (leBytes 64 d')

/-- TWIN_SWAP: the oldest pending swap of a twin, once its strand's earlier accesses are performed and the commands that
were writing the twin, or reading it under a count, are over. The strand then acquires (R125). -/
def Pkg.twinSwap (p : Pkg) (cid twin : Nat) : Pkg :=
  match leastBy (fun s : Nat × Op => s.2.id) (p.pendingSwaps cid twin) with
  | none => p
  | some (sid, o) =>
    let before := p.entries.any fun e =>
      e.2.accepted < o.id
        && (e.2.destTwins.contains (cid, twin) || (e.2.ctx == cid && e.2.expect && e.2.srcTwins.contains twin))
        && (p.entryOver e.1 e.2).isNone
    let quiet := match p.strand? sid with
      | some st => (Pkg.accessOps st).all fun x => o.id ≤ x.id
      | none => true
    if before || !quiet then p else ((p.swapTwin cid twin).dropOp sid o.id).acquire sid

/-! ### Launch forms (R42 to R46, R355 to R357) -/

def bodySpawn (x : Exe) : Eff :=
  Pkg.withGlobal x 64 needRead [⟨x.st.low, (x.env.uniform64 x.a).toNat⟩] fun p ls =>
    let queue := ((p.ctxs.get? (sidCtx x.sid)).map (·.spawnQueue)).getD []
    if 256 ≤ queue.length then .park p .spawnQueue
    else p.issueOp x [x.d] true (.spawn x.d (ls.head?.getD (.hbm 0)))

/-- Can some cluster hold a bent of a descriptor's shape (R30, R32)? The strands of a crew are taken as the descriptor declares
them, also where the launch has fewer: the model's choice (log entry 74). -/
def shapeFits (d : BitVec 512) : Bool :=
  let s := ldStrandsPerCrew d
  96 * ldRegs d * s ≤ 131072 && 96 * ldSlice d * s ≤ 262144

/-- Is a launch descriptor valid (R30, R367)? `leases` are those registered for the context. -/
def descValid (d : BitVec 512) (leases : AMap (List LeaseRange)) : Bool :=
  ldField d 511 464 == 0 && ldField d 367 367 == 0 && ldField d 343 341 == 0 && ldField d 310 309 == 0
    && ldField d 303 302 == 0
    && 1 ≤ ldItems d && 2 ≤ ldField d 308 304 && ldField d 308 304 ≤ 25 && ldField d 327 320 ≤ 170
    && ldField d 340 328 ≤ 4096 && ldField d 355 344 ≤ 2048 && ldCap d ≤ 1152
    && ((ldProducer d 0).1 == 0 || 1 ≤ (ldProducer d 0).2) && ((ldProducer d 1).1 == 0 || 1 ≤ (ldProducer d 1).2)
    && (leases.get? (ldLease d)).isSome && ldEntry d != 0 && shapeFits d

/-- The effect of SPAWN: the descriptor enters the queue and the spawn-tree counter rises; an invalid one counts as
spawned and at once as ended (R30, R39, R355). -/
def Pkg.doSpawn (p : Pkg) (sid : Nat) (st : Strand) (o : Op) (reg : Nat) (l : Loc) : Pkg :=
  match p.ctxs.get? (sidCtx sid) with
  | none => p
  | some c =>
    if 256 ≤ c.spawnQueue.length then p
    else if p.isBad l then (p.say (.errorEvent l.offset)).endTree (p.treeKeyOf st) 7
    else
      let (p, b) := p.readLoc (sidCore sid) 0 l 64
      let d := BitVec.ofNat 512 (leNat b)
      let k := p.treeKeyOf st
      let good := descValid d c.leases
      let p := if good then
          (p.updCtx (sidCtx sid) fun c => { c with spawnQueue := c.spawnQueue ++ [{ tree := k, desc := d }] }).updTree k
            fun t => { t with counter := (t.counter + 1) % 2 ^ 48 }
        else p.failTree k 2
      (p.updStrand sid fun st => st.put reg st.isPresent fun _ => if good then 0 else 1).dropOp sid o.id

def bodyScarf (x : Exe) : Eff :=
  let w (k : Nat) : Word := x.env.uniform (x.a + k)
  let illegal : Eff := .trap x.p { cause := 0x03, lanes := x.st.onLanes }
  if x.st.truss then illegal
  else
    match x.p.crew? x.st.bent x.st.crew with
    | none => illegal
    | some c =>
      let n := (w 2).toNat
      if n == 0 || c.sids.length < n || w 3 != 0 then illegal
      else if ldDovetail (x.p.descOf x.st) then .trap x.p { cause := 0x0D, lanes := x.st.onLanes, extra0 := 7 }
      else
        let packet : ScarfPacket := { sn := x.st.sn, entry := w 1 ++ w 0, count := n, args := [w 4, w 5, w 6, w 7] }
        .moved ((x.p.updCrew x.st.bent x.st.crew fun c => { c with scarfs := c.scarfs ++ [packet] }).setStrand x.sid
          x.st.finish)

/-- TRIG: a pending addition, which holds no flag. -/
def bodyTrig (x : Exe) : Eff := .next (x.p.addOp x.sid 15 [] false .trigger)

/-- Are the dependences of a launch satisfied (R45, R46)? -/
def Pkg.depsMet (p : Pkg) (l : Launch) : Bool :=
  l.deps.all fun d =>
    match p.launches.get? d.1 with
    | some q => q.ended || d.2 ≤ q.trig
    | none => true

def bodyWaitdep (x : Exe) : Eff :=
  match x.p.launchOf x.st with
  | some l => if x.p.depsMet l then .next (x.p.acquire x.sid) else .park x.p .waitdep
  | none => .next x.p

namespace Pkg

/-- TRIGGER_ADD: the launch's trigger count rises by 1 once the strand's earlier accesses are performed (R357). -/
def triggerAdd (p : Pkg) (sid id : Nat) : Pkg :=
  match p.strand? sid with
  | none => p
  | some st =>
    match st.ops.find? fun o => o.id == id && o.kind == .trigger with
    | none => p
    | some _ =>
      if (accessOps st).any fun o => o.id < id then p
      else (p.updLaunch st.launch fun l => { l with trig := (l.trig + 1) % 2 ^ 32 }).dropOp sid id

/-! ### The ends of the waits -/

/-- A strand's park is over and it goes on after its instruction. -/
def passPark (p : Pkg) (sid : Nat) : Pkg :=
  p.updStrand sid fun st => passInstr { st with park := none } (p.cycleOf (sidCluster sid))

/-- A strand's park is over and it executes its instruction again. -/
def retryPark (p : Pkg) (sid : Nat) : Pkg := p.updStrand sid fun st => { st with park := none }

/-- Change a resident parked strand. -/
def onParked (p : Pkg) (sid : Nat) (f : Pkg → Strand → Park → Pkg) : Pkg :=
  match p.strand? sid with
  | some st =>
    match st.park with
    | some k => if p.isResident sid then f p st k else p
    | none => p
  | none => p

def waitdepResume (p : Pkg) (sid : Nat) : Pkg :=
  p.onParked sid fun p st k =>
    match k, p.launchOf st with
    | .waitdep, some l => if p.depsMet l then (p.acquire sid).passPark sid else p
    | _, _ => p

/-- WAITSEQ_RESUME: the word has been at its target, or is read again, which may meet an uncorrectable error (R415). -/
def waitseqResume (p : Pkg) (sid : Nat) : Pkg :=
  p.onParked sid fun p st k =>
    match k with
    | .waitseq l t met =>
      if met then (p.acquire sid).passPark sid
      else if p.isBad l then (p.say (.errorEvent l.offset)).endTree (p.treeKeyOf st) 7
      else
        let (q, b) := p.readHome l 8
        if t.toNat ≤ leNat b then (q.acquire sid).passPark sid else p
    | _ => p

def lcwaitResume (p : Pkg) (sid : Nat) : Pkg :=
  p.onParked sid fun p _ k =>
    match k with
    | .lcwait n =>
      match p.ownWatch sid n with
      | some w => if w.fired then (p.freeWatch sid n).passPark sid else p
      | none => p
    | _ => p

def pollqResume (p : Pkg) (sid : Nat) : Pkg :=
  p.onParked sid fun p st k =>
    match k with
    | .pollq mask reg =>
      match p.firstRing (sidCtx sid) mask (pollOrder st.pollLast) with
      | (p, some r) => (p.pollDone sid reg r).passPark sid
      | (p, none) => p
    | _ => p

end Pkg

/-! ### The meanings -/

/-- CPQ (R345). -/
def execCpq (d a b : Field) : State → Host.Outcome State Fault Refusal :=
  execWord 0xC0 d a b bodyCpq

/-- XFQ (R345). -/
def execXfq (d a b : Field) : State → Host.Outcome State Fault Refusal :=
  execWord 0xC1 d a b bodyXfq

/-- WAITSEQ (R349). -/
def execWaitseq (d a b : Field) : State → Host.Outcome State Fault Refusal :=
  execWord 0xC2 d a b bodyWaitseq

/-- POLLQ (R350). -/
def execPollq (d a b : Field) : State → Host.Outcome State Fault Refusal :=
  execWord 0xC3 d a b bodyPollq

/-- XSEND (R351). -/
def execXsend (d a b : Field) : State → Host.Outcome State Fault Refusal :=
  execWord 0xC4 d a b bodyXsend

/-- XPUTV (R352). -/
def execXputv (d a b : Field) : State → Host.Outcome State Fault Refusal :=
  execWord 0xC5 d a b bodyXputv

/-- XREDV (R352). -/
def execXredv (d a b : Field) : State → Host.Outcome State Fault Refusal :=
  execWord 0xC6 d a b bodyXredv

/-- LCSET (R353). -/
def execLcset (d a b : Field) : State → Host.Outcome State Fault Refusal :=
  execWord 0xC7 d a b bodyLcset

/-- LCWAIT (R353). -/
def execLcwait (d a b : Field) : State → Host.Outcome State Fault Refusal :=
  execWord 0xC8 d a b bodyLcwait

/-- LCRD (R353). -/
def execLcrd (d a b : Field) : State → Host.Outcome State Fault Refusal :=
  execWord 0xC9 d a b bodyLcrd

/-- PUBL (R354). -/
def execPubl (d a b : Field) : State → Host.Outcome State Fault Refusal :=
  execWord 0xCA d a b bodyPubl

/-- SPAWN (R355). -/
def execSpawn (d a b : Field) : State → Host.Outcome State Fault Refusal :=
  execWord 0xCB d a b bodySpawn

/-- SCARF (R42, R356). -/
def execScarf (d a b : Field) : State → Host.Outcome State Fault Refusal :=
  execWord 0xCC d a b bodyScarf

/-- TRIG (R357). -/
def execTrig (d a b : Field) : State → Host.Outcome State Fault Refusal :=
  execWord 0xCD d a b bodyTrig

/-- WAITDEP (R46). -/
def execWaitdep (d a b : Field) : State → Host.Outcome State Fault Refusal :=
  execWord 0xCE d a b bodyWaitdep

/-- TRIGGER_ADD (R357). -/
def execTriggerAdd (sid op : Nat) : State → Host.Outcome State Fault Refusal := execPkg fun q => q.triggerAdd sid op

/-- WAITDEP_RESUME (R46). -/
def execWaitdepResume (sid : Nat) : State → Host.Outcome State Fault Refusal := execPkg fun q => q.waitdepResume sid

/-- WAITSEQ_RESUME (R349). -/
def execWaitseqResume (sid : Nat) : State → Host.Outcome State Fault Refusal := execPkg fun q => q.waitseqResume sid

/-- LCWAIT_RESUME (R353). -/
def execLcwaitResume (sid : Nat) : State → Host.Outcome State Fault Refusal := execPkg fun q => q.lcwaitResume sid

/-- POLLQ_RESUME (R350). -/
def execPollqResume (sid : Nat) : State → Host.Outcome State Fault Refusal := execPkg fun q => q.pollqResume sid

/-- TWIN_SWAP (R113). -/
def execTwinSwap (ctx index : Nat) : State → Host.Outcome State Fault Refusal := execPkg fun q => q.twinSwap ctx index

/-- ENGINE_ENTRY_ACCEPT (R347). -/
def execEngineEntryAccept (chain : Nat) : State → Host.Outcome State Fault Refusal := execPkg fun q => q.engineAccept chain

/-- CHAIN_WATCH_POLL (R346). -/
def execChainWatchPoll (ctx chain : Nat) : State → Host.Outcome State Fault Refusal := execPkg fun q => q.watchPoll ctx chain

/-- COPY_LINE_DELIVERED (R108). -/
def execCopyLineDelivered (entry : Nat) : State → Host.Outcome State Fault Refusal := execPkg fun q => q.copyLine entry

/-- ENTRY_COMPLETE (R347). -/
def execEntryComplete (entry : Nat) : State → Host.Outcome State Fault Refusal := execPkg fun q => q.entryComplete entry

/-- FABRIC_PACKET_SEND (R320). -/
def execFabricPacketSend (entry : Nat) : State → Host.Outcome State Fault Refusal := execPkg fun q => q.sendPacket entry

end Sys2Proof.Machine
end

