-- ==== Sys2Proof/Machine/Complete.lean ====
section
/-!
DEFINITION. The completion of outstanding flag-A and flag-B operations (R169, R170, R121, R239, R241, R251 to R259,
R300, R315, R345, R351 to R355), and the groups of a sweep (R305).
-/
namespace Sys2Proof.Machine

/-- The bytes that an operation reads and that may hold an uncorrectable error (R266). -/
def opReads (p : Pkg) (sid : Nat) (st : Strand) (k : OpKind) : List (Loc × Nat) :=
  match k with
  | .store .. | .shapeStore .. | .spawn .. | .actLoad .. | .post .. | .remote .. => []
  | k => opBytes p sid st k

/-- Does an operation release, so that every earlier access of its strand is performed before it (R123, R128)? -/
def opReleases (k : OpKind) : Bool :=
  match k with
  | .post .. | .spawn .. => true
  | _ => false

namespace Pkg

/-- May an operation of a strand be performed now: no earlier operation of the strand touches one of its bytes
(R121), every line it touches is present, also where a copy issued since has made one absent (R106), and a release comes
after every earlier access. -/
def opReady (p : Pkg) (sid : Nat) (st : Strand) (o : Op) : Bool :=
  (opBytes p sid st o.kind).all (fun x => clearOf p sid st o x.1 x.2 && p.isPresentAt x.1 x.2)
    && (!opReleases o.kind || (accessOps st).all fun e => o.id ≤ e.id)

/-- The status pair of a finished XSEND: status and cause, then bytes done (R351). -/
def endSend (p : Pkg) (sid : Nat) (o : Op) (reg entry : Nat) : Pkg :=
  match p.entries.get? entry with
  | none => p.dropOp sid o.id
  | some e =>
    match p.entryOver entry e with
    | none => p
    | some status =>
      let p := p.putPair sid reg (status + 256 * e.cause + 2 ^ 32 * bytesDone e)
      { p with entries := p.entries.erase entry }.dropOp sid o.id

/-- The failure that an XPUTV or XREDV leaves (R352): the lanes whose transfers failed, and the cause of the lowest. -/
def laneFailure (p : Pkg) (o : Op) (l : List (Nat × Nat)) : Option OpFailure :=
  let failed := l.filterMap fun x =>
    (p.entries.get? x.2).bind fun e => e.status.bind fun s => if s == 2 then none else some (x.1, e, s)
  match failed with
  | [] => none
  | (j, e, s) :: rest =>
    let cause := if s == 7 then 0xFE else if s == 9 then 0xFD else e.cause
    some { op := o.id, flag := o.flag, regs := [], cause := 0x0F, reason := 0, lanes := laneMask (j :: rest.map (·.1)),
           addr := BitVec.ofNat 64 (e.peer * 2 ^ 55 + e.dest.toNat % 2 ^ 55), extra0 := BitVec.ofNat 32 cause,
           extra1 := BitVec.ofNat 32 e.peer, extra2 := 0 }

/-- An XPUTV or XREDV ends when all its transfers are over. -/
def endLanes (p : Pkg) (sid : Nat) (o : Op) (l : List (Nat × Nat)) : Pkg :=
  let finished := l.all fun x =>
    match p.entries.get? x.2 with | some e => (p.entryOver x.2 e).isSome | none => true
  if !finished then p
  else
    let fails := (p.laneFailure o l).toList
    let p := { p with entries := p.entries.filter fun e => !(l.any fun x => x.2 == e.1) }
    (p.updStrand sid fun st => { st with failures := st.failures ++ fails }).dropOp sid o.id

/-- Perform one flag-A operation. -/
def perform (p : Pkg) (sid : Nat) (st : Strand) (o : Op) : Pkg :=
  match o.kind with
  | .load w policy accs => (p.doLoads sid w policy accs).dropOp sid o.id
  | .store policy accs => (p.doStores sid policy accs).dropOp sid o.id
  | .atomic code wide accs => (p.doAtomics sid code wide accs).dropOp sid o.id
  | .cas accs => (p.doCas sid accs).dropOp sid o.id
  | .prefetch policy accs => (p.doPrefetch sid policy accs).dropOp sid o.id
  | .lock accs => (p.doLocks sid [] accs).dropOp sid o.id
  | .unlock accs => (accs.foldl (fun p a => p.unlockLine (sidCtx sid) (p.lineOf a.loc)) p).dropOp sid o.id
  | .query accs =>
    let land (p : Pkg) (a : LaneAcc) : Pkg :=
      p.updStrand sid fun st => st.putLane a.reg a.lane (p.queryLine (sidCtx sid) (p.lineOf a.loc))
    (accs.foldl land p).dropOp sid o.id
  | .shapeLoad sh l =>
    let (p, b) := p.readLoc (sidCore sid) 0 l 64
    (p.updStrand sid fun st => st.putShape sh (BitVec.ofNat 512 (leNat b))).dropOp sid o.id
  | .shapeStore l data => (p.writeLoc (sidCore sid) false l data).dropOp sid o.id
  | .post fabric reg desc entry none => p.doPost sid st o fabric reg desc entry
  | .send reg entry => p.endSend sid o reg entry
  | .putv l => p.endLanes sid o l
  | .counterRead reg l =>
    let (p, b) := p.readHome l 8
    (p.putPair sid reg (leNat b)).dropOp sid o.id
  | .spawn reg l => p.doSpawn sid st o reg l
  | _ => p

/-- MEMORY_OP_COMPLETE: a flag-A operation is performed, or ends its tree at an uncorrectable error (R266). -/
def memoryOpComplete (p : Pkg) (sid id : Nat) : Pkg :=
  match p.strand? sid with
  | none => p
  | some st =>
    match st.ops.find? fun o => o.id == id with
    | none => p
    | some o =>
      if !p.isResident sid || !opReady p sid st o then p
      else
        match (opReads p sid st o.kind).find? fun x => p.badIn x.1 x.2 with
        | some x => (p.say (.errorEvent x.1.offset)).endTree (p.treeKeyOf st) 7
        | none => p.perform sid st o

/-- Does an earlier operation of the strand write first offending columns (R294, R305)? -/
def columnsBefore (st : Strand) (o : Op) : Bool :=
  st.ops.any fun e => e.id < o.id && match e.kind with | .regs _ _ c => !c.isEmpty | _ => false

/-- Is an ACTLD of the same slot and core ahead (R243)? -/
def slotBefore (p : Pkg) (sid slot : Nat) (o : Op) : Bool :=
  p.strands.any fun e => sidCk e.1 == sidCk sid && e.2.ops.any fun q =>
    q.id < o.id && match q.kind with | .actLoad s _ => s == slot | _ => false

/-- Read the pieces of a table record, as an ordinary load; none at an uncorrectable error (R241). -/
def readRecord (p : Pkg) (sid : Nat) : List Loc → Pkg × List Byte
  | [] => (p, [])
  | l :: rest =>
    let (p, b) := p.readLoc (sidCore sid) 0 l 16
    let (p, c) := p.readRecord sid rest
    (p, b ++ c)

/-- FLAG_B_OP_COMPLETE: results and flags of a flag-B operation land (R239, R241, R315). -/
def flagBOpComplete (p : Pkg) (sid id : Nat) : Pkg :=
  match p.strand? sid with
  | none => p
  | some st =>
    match st.ops.find? fun o => o.id == id with
    | none => p
    | some o =>
      if !p.isResident sid then p
      else
        match o.kind with
        | .regs writes flags columns =>
          if !columns.isEmpty && columnsBefore st o then p
          else (p.updStrand sid fun s => s.land writes flags columns).dropOp sid id
        | .tileRead _ writes => (p.updStrand sid fun s => s.land writes [] []).dropOp sid id
        | .tileWrite tile row vals => (p.writeRow st.bent tile row vals).dropOp sid id
        | .actLoad slot locs =>
          if p.slotBefore sid slot o || !opReady p sid st o then p
          else if locs.any p.isBad then
            ((p.say (.errorEvent (((locs.find? p.isBad).map Loc.offset).getD 0))).loadSlot sid slot none).dropOp sid id
          else
            let (p, b) := p.readRecord sid locs
            (p.loadSlot sid slot (some b)).dropOp sid id
        | _ => p

/-- The operations of a strand that MEMORY_OP_COMPLETE, FLAG_B_OP_COMPLETE or another event of its own can bring to
an end, performed in one call, whichever of them it is. -/
def completeOp (p : Pkg) (sid : Nat) (o : Op) : Pkg :=
  match o.kind with
  | .regs .. | .tileRead .. | .tileWrite .. | .actLoad .. => p.flagBOpComplete sid o.id
  | .sweep _ => p.sweepGroup sid o.id
  | .trigger => p.triggerAdd sid o.id
  | .publish t => p.twinSwap (sidCtx sid) t
  | _ => p.memoryOpComplete sid o.id

end Pkg

/-- MEMORY_OP_COMPLETE (R116, R169, R170). -/
def execMemoryOpComplete (sid op : Nat) : State → Host.Outcome State Fault Refusal :=
  execPkg fun p => p.memoryOpComplete sid op

/-- FLAG_B_OP_COMPLETE (R239). -/
def execFlagBOpComplete (sid op : Nat) : State → Host.Outcome State Fault Refusal :=
  execPkg fun p => p.flagBOpComplete sid op

/-- SWEEP_GROUP (R305). -/
def execSweepGroup (sid op : Nat) : State → Host.Outcome State Fault Refusal :=
  execPkg fun p => p.sweepGroup sid op

end Sys2Proof.Machine
end

