-- ==== Sys2Proof/Machine/Issue.lean ====
section
/-!
DEFINITION. Clause fetch and its checks (R166, R171, R172), readiness and the choice of the next strand (R48 to R50),
aging and yield (R49, R166), and finding the instruction that a strand executes next.
-/
namespace Sys2Proof.Machine

/-! ### Clause fetch (R152, R171) -/

/-- Why a clause cannot be entered. -/
inductive FetchStop where
  /-- Illegal Clause, with the index of the first offending word -/
  | illegal (slot : Nat)
  | outside (va : Nat)
  | trap (cause reason extra0 extra1 : Nat)
  | elastic (va : Nat)
  | bad (va : Nat)
  deriving DecidableEq, Repr

namespace Pkg

/-- Fetch one word of a strand's clause, translated by its core; code is read from memory, past the L1 (R133). -/
def fetchWord (p : Pkg) (sid : Nat) (lease : List LeaseRange) (va : Nat) : Pkg × Except FetchStop Word :=
  match p.translate (.core (sidCk sid % 1024)) (sidCtx sid) lease va needFetch with
  | (p, .ok l) =>
    if p.isBad l then (p, .error (.bad va))
    else let (p, b) := p.readHome l 4; (p, .ok (BitVec.ofNat 32 (leNat b)))
  | (p, .outside) => (p, .error (.outside va))
  | (p, .permission r) => (p, .error (.trap 0x07 r 0 0))
  | (p, .keyAlias k t) => (p, .error (.trap 0x08 0 k t))
  | (p, .elastic g) => (p, .error (.elastic g))

/-- Fetch `n` consecutive words. -/
def fetchWords (p : Pkg) (sid : Nat) (lease : List LeaseRange) : Nat → Nat → Pkg × Except FetchStop (List Word)
  | 0, _ => (p, .ok [])
  | n + 1, va =>
    match p.fetchWord sid lease va with
    | (p, .error e) => (p, .error e)
    | (p, .ok w) =>
      match p.fetchWords sid lease n (va + 4) with
      | (p, .error e) => (p, .error e)
      | (p, .ok ws) => (p, .ok (w :: ws))

end Pkg

/-- Is a header illegal (R171)? -/
def badHeader (h : Header) : Bool :=
  24 < h.count || h.reserved || (12 ≤ h.flagA && h.flagA ≤ 14) || (12 ≤ h.flagB && h.flagB ≤ 14)

/-- The control transfers (R171). -/
def isTransfer (op : Nat) : Bool := [0xD0, 0xD1, 0xD2, 0xD3, 0xD4, 0xD5, 0xDC].contains op

/-- The form of an instruction word, with the widest element type, and its fields. -/
def wordForm (truss : Bool) (w : Word) : Option (Form × Nat × Nat × Nat) :=
  (formOf (wordOpcode w) (wordB w).toNat 3 truss).map fun f => (f, (wordD w).toNat, (wordA w).toNat, (wordB w).toNat)

/-- The registers of an operand that the checks of a clause count, `l` being those that its field names from a start code on:
none beyond v99 of an operand that starts in v0-v99, and of a small-matrix form none beyond v99 at all (R171). A pair or quad at
another start is legal in no place where a flagged instruction writes, so its start stands for it. -/
def countedRegs (op c : Nat) (l : List Nat) : List Nat :=
  if c < 100 then l.filter (· < 100) else if 0x70 ≤ op && op < 0x80 then [] else l.take 1

/-- The registers that a clause's checks count as read by an instruction, and as written. -/
def countedReads (f : Form) (op d a b : Nat) : List Nat :=
  countedRegs op a (f.a.reads maxSizes a) ++ countedRegs op b (f.b.reads maxSizes b) ++ countedRegs op d (f.d.reads maxSizes d)
def countedWrites (f : Form) (op d a b : Nat) : List Nat :=
  countedRegs op a (f.a.writes maxSizes a) ++ countedRegs op b (f.b.writes maxSizes b)
    ++ countedRegs op d (f.d.writes maxSizes d)

/-- Is an operand a destination that is a temporary: one that starts in t0-t7 (R171, R281)? -/
def tempDest (o : Opd) (c : Nat) : Bool := 100 ≤ c && c < 108 && o.writes maxSizes c != []

/-- Is instruction `i` of a clause an offending word, given the registers that earlier flag-A and flag-B instructions
write (R171)? -/
def badInstr (h : Header) (truss : Bool) (i : Nat) (w : Word) (written : List Nat) : Bool :=
  0xF0 ≤ wordOpcode w || (isTransfer (wordOpcode w) && i != h.count) ||
  match wordForm truss w with
  | none => false
  | some (f, d, a, b) =>
    let later := f.cls == .flagA || f.cls == .flagB
    (f.cls == .flagA && h.flagA == 15) || (f.cls == .flagB && h.flagB == 15)
      || (later && (tempDest f.d d || tempDest f.a a || tempDest f.b b))
      || (countedReads f (wordOpcode w) d a b).any written.contains

/-- The registers that an instruction writes under a flag. -/
def flaggedWrites (truss : Bool) (w : Word) : List Nat :=
  match wordForm truss w with
  | some (f, d, a, b) => if f.cls == .flagA || f.cls == .flagB then countedWrites f (wordOpcode w) d a b else []
  | none => []

/-- The first offending instruction of a clause. -/
def firstBad (h : Header) (truss : Bool) : Nat → List Nat → List Word → Option Nat
  | _, _, [] => none
  | i, written, w :: rest =>
    if badInstr h truss i w written then some i
    else firstBad h truss (i + 1) (written ++ flaggedWrites truss w) rest

/-- Is a trailer illegal for a launch's registers per lane (R171)? -/
def badTrailer (nregs : Nat) (t : Trailer) : Bool :=
  3 < t.exportCount || (t.exports.take t.exportCount).any fun c => 99 < c || nregs ≤ c

/-- The words of a clause up to its trailer, checked: the first offending word, or the number of literals. -/
def checkClause (nregs : Nat) (truss : Bool) (h : Header) (ws : List Word) : Except Nat Nat :=
  match firstBad h truss 1 [] (ws.take h.count) with
  | some i => .error i
  | none =>
    match (ws[h.count]?).bind decodeTrailer with
    | some t => if badTrailer nregs t then .error (h.count + 1) else .ok t.literals
    | none => .error (h.count + 1)

namespace Pkg

/-- Fetch and check a strand's clause at an address: its words, header first. -/
def fetchClause (p : Pkg) (sid : Nat) (lease : List LeaseRange) (nregs : Nat) (truss : Bool) (va : Nat) :
    Pkg × Except FetchStop (List Word) :=
  if va % 4 != 0 then (p, .error (.illegal 0))
  else
    match p.fetchWord sid lease va with
    | (p, .error e) => (p, .error e)
    | (p, .ok w) =>
      match decodeHeader w with
      | none => (p, .error (.illegal 0))
      | some h =>
        if badHeader h then (p, .error (.illegal 0))
        else
          match p.fetchWords sid lease (h.count + 1) (va + 4) with
          | (p, .error e) => (p, .error e)
          | (p, .ok ws) =>
            match checkClause nregs truss h ws with
            | .error i => (p, .error (.illegal i))
            | .ok n =>
              match p.fetchWords sid lease n (va + 4 * (h.count + 2)) with
              | (p, .error e) => (p, .error e)
              | (p, .ok lits) => (p, .ok (w :: ws ++ lits))

/-! ### Readiness and choice (R48 to R50) -/

/-- The clause that a strand would enter next, if it can be fetched. -/
def nextClause (p : Pkg) (sid : Nat) (st : Strand) : Option (List Word) :=
  (p.fetchClause sid (p.leaseOf st) st.nregs st.truss st.clause.toNat).2.toOption

/-- The registers that an instruction word reads, for the strand as it stands: its sources, the enabled guard register where it
heeds the guard, and the vs of the channels that it reads or publishes (R170, R177, R270, R276). -/
def wordReads (p : Pkg) (st : Strand) (w : Word) : List Nat :=
  let op := wordOpcode w
  let (d, a, b) := ((wordD w).toNat, (wordA w).toNat, (wordB w).toNat)
  match formOf op b (modeElem st.mode) st.truss with
  | some f => f.reads (modeSizes st.mode) d a b ++ guardUsed st op ++ p.channelSources st f op d a b
  | none => []

/-- The registers that the instructions of a clause read, at the mode and with the channels that the strand enters it with: what
a SETM or a DVDECL of the clause itself changes is not foreseen, and the instructions that read by it stop in place (R170), the
model's choice (log entry 96). -/
def clauseReads (p : Pkg) (st : Strand) (ws : List Word) : List Nat :=
  match (ws.head?).bind decodeHeader with
  | some h => ((ws.drop 1).take h.count).flatMap (p.wordReads st)
  | none => []

/-- Does an outstanding operation hold the strand's next clause: a flag of its wait mask, or an exported register
that it reads (R48)? -/
def clauseHeld (p : Pkg) (st : Strand) (ws : List Word) : Bool :=
  let wait := (((ws.head?).bind decodeHeader).map (·.wait)).getD 0
  let reads := p.clauseReads st ws
  st.ops.any fun o =>
    (o.flag < 12 && wait.getLsbD o.flag) ||
    o.dests.any fun r => st.exports.contains r && reads.contains r

/-- Is a strand waiting to issue, whatever its next clause waits for? -/
def mayIssue (p : Pkg) (sid : Nat) (st : Strand) : Bool :=
  p.isResident sid && st.park.isNone && !st.executing && !st.finished && !st.ended

/-- Is a strand's yield over (R166)? -/
def yieldOver (p : Pkg) (sid : Nat) (st : Strand) : Bool :=
  match st.yieldUntil with
  | some c => c ≤ p.cycleOf (sidCluster sid)
  | none => true

/-- Is a strand ready but for a yield? In the middle of a clause, after a return from its handler, no wait mask is
tested. -/
def couldIssue (p : Pkg) (sid : Nat) (st : Strand) : Bool :=
  p.mayIssue sid st &&
  (st.slot != 0 ||
    match p.nextClause sid st with
    | some ws => !p.clauseHeld st ws
    | none => true)

/-- Is a strand ready (R48)? -/
def isReady (p : Pkg) (sid : Nat) (st : Strand) : Bool := p.yieldOver sid st && p.couldIssue sid st

/-- A strand's effective priority (R50). -/
def priority (p : Pkg) (st : Strand) : Nat := (max 0 (min 255 ((ldPriority (p.descOf st) : Int) + modePrio st.mode))).toNat

/-- The strands of a core of the context that its cluster executes, in slot order. `core` is 0-575, or 576 + cluster
for a truss core. -/
def coreStrands (p : Pkg) (core : Nat) : List (Nat × Strand) :=
  p.strands.filter fun e => sidCk e.1 % 1024 == core && p.isResident e.1

/-- The strand that issues next on a core (R49). -/
def chooseStrand (p : Pkg) (core : Nat) : Option (Nat × Strand) :=
  let ready := (p.coreStrands core).filter fun e => p.isReady e.1 e.2
  match ready.find? fun e => 65536 ≤ e.2.aging with
  | some e => some e
  | none =>
    let top := ready.foldl (fun m e => max m (p.priority e.2)) 0
    leastBy (fun e : Nat × Strand => e.2.lastIssue) (ready.filter fun e => p.priority e.2 == top)

/-! ### Time and cycles (R21, R22, R49) -/

/-- The aging counter of a strand once its cluster's cycle count is `now`: it counts the cycles in which the strand was
ready, from the end of a yield on (R49). -/
def agedTo (p : Pkg) (sid : Nat) (st : Strand) (now : Nat) : Nat :=
  min 65536 (st.aging + (now - max (p.cycleOf (sidCluster sid)) (st.yieldUntil.getD 0)))

/-- Nanoseconds pass: every cluster's cycle count rises by its own clock in MHz (R21), and the strands that are ready
age. -/
def passTime (p : Pkg) (ns : Nat) (clock : Nat → Nat) : Pkg :=
  if ns == 0 then p
  else
    let q := { p with time := p.time + ns, phases := AMap.tabulate 144 fun c => p.phases.get c 0 + clock c * ns }
    { q with strands := p.strands.mapVals fun sid st =>
        if p.couldIssue sid st then { st with aging := p.agedTo sid st (q.cycleOf (sidCluster sid)) } else st }

/-- Nanoseconds until a cluster's cycle count has reached a value, at a clock. -/
def nsUntil (p : Pkg) (clock : Nat → Nat) (cluster cycle : Nat) : Nat :=
  ceilDiv (1000 * cycle - p.phases.get cluster 0) (clock cluster)

/-- AGING_COUNTER_EXPIRY: the cycles pass after which a ready strand's aging counter stands at 65,536. -/
def agingExpiry (p : Pkg) (clock : Nat → Nat) (sid : Nat) : Pkg :=
  match p.strand? sid with
  | some st =>
    let c := sidCluster sid
    if p.isReady sid st then p.passTime (p.nsUntil clock c (p.cycleOf c + (65536 - st.aging))) clock else p
  | none => p

/-- YIELD_EXPIRY: the cycles pass after which a strand that yielded is ready again (R166). -/
def yieldExpiry (p : Pkg) (clock : Nat → Nat) (sid : Nat) : Pkg :=
  match p.strand? sid with
  | some st =>
    match st.yieldUntil with
    | some c =>
      (p.passTime (p.nsUntil clock (sidCluster sid) c) clock).updStrand sid fun st => { st with yieldUntil := none }
    | none => p
  | none => p

/-! ### Issue (R48, R52, R256) -/

/-- The failure that a clause observes, that of the oldest operation first: its wait mask names the failed operation's
flag (R256). -/
def clauseFailure (st : Strand) (ws : List Word) : Option OpFailure :=
  let wait := (((ws.head?).bind decodeHeader).map (·.wait)).getD 0
  if st.slot != 0 then none else leastBy (·.op) (st.failures.filter fun x => x.flag < 12 && wait.getLsbD x.flag)

/-- A clause cannot be entered: Illegal Clause, a fetch failure, an elastic park, or the end of the tree. -/
def fetchStopped (p : Pkg) (sid : Nat) (st : Strand) (e : FetchStop) : Pkg :=
  let trap (cause reason e0 e1 slot addr : Nat) : Pkg :=
    p.takeTrap sid { cause := cause, reason := reason, lanes := st.onLanes, addr := addr, extra0 := e0, extra1 := e1 } slot
  match e with
  | .illegal slot => trap 0x02 0 0 0 slot 0
  | .trap cause reason e0 e1 => trap cause reason e0 e1 0 st.clause.toNat
  | .outside va => p.endOutside (p.treeKeyOf st) va
  | .elastic g => p.updStrand sid fun st => { st with park := some (.elastic st.low g true) }
  | .bad va => (p.say (.errorEvent va)).endTree (p.treeKeyOf st) 7

/-- A strand enters the clause whose words are given. In the middle of a clause that has been changed since and has fewer
instructions than the saved slot (R173), the slot is past its last one, and the strand goes on to the next clause: the spec does
not say what executes there, the model's choice (log entry 89). -/
def enterClause (p : Pkg) (sid : Nat) (ws : List Word) : Pkg :=
  let exported := match (ws.head?).bind decodeHeader with
    | some h => (((ws[h.count + 1]?).bind decodeTrailer).map fun t => t.exports.take t.exportCount).getD []
    | none => []
  p.updStrand sid fun old =>
    let st : Strand := { old with words := ws, executing := true,
                                  exports := exported ++ old.exports.filter fun r => !exported.contains r }
    if st.slot == 0 then { st with slot := 1, t := [] }
    else if st.count < st.slot then passInstr { st with slot := st.count } (p.cycleOf (sidCluster sid))
    else st

/-- The yields that an issue at a priority ends on its core (R166). -/
def endYields (p : Pkg) (sid prio : Nat) : Pkg :=
  { p with strands := p.strands.mapVals fun k st =>
      if k != sid && sidCk k == sidCk sid && p.priority st ≤ prio then { st with yieldUntil := none } else st }

/-- CLAUSE_ISSUE: the next clause of the strand that a core's scheduler chooses. -/
def clauseIssue (p : Pkg) (core : Nat) : Pkg :=
  match p.chooseStrand core with
  | none => p
  | some (sid, st) =>
    if p.isExhausted (sidCtx sid) then p.energyPark sid
    else
      let p := p.endYields sid (p.priority st)
      let p := { p with issues := p.issues + 1 }
      let st := { st with aging := 0, lastIssue := p.issues, yieldUntil := none }
      let p := p.setStrand sid st
      match p.fetchClause sid (p.leaseOf st) st.nregs st.truss st.clause.toNat with
      | (p, .error e) => p.fetchStopped sid st e
      | (p, .ok ws) =>
        match clauseFailure st ws with
        | some x =>
          (p.setStrand sid { st with failures := st.failures.filter (· != x) }).takeTrap sid (failureTrap x) 0
        | none => { p.enterClause sid ws with cur := some sid }

/-! ### The instruction that a strand executes next -/

/-- May a strand execute an instruction now? -/
def mayRun (p : Pkg) (sid : Nat) (st : Strand) : Bool :=
  p.isResident sid && st.park.isNone && st.executing && !st.finished

/-- The bytes of a strand's next instruction word. -/
def nextBytes (st : Strand) : List Byte := wordBytes (st.words.getD st.slot 0)

/-- A strand meets a word that is no instruction (R180). -/
def illegalWord (p : Pkg) (sid : Nat) (st : Strand) : Pkg :=
  p.takeTrap sid { cause := 0x01, lanes := st.onLanes } st.slot

end Pkg

/-- The clock of a cluster in MHz, where the environment has it at `mhz`: between 0.95 GHz and the lowered ceilings of the
package and of the cluster's function (R21, R400). -/
def State.clockOf (s : State) (mhz : AMap Nat) (cluster : Nat) : Nat :=
  let top := min s.power.ceiling (s.power.functionClocks.get (clusterVf cluster) s.power.ceiling)
  max 950 (min (mhz.get cluster top) top)

/-- The meaning of an event of the package in whose course time passes, every cluster at its highest clock. -/
def execTimed (f : Pkg → (Nat → Nat) → Pkg) (s : State) : Host.Outcome State Fault Refusal :=
  execPkg (fun p => f p (s.clockOf [])) s

/-- CLAUSE_ISSUE (R48 to R50). -/
def execClauseIssue (core : Nat) : State → Host.Outcome State Fault Refusal := execPkg fun p => p.clauseIssue core

/-- AGING_COUNTER_EXPIRY (R49). -/
def execAgingCounterExpiry (sid : Nat) : State → Host.Outcome State Fault Refusal := execTimed fun p clock => p.agingExpiry clock sid

/-- YIELD_EXPIRY (R166). -/
def execYieldExpiry (sid : Nat) : State → Host.Outcome State Fault Refusal := execTimed fun p clock => p.yieldExpiry clock sid

end Sys2Proof.Machine
end

