-- ==== Sys2Proof/Machine/Sched.lean ====
section
/-!
DEFINITION. Launches, bents, crews and strands from acceptance to the completion record (R26 to R47, R156, R369, R370,
R418), and the ends of the parks that Amiah and the cores decide (R51, R116, R106, R241, R65, R66, R355).
-/
namespace Sys2Proof.Machine

/-! ### Frames and pages (R147, R412, R418) -/

/-- The number of HBM frames (R160). -/
def frameCount : Nat := 9437184

namespace Pkg

/-- Is a key ID enabled: Amiah's own, or assigned to a virtual function (R146)? -/
def keyEnabled (p : Pkg) (key : Nat) : Bool := key == 0 || (p.keyVf.get? key).isSome

/-- Is a frame, or a page of an alias window, owned by no enabled key ID (R147)? -/
def unowned (p : Pkg) (f : Nat) : Bool :=
  let e := (p.frameKeys.get f 0).toNat
  !(bit e 15 && p.keyEnabled (bits e 9 0))

/-- Is a frame free: an HBM frame owned by no enabled key ID (R418)? -/
def frameFree (p : Pkg) (f : Nat) : Bool := f < frameCount && p.unowned f

/-- Free frames from a starting point on, wrapping round: at most `n` of them. -/
def freeFrames (p : Pkg) (start n : Nat) : List Nat :=
  (((List.range (p.frameKeys.length + n)).map fun i => (start + i) % frameCount).filter p.frameFree).take n

/-- The lowest key ID of a virtual function (R418). -/
def lowestKey (p : Pkg) (vf : Nat) : Option Nat := (p.keyVf.find? fun e => e.2 == vf).map (·.1)

/-- A frame begins another life: no L1 keeps a word of its earlier one, and no core owns one (R134, R412). -/
def forgetFrame (p : Pkg) (f : Nat) : Pkg :=
  let inside (w : Nat) : Bool := w / 16384 == f
  { p with l1 := p.l1.mapVals fun _ m => m.filter fun w => !inside w.1, owner := p.owner.filter fun w => !inside w.1 }

/-- Zero-fill a frame: its bytes, with no copy of them left in an L1. -/
def zeroFrame (p : Pkg) (f : Nat) : Pkg :=
  { p with mem := p.mem.filter fun c => c.1 / 65536 != f }.forgetFrame f

/-- Take a frame for a virtual function under a key: zero-filled, then owned (R412). -/
def takeFrame (p : Pkg) (key f : Nat) : Pkg :=
  let p := p.zeroFrame f
  { p with frameKeys := p.frameKeys.set f (BitVec.ofNat 16 (32768 + key)) }

/-- Amiah assigns a free key ID to a virtual function (R146). -/
def assignKey (p : Pkg) (vf key : Nat) : Pkg :=
  if 1 ≤ key && key < 1024 && vf < 8 && (p.keyVf.get? key).isNone then { p with keyVf := p.keyVf.set key vf } else p

/-- Amiah enters an enabled key ID for a free HBM frame, which it zero-fills first, or for an unowned page of the alias
space, which no HBM backs (R95, R147, R412). -/
def ownFrame (p : Pkg) (key f : Nat) : Pkg :=
  if !p.keyEnabled key then p
  else if p.frameFree f then p.takeFrame key f
  else if isAliasPa (f * 65536) && p.unowned f then
    { p with frameKeys := p.frameKeys.set f (BitVec.ofNat 16 (32768 + key)) }
  else p

/-! ### The pages of codebook regions (R95, R412, R416) -/

/-- The ranges of an enabled region: its codes and its alias window. -/
def regionRanges (r : BitVec 512) : List (Nat × Nat) := [(rgCode r, rgSize r), (rgAlias r, 4 * rgSize r)]

/-- Are the pages of a range owned by keys of a virtual function (R95)? -/
def ownedRange (p : Pkg) (vf a n : Nat) : Bool :=
  (List.range (n / 65536)).all fun i => p.ownsFrame vf (a / 65536 + i)

/-- A region is disabled once some of its pages are owned by no key of its function, as they are after a retirement of keys:
its alias lines are written back first, as at any change of its register (R97). The spec has the pages owned (R95) and another
tenant's data kept apart (R416) without saying how Amiah sees to it at a retirement: the model's choice (log entry 86). -/
def closeUnowned (p : Pkg) : Pkg :=
  let bad := p.regions.filter fun e => rgEnabled e.2 && !(regionRanges e.2).all fun x => p.ownedRange (rgOwner e.2) x.1 x.2
  bad.foldl (fun p e =>
    let p := p.closeRegion e.1
    { p with regions := p.regions.set e.1 (e.2 &&& ~~~BitVec.ofNat 512 (2 ^ 456)) }) p

/-- The node that a table entry names, made from the next frame where the entry is invalid (R418): none for a malformed
entry, or where no frame is left. -/
def nodeAt (p : Pkg) (key addr : Nat) (frames : List Nat) : Pkg × Option (Nat × List Nat) :=
  let e := leNat (p.peek addr 8)
  if leafKind e == 1 then (p, some (bits e 51 16 * 65536, frames))
  else if leafKind e == 0 then
    match frames with
    | f :: rest =>
      if p.frameFree f then ((p.takeFrame key f).writeL2 none addr (leBytes 8 (f * 65536 + 1)), some (f * 65536, rest))
      else (p, none)
    | [] => (p, none)
  else (p, none)

/-- Map the page of an address in a context's tree from the given frames (R418): false where it cannot be mapped. -/
def mapPage (p : Pkg) (cid va : Nat) (frames : List Nat) : Pkg × Bool :=
  match p.ctxs.get? cid with
  | none => (p, false)
  | some c =>
    match p.lowestKey c.vf with
    | none => (p, (match walkTree p (crRoot c.record) va with | .leaf .. => true | _ => false))
    | some key =>
      match p.nodeAt key (crRoot c.record + 8 * bits va 54 42) frames with
      | (p, none) => (p, false)
      | (p, some (n1, frames)) =>
        match p.nodeAt key (n1 + 8 * bits va 41 29) frames with
        | (p, none) => (p, false)
        | (p, some (n0, frames)) =>
          let addr := n0 + 8 * bits va 28 16
          let e := leNat (p.peek addr 8)
          if leafKind e == 1 then (p, false)
          else if leafKind e != 0 then (p, true)
          else
            match frames with
            | f :: _ =>
              if p.frameFree f then
                -- kind 10, readable, writable
                ((p.takeFrame key f).writeL2 none addr (leBytes 8 (key * 2 ^ 52 + f * 65536 + 0xE)), true)
              else (p, false)
            | [] => (p, false)

/-- The pages of the pinned ranges of a lease (R156). -/
def pinnedPages (lease : List LeaseRange) : List Nat :=
  (lease.filter fun r => !r.elastic).flatMap fun r => (List.range r.pages).map fun i => (r.base + i) * 65536

/-- Map the pages of pinned ranges: false where some invalid page finds no frame. A malformed entry is left (R418). -/
def mapPinned (p : Pkg) (cid : Nat) : List Nat → Pkg × Bool
  | [] => (p, true)
  | va :: rest =>
    let root := ((p.ctxs.get? cid).map fun c => crRoot c.record).getD 0
    match walkTree p root va with
    | .leaf .. | .malformed => p.mapPinned cid rest
    | .invalid =>
      match p.mapPage cid va (p.freeFrames (Config.pickFrame p.fresh % frameCount) 3) with
      | (p, true) => p.mapPinned cid rest
      | (p, false) => (p, false)

/-! ### Acceptance (R38, R45, R368, R369) -/

/-- Amiah accepts a launch into a tree: its producer tags resolve, and its own tag names it from now on. -/
def acceptLaunch (p : Pkg) (cid tree : Nat) (d : BitVec 512) : Pkg :=
  match p.ctxs.get? cid with
  | none => p
  | some c =>
    let resolve (n : Nat) : Option (Nat × Nat) :=
      let q := ldProducer d n
      if q.1 == 0 then none
      else
        match c.tags.get? q.1 with
        | some k => if ((p.launches.get? k).map (·.ended)).getD true then none else some (k, q.2)
        | none => none
    let deps := [0, 1].filterMap resolve
    let lease := c.leases.get (ldLease d) []
    let (n, p) := p.takeId
    let l : Launch := { ctx := cid, tree := tree, desc := d, lease := lease, leaseId := ldLease d, deps := deps }
    let p := { p with launches := p.launches.set n l }
    if ldTag d == 0 then p else p.updCtx cid fun c => { c with tags := c.tags.set (ldTag d) n }

/-- Does Amiah serve a context: its function is not stopped (R373)? -/
def served (p : Pkg) (cid : Nat) : Bool :=
  (p.ctxs.get? cid).isSome && !(p.vfs.get (p.vfOf cid) {}).stopped

/-- CHILD_ACCEPT: the oldest child of a context's spawn queue. -/
def childAccept (p : Pkg) (cid : Nat) : Pkg :=
  match p.ctxs.get? cid with
  | none => p
  | some c =>
    match c.spawnQueue with
    | [] => p
    | q :: rest =>
      if p.served cid then (p.updCtx cid fun c => { c with spawnQueue := rest }).acceptLaunch cid q.tree q.desc else p

/-! ### Placement (R26, R29, R31 to R37, R47) -/

/-- The lanes of strand `s` of a launch of `n` items (R26). -/
def itemLanes (n s : Nat) : BitVec 96 := BitVec.ofNat 96 (2 ^ min 96 (n - 96 * s) - 1)

/-- A strand at its start (R27, R29). -/
def startStrand (launch bent crew sn : Nat) (d : BitVec 512) (truss : Bool) (present : BitVec 96) (entry : Nat) : Strand :=
  { launch := launch, bent := bent, crew := crew, sn := sn, truss := truss, nregs := ldRegs d, present := present,
    em := present, mode := modeReset, clause := BitVec.ofNat 64 entry }

/-- The free slots of a core for a context, in order. -/
def freeSlots (p : Pkg) (cid q : Nat) : List Nat :=
  ((List.range 16).map fun i => cid * 16384 + q * 16 + i).filter fun sid => (p.strands.get? sid).isNone

/-- The sum of a list. -/
def total (l : List Nat) : Nat := l.foldl (· + ·) 0

/-- Does a crew of `n` strands of a descriptor fit on a core (R15, R32)? -/
def crewFits (p : Pkg) (cid q n : Nat) (d : BitVec 512) : Bool :=
  let here := p.onCore cid q
  let crews := (p.bentsOn cid (q / 4)).flatMap fun b => (b.crews.filter fun c => c.2.core == q).map fun _ => b
  here.length + n ≤ 16
    && total (here.map fun e => 96 * e.2.nregs) + 96 * ldRegs d * n ≤ 131072
    && total (here.map fun e => 96 * ldSlice (p.descOf e.2)) + 96 * ldSlice d * n ≤ 262144
    && total (crews.map fun b => ldKspad (((p.launches.get? b.launch).map (·.desc)).getD 0)) + ldKspad d ≤ 524288

/-- The strands of bent `b` of a launch: its first strand and its strand count (R31). -/
def bentStrands (d : BitVec 512) (b : Nat) : Nat × Nat :=
  let per := ldStrandsPerCrew d * ldCrews d
  (b * per, min per (strandCount d - b * per))

/-- The number of bents of a launch. -/
def bentCount (d : BitVec 512) : Nat := ceilDiv (strandCount d) (ldStrandsPerCrew d * ldCrews d)

/-- Strand slots that a launch holds, its truss strands not counted. -/
def heldSlots (p : Pkg) (launch : Nat) : Nat := (p.strands.filter fun e => e.2.launch == launch && !e.2.truss).length

/-- Does the early-start cap let the next bent of a launch, of `n` strands, be dispatched (R47)? The first bent goes where
the launch holds no slot yet, whatever the cap. -/
def capAllows (p : Pkg) (launch n : Nat) (l : Launch) : Bool :=
  let cap := if ldCap l.desc == 0 then 288 else ldCap l.desc
  p.depsMet l || (l.nextBent == 0 && p.heldSlots launch == 0) || p.heldSlots launch + n ≤ cap

/-- Is a core reserved for the collective crews of a context (R335, R361)? Which of its function's cores are is free. -/
def isReserved (p : Pkg) (cid core : Nat) : Bool :=
  let n := ((p.ctxs.get? cid).map fun c => crReservedCores c.record).getD 0
  let rank (q : Nat) : Nat := Config.reservedRank cid q
  let first := 72 * p.vfOf cid
  n != 0 && ((List.range 72).filter fun i =>
    rank (first + i) < rank core || (rank (first + i) == rank core && first + i < core)).length < n

/-- May the next bent of a launch be placed on a cluster, its crews on the cores at the given positions (R32 to R35)? -/
def placeable (p : Pkg) (launch : Nat) (l : Launch) (cluster : Nat) (cores : List Nat) : Bool :=
  let d := l.desc
  let (_, n) := bentStrands d l.nextBent
  let s := ldStrandsPerCrew d
  let crews : List (Nat × Nat) := cores.zipIdx
  let c := p.clusters.get cluster {}
  let here := p.bentsOn l.ctx cluster
  let descs := here.map fun b => ((p.launches.get? b.launch).map (·.desc)).getD 0
  !l.ended && l.nextBent < bentCount d && clusterVf cluster == p.vfOf l.ctx && p.ctxLive l.ctx
    && (c.occupant == none || c.occupant == some l.ctx) && !c.halted && !c.restore
    && cores.length == ceilDiv n s && (cores.all fun k => k < 4 && !p.isReserved l.ctx (4 * cluster + k)) && cores == cores.eraseDups
    && (crews.all fun e => p.crewFits l.ctx (4 * cluster + e.1) (min s (n - s * e.2)) d)
    && total (descs.map ldQspad) + ldQspad d ≤ 1048576
    && (ldTruss d == 0 || descs.all fun x => ldTruss x == 0)
    && p.capAllows launch n l

/-- Place the strands of one crew in the free slots of its core. -/
def placeCrew (p : Pkg) (launch bent pos q first n : Nat) (d : BitVec 512) (cid : Nat) : Pkg :=
  let sids := (p.freeSlots cid q).take n
  let start (m : AMap Strand) (e : Nat × Nat) : AMap Strand :=
    m.set e.1 (startStrand launch bent pos (first + e.2) d false (itemLanes (ldItems d) (first + e.2)) (ldEntry d))
  let p := { p with strands := sids.zipIdx.foldl start p.strands }
  p.updBent bent fun b => { b with crews := b.crews.set pos { core := q, firstSn := first, sids := sids } }

/-- Place the crews of a bent. -/
def placeCrews (p : Pkg) (launch bent first n : Nat) (d : BitVec 512) (cid cluster : Nat) : List (Nat × Nat) → Pkg
  | [] => p
  | (core, pos) :: rest =>
    let s := ldStrandsPerCrew d
    (p.placeCrew launch bent pos (4 * cluster + core) (first + s * pos) (min s (n - s * pos)) d cid).placeCrews
      launch bent first n d cid cluster rest

/-- A context that has become resident receives the records that were held for it (R407). -/
def deliverHeld (p : Pkg) (cid : Nat) : Pkg :=
  match p.ctxs.get? cid with
  | none => p
  | some c =>
    let p := p.updCtx cid fun c => { c with heldRecords := [] }
    c.heldRecords.foldl (fun p r => p.appendRecord cid (crFaultQueue c.record) r) p

/-- The context of the first launch of a function that has had no raising becomes its resident context. -/
def settleResident (p : Pkg) (cid : Nat) : Pkg :=
  (p.updVf (p.vfOf cid) fun v => { v with resident := some cid }).deliverHeld cid

/-- The activation slots of a cluster's cores, which go to a context, become invalid for every other context that has no bent there;
those of a context that is saved there come back with its core blocks (R240). That they become so as the cluster starts for the other
context is the model's choice (log entry 108). -/
def dropActs (p : Pkg) (cid cluster : Nat) : Pkg :=
  let lost (ck : Nat) : Bool :=
    (if ck % 1024 < 576 then ck % 1024 / 4 else ck % 1024 - 576) == cluster && ck / 1024 != cid && (p.bentsOn (ck / 1024) cluster).isEmpty
  { p with cores := p.cores.mapVals fun ck c => if lost ck then { c with acts := [] } else c }

/-- A cluster start falls due on a cluster that executed nothing (R24). -/
def awaitStart (p : Pkg) (cid cluster : Nat) : Pkg :=
  let (n, p) := (p.dropActs cid cluster).takeId
  p.updCluster cluster fun c => { c with occupant := some cid, started := false, pending := some n }

/-- Occupy a cluster for a context: a cluster start falls due where it executed nothing (R24). -/
def occupy (p : Pkg) (cid cluster : Nat) : Pkg :=
  if (p.clusters.get cluster {}).occupant == some cid then p else p.awaitStart cid cluster

/-- Has every strand of a context on a cluster ended, so that the cluster executes nothing of it? -/
def idleCluster (p : Pkg) (cid cluster : Nat) : Bool :=
  p.strands.all fun e => !(sidCtx e.1 == cid && sidCluster e.1 == cluster) || e.2.ended

/-- Give a cluster a bent: its crews, its truss strand and its allocations. -/
def placeBent (p : Pkg) (launch : Nat) (l : Launch) (cluster : Nat) (cores : List Nat) : Pkg :=
  let d := l.desc
  let (first, n) := bentStrands d l.nextBent
  let (k, p) := p.takeId
  let truss := if ldTruss d == 0 then none else some (l.ctx * 16384 + 9216 + cluster)
  let b : Bent := { ctx := l.ctx, launch := launch, index := l.nextBent, cluster := cluster, truss := truss }
  let p := { p with bents := p.bents.set k b }
  let p := p.placeCrews launch k first n d l.ctx cluster cores.zipIdx
  let p := match truss with
    | some sid => p.setStrand sid (startStrand launch k 0 0 d true 1 (ldTruss d))
    | none => p
  let p := p.updLaunch launch fun l => { l with nextBent := l.nextBent + 1, liveBents := l.liveBents + 1 }
  (p.settleResident l.ctx).occupy l.ctx cluster

/-- BENT_DISPATCH: the next bent of a launch onto a cluster, once its pinned pages are mapped. The start acquires. -/
def bentDispatch (p : Pkg) (launch cluster : Nat) (cores : List Nat) : Pkg :=
  match p.launches.get? launch with
  | none => p
  | some l =>
    if !p.placeable launch l cluster cores then p
    else
      match p.mapPinned l.ctx (pinnedPages l.lease) with
      | (p, false) => p
      | (p, true) =>
        let started := (cores.map (4 * cluster + ·)) ++ if ldTruss l.desc == 0 then [] else [576 + cluster]
        let p := started.foldl (fun p c => p.discardL1 (some c)) p
        p.placeBent launch l cluster cores

/-- Has the stagger of a partition passed since its last cluster start (R24)? -/
def staggered (p : Pkg) (vf : Nat) : Bool :=
  match (p.vfs.get vf {}).lastStart with
  | some t => t + 16 ≤ p.time
  | none => true

/-- The clusters of a virtual function. -/
def clustersOf (vf : Nat) : List Nat := (List.range 18).map (18 * vf + ·)

/-- CLUSTER_START: the cluster whose start is due and comes first in its partition (R24, R36, R392). -/
def clusterStart (p : Pkg) (cluster : Nat) : Pkg :=
  let c := p.clusters.get cluster {}
  let vf := clusterVf cluster
  match c.pending with
  | none => p
  | some n =>
    let first := (clustersOf vf).all fun k =>
      let x := p.clusters.get k {}
      (match x.pending with | some m => n ≤ m | none => true) && (c.halted → !(x.restore && k < cluster))
    if !first || !p.staggered vf || c.restore then p
    else
      (p.updCluster cluster fun c => { c with started := true, halted := false, pending := none }).updVf vf fun v =>
        { v with lastStart := some p.time }

/-! ### Ends (R28, R39, R42, R43, R200, R370) -/

/-- A launch may be over: all its bents dispatched and ended. Its tree's counter falls by 1 (R39). -/
def settleLaunch (p : Pkg) (launch : Nat) : Pkg :=
  match p.launches.get? launch with
  | none => p
  | some l =>
    if l.ended || l.liveBents != 0 || l.nextBent < bentCount l.desc then p
    else
      (p.updLaunch launch fun l => { l with ended := true, dovetail := [] }).updTree l.tree fun t =>
        { t with counter := t.counter - 1 }

/-- A cluster that holds no bent of its occupant executes nothing. -/
def settleCluster (p : Pkg) (cid cluster : Nat) : Pkg :=
  if (p.bentsOn cid cluster).isEmpty && (p.clusters.get cluster {}).occupant == some cid then
    p.updCluster cluster fun c =>
      { c with occupant := none, started := false, halted := c.halted && c.pending.isNone, pending := none }
  else p

/-- A bent may be over: no crew left, and its truss strand ended (R34). -/
def settleBent (p : Pkg) (k : Nat) : Pkg :=
  match p.bents.get? k with
  | none => p
  | some b =>
    let trussOver := match b.truss.bind p.strand? with | some st => st.ended | none => true
    if !b.crews.isEmpty || !trussOver then p
    else
      let p := match b.truss with
        | some sid => { p with strands := p.strands.erase sid }
        | none => p
      let p := p.revealTiles k fun _ => true
      let p := { p with bents := p.bents.erase k }
      let p := p.updLaunch b.launch fun l => { l with liveBents := l.liveBents - 1 }
      (p.settleCluster b.ctx b.cluster).settleLaunch b.launch

/-- A continuation strand (R43): `old` is the strand that held the slot. -/
def continueStrand (old : Strand) (c : Crew) (k : Nat) (s : ScarfPacket) (d : BitVec 512) : Strand :=
  let st := startStrand old.launch old.bent old.crew (c.firstSn + k) d false (BitVec.allOnes 96) s.entry.toNat
  { st with v := s.args.zipIdx.map fun a => (a.2, AMap.tabulate 96 fun _ => a.1), slice := old.slice }

/-- The cluster start of a continuation: the crew of a bent goes on where nothing else of the context executes (R24). A
cluster that does not execute the context, since it is held in place or saved, starts with its resumption or its restore
(R386, R392). -/
def startContinuation (p : Pkg) (bent : Nat) (idle : Bool) : Pkg :=
  match p.bents.get? bent with
  | some b => if idle && p.runsOn b.cluster b.ctx then p.awaitStart b.ctx b.cluster else p
  | none => p

/-- Every strand of a crew has ended: the crew continues, or releases its slots and allocations (R42, R43). The start of a
continuation is an acquire: it observes what the crew's strands stored (R44). -/
def settleCrew (p : Pkg) (bent pos : Nat) : Pkg :=
  match p.crew? bent pos with
  | none => p
  | some c =>
    if !(c.sids.all fun sid => ((p.strand? sid).map (·.ended)).getD true) then p
    else
      match leastBy (fun s : ScarfPacket => s.sn) c.scarfs with
      | none =>
        let p := { p with strands := p.strands.filter fun e => !c.sids.contains e.1 }
        (p.updBent bent fun b => { b with crews := b.crews.erase pos }).settleBent bent
      | some s =>
        let keep := c.sids.take s.count
        let d := ((p.strand? (c.sids.headD 0)).map p.descOf).getD 0
        let strands := AMap.mapVals (p.strands.filter fun e => !(c.sids.drop s.count).contains e.1) fun sid st =>
          if keep.contains sid then continueStrand st c (keep.idxOf sid) s d else st
        let idle := match p.bents.get? bent with | some b => p.idleCluster b.ctx b.cluster | none => false
        let p := { p with strands := strands }.updCrew bent pos fun c => { c with sids := keep, scarfs := [] }
        (p.discardL1 (some c.core)).startContinuation bent idle

/-- A strand has ended: its channels end, its watches are freed, a failure that it has not observed counts for the tree,
and it takes part in no barrier any more (R67, R201, R256, R333). Of a sweep's Permission or Key Alias failure (R307) that it
has not observed nothing is left, and the tree's status says nothing of it: the spec is silent, the model's choice (log entry
85). -/
def endStrand (p : Pkg) (sid : Nat) (st : Strand) : Pkg :=
  let p := if st.truss then p else p.endChannels st
  let p := if st.failures.any fun x => x.cause == 0x0F then p.failTree (p.treeKeyOf st) 5 else p
  let p := { p with cur := if p.cur == some sid then none else p.cur }
  let p := p.updCore (sidCk sid) fun c => { c with watches := c.watches.filter fun w => w.2.owner != sid }
  let p := (p.updStrand sid fun st => { st with ended := true, failures := [] }).settleBarriers st.bent
  if st.truss then p.settleBent st.bent else p.settleCrew st.bent st.crew

/-- Has every operation that a strand issued completed: for a truss strand those in the matrix queue too (R200, R311)? -/
def allComplete (p : Pkg) (st : Strand) : Bool :=
  st.ops.isEmpty && (!st.truss || ((p.bentOf st).map fun b => b.matq.isEmpty).getD true)

/-- STRAND_END (R200): no lane is present and every operation has completed. -/
def strandEnd (p : Pkg) (sid : Nat) : Pkg :=
  match p.strand? sid with
  | some st => if st.finished && !st.ended && p.allComplete st && p.isResident sid then p.endStrand sid st else p
  | none => p

/-- The bytes of a completion record (R370). -/
def completionRecord (p : Pkg) (t : Tree) : List Byte :=
  leBytes 8 (t.status.getD 1) ++ leBytes 8 t.args.toNat ++ leBytes 8 p.time ++ leBytes 8 1

/-- Write a tree's completion record under the seed's lease: false where it cannot be written (R370). -/
def writeRecord (p : Pkg) (t : Tree) : Pkg × Bool :=
  let va := t.record.toNat
  if va == 0 then (p, true)
  else if va % 32 != 0 then (p, false)
  else
    match p.translate (p.enginePort t.ctx) t.ctx t.lease va needWrite with
    | (p, .ok l) => if p.isBad l then (p, false) else (p.writeLoc none false l (p.completionRecord t), true)
    | (p, _) => (p, false)

/-- The entries of a tree that ends fail with TREE_ENDED where they have not completed (R358). -/
def failEntries (p : Pkg) (k : Nat) : Pkg :=
  { p with entries := p.entries.mapVals fun _ e =>
      if e.tree == some k && e.status.isNone then { e with status := some 13 } else e }

/-- A tree is over: its record is written, and software can see no more of it. -/
def closeTree (p : Pkg) (k : Nat) : Pkg :=
  match p.trees.get? k with
  | none => p
  | some t =>
    let (p, ok) := p.writeRecord t
    let p := if ok then p
      else p.reportFault t.ctx 14 0xFF 0xFF t.seedSeq.toNat (t.status.getD 1) t.record.toNat
    { p.failEntries k with trees := p.trees.erase k, launches := p.launches.filter fun l => l.2.tree != k }

/-- TREE_COMPLETION: the counter is 0, so the record is written and the tree is over. A stopped function's stores are all
performed, so its records wait for START (R373). -/
def treeCompletion (p : Pkg) (k : Nat) : Pkg :=
  match p.trees.get? k with
  | some t => if t.counter == 0 && p.served t.ctx then p.closeTree k else p
  | none => p

/-! ### The ends of parks (R51) -/

def presenceResume (p : Pkg) (sid : Nat) : Pkg :=
  p.onParked sid fun p _ k =>
    match k with
    | .presence need => if need.all fun x => p.isPresentAt x.1 x.2 then p.retryPark sid else p
    | _ => p

def entryRetry (p : Pkg) (sid : Nat) : Pkg :=
  p.onParked sid fun p st k => if k == .table && p.canEnter sid st then p.retryPark sid else p

def spawnResume (p : Pkg) (sid : Nat) : Pkg :=
  p.onParked sid fun p _ k =>
    if k == .spawnQueue && (((p.ctxs.get? (sidCtx sid)).map fun c => c.spawnQueue.length).getD 0) < 256 then
      p.retryPark sid else p

def actldResume (p : Pkg) (sid : Nat) : Pkg :=
  p.onParked sid fun p _ k =>
    match k with
    | .actSlot n => if p.slotSelected sid n then p else p.retryPark sid
    | _ => p

/-- Do all reads of a parked instruction find their rounds or an end (R65)? -/
def roundsCome (p : Pkg) (st : Strand) (needs : List (Nat × List Nat)) : Bool :=
  needs.all fun n => n.2.all fun j => p.readDv st n.1 j != .wait

def dovetailResume (p : Pkg) (sid : Nat) : Pkg :=
  p.onParked sid fun p st k =>
    match k with
    | .dovetail needs => if p.roundsCome st needs then p.retryPark sid else p
    | _ => p

def dvpubResume (p : Pkg) (sid : Nat) : Pkg :=
  p.onParked sid fun p st k =>
    match k with
    | .publish5 c => if p.bufferFull st c then p else p.retryPark sid
    | _ => p

end Pkg

/-! ### The meanings -/

/-- STRAND_END (R200). -/
def execStrandEnd (sid : Nat) : State → Host.Outcome State Fault Refusal := execPkg fun p => p.strandEnd sid

/-- BENT_DISPATCH (R35). -/
def execBentDispatch (launch cluster : Nat) (cores : List Nat) : State → Host.Outcome State Fault Refusal :=
  execPkg fun p => p.bentDispatch launch cluster cores

/-- CLUSTER_START (R24). -/
def execClusterStart (cluster : Nat) : State → Host.Outcome State Fault Refusal := execPkg fun p => p.clusterStart cluster

/-- CHILD_ACCEPT (R369). -/
def execChildAccept (ctx : Nat) : State → Host.Outcome State Fault Refusal := execPkg fun p => p.childAccept ctx

/-- PRESENCE_RESUME (R106). -/
def execPresenceResume (sid : Nat) : State → Host.Outcome State Fault Refusal := execPkg fun p => p.presenceResume sid

/-- OTT_ENTRY_RETRY (R116). -/
def execOttEntryRetry (sid : Nat) : State → Host.Outcome State Fault Refusal := execPkg fun p => p.entryRetry sid

/-- SPAWN_QUEUE_RESUME (R355). -/
def execSpawnQueueResume (sid : Nat) : State → Host.Outcome State Fault Refusal := execPkg fun p => p.spawnResume sid

/-- ACTLD_PARK_END (R241). -/
def execActldParkEnd (sid : Nat) : State → Host.Outcome State Fault Refusal := execPkg fun p => p.actldResume sid

/-- DOVETAIL_READ_RESUME (R65). -/
def execDovetailReadResume (sid : Nat) : State → Host.Outcome State Fault Refusal := execPkg fun p => p.dovetailResume sid

/-- DVPUB_PARK_RESUME (R66). -/
def execDvpubParkResume (sid : Nat) : State → Host.Outcome State Fault Refusal := execPkg fun p => p.dvpubResume sid

end Sys2Proof.Machine
end

