-- ==== Sys2Proof/Machine/Space.lean ====
section
/-!
DEFINITION. Walks, elastic faults, invalidations, codebook regions and frames as Amiah handles them (R95, R97, R110,
R138, R142, R150, R157, R412, R418).
-/
namespace Sys2Proof.Machine

namespace Pkg

/-! ### Walks (R138) -/

/-- Is an address in an elastic range of some lease of a context? -/
def inElastic (p : Pkg) (cid va : Nat) : Bool := ((leaseRange? (p.allLeases cid) va).map (·.elastic)).getD false

/-- PAGE_WALK: a walker of the context's die resolves the translation of an address for a read or a write. -/
def pageWalk (p : Pkg) (cid va : Nat) (forWrite : Bool) : Pkg :=
  (p.walk (.die (p.vfOf cid / 2)) cid (p.inElastic cid va) va (if forWrite then needWrite else needRead)).1

/-! ### Elastic faults (R157) -/

/-- Does an address that waits lie in a page? -/
def waitsOn (page : Nat) (va : Option Nat) : Bool := va.any fun a => a / 65536 == page

/-- The address whose elastic fault an operation waits for. -/
def opElastic (k : OpKind) : Option Nat :=
  match k with
  | .sweep s => s.elastic
  | .post _ _ _ _ e => e
  | _ => none

def parkElastic (k : Option Park) : Option Nat :=
  match k with
  | some (.elastic _ va _) => some va
  | _ => none

/-- The packets held for a page of a context (R329). -/
def heldFor (p : Pkg) (cid page : Nat) : List Packet :=
  (p.vfs.get (p.vfOf cid) {}).faultHold.filter fun k =>
    (headOf k).ctx == cid && match (p.checkRequest (headOf k)).2 with | .elastic va => va / 65536 == page | _ => false

/-- Does anything of a context wait for a page? -/
def pageAwaited (p : Pkg) (cid page : Nat) : Bool :=
  (p.strands.any fun e => sidCtx e.1 == cid &&
      (waitsOn page (parkElastic e.2.park) || e.2.ops.any fun o => waitsOn page (opElastic o.kind)))
    || (p.entries.any fun e => e.2.ctx == cid && waitsOn page e.2.elastic)
    || (p.bents.any fun b => b.2.ctx == cid && b.2.matq.any fun o => waitsOn page o.elastic)
    || !(p.heldFor cid page).isEmpty

/-- The page is mapped: everything that waited for it goes on as though uninterrupted. -/
def resumePage (p : Pkg) (cid page : Nat) : Pkg :=
  let kind (k : OpKind) : OpKind :=
    if !waitsOn page (opElastic k) then k
    else match k with
      | .sweep s => .sweep { s with elastic := none }
      | .post f r d e _ => .post f r d e none
      | k => k
  { p with
    strands := p.strands.mapVals fun sid st =>
      if sidCtx sid != cid then st
      else { st with park := if waitsOn page (parkElastic st.park) then none else st.park,
                     ops := st.ops.map fun o => { o with kind := kind o.kind } }
    entries := p.entries.mapVals fun _ e =>
      if e.ctx == cid && waitsOn page e.elastic then { e with elastic := none } else e
    bents := p.bents.mapVals fun _ b =>
      if b.ctx != cid then b
      else { b with matq := b.matq.map fun o => if waitsOn page o.elastic then { o with elastic := none } else o } }

/-- A refused page is a Permission fault with reason 1 for a strand: at its instruction, whose address the record names, or
at its clause (R152, R157, R206). -/
def refuseStrand (p : Pkg) (page sid : Nat) : Pkg :=
  match p.strand? sid with
  | none => p
  | some st =>
    match st.park with
    | some (.elastic lane va fetch) =>
      if va / 65536 != page then p
      else
        (p.updStrand sid fun st => { st with park := none }).takeTrap sid
          { cause := 0x07, reason := 1, lanes := [lane], addr := if fetch then st.clause.toNat else va }
          (if fetch then 0 else st.slot)
    | _ => p

/-- A refused page makes an operation fail: the strand observes the Permission fault later (R307). -/
def refuseOps (p : Pkg) (page sid : Nat) : Pkg :=
  match p.strand? sid with
  | none => p
  | some st =>
    (st.ops.filter fun o => waitsOn page (opElastic o.kind)).foldl (fun p o =>
      let va := (opElastic o.kind).getD 0
      match o.kind with
      | .sweep s => p.sweepStall sid st o s (.fail va 0x07 1 0 0)
      | _ => p.opStall sid st o (.trap [st.low] va 0x07 1 0 0)) p

/-- Amiah refuses a page. -/
def refusePage (p : Pkg) (cid page : Nat) : Pkg :=
  let sids := (p.strands.filter fun e => sidCtx e.1 == cid).map (·.1)
  let p := sids.foldl (fun p sid => (p.refuseOps page sid).refuseStrand page sid) p
  let p := { p with entries := p.entries.mapVals fun _ e =>
    if e.ctx == cid && waitsOn page e.elastic then { e with elastic := none, status := some (e.status.getD 5) } else e }
  let mats := (p.bents.filter fun b => b.2.ctx == cid).flatMap fun b =>
    (b.2.matq.filter fun o => waitsOn page o.elastic).map fun o => (b.1, o.seq)
  let p := mats.foldl (fun p e => p.matFail e.1 e.2 0) p
  let held := p.heldFor cid page
  let p := p.updVf (p.vfOf cid) fun v => { v with faultHold := v.faultHold.filter fun k => !held.contains k }
  held.foldl (fun p k => p.reply (headOf k) 0x0F [] 0x07) p

/-- ELASTIC_FAULT_RESOLVE: Amiah maps the page from the given frames, or refuses it. Where no free frame exists it is
refused (R418). -/
def resolvePage (p : Pkg) (cid page : Nat) (frames : Option (List Nat)) : Pkg :=
  if !p.pageAwaited cid page then p
  else
    match frames with
    | none => (p.refusePage cid page).keepCtx cid
    | some fs =>
      match p.mapPage cid (page * 65536) fs with
      | (p, true) => (p.resumePage cid page).keepCtx cid
      | (p, false) => (p.refusePage cid page).keepCtx cid

/-! ### Invalidation (R150) -/

/-- Does an operation access memory through a translation that it made at issue? -/
def usesTranslation (k : OpKind) : Bool :=
  match k with
  | .regs .. | .tileRead .. | .tileWrite .. | .remote .. | .send .. | .putv _ | .trigger | .publish _ => false
  | .sweep _ | .post .. => false
  | _ => true

/-- Does a location lie in global memory? -/
def inGlobal (l : Loc) : Bool :=
  match l with
  | .hbm _ | .twin .. | .dev _ => true
  | _ => false

/-- Does a context have accesses on their way that hold translations: operations outstanding, or copied bytes or rows of an
ACCST in global memory that no program observes yet? -/
def translationsInUse (p : Pkg) (cid : Nat) : Bool :=
  (p.strands.any fun e => sidCtx e.1 == cid && e.2.ops.any fun o => usesTranslation o.kind)
    || (p.chains.any fun c => c.2.ctx == cid && !c.2.hidden.isEmpty)
    || p.bents.any fun b => b.2.ctx == cid && b.2.hidden.any fun h => inGlobal h.2.1

/-- The rows that ACCSTs of a context hold back from global memory are performed, so that an invalidation need not wait for
their ACCWAIT: R150 has them performed before it completes and R115 has them observed after the ACCWAIT, and for what reads
them between the two the spec has no rule but R127: the model's choice (log entry 99). -/
def landRows (p : Pkg) (cid : Nat) : Pkg :=
  (p.bents.filter fun b => b.2.ctx == cid).foldl (fun p b =>
    let p := p.updBent b.1 fun x => { x with hidden := x.hidden.filter fun h => !inGlobal h.2.1 }
    (b.2.hidden.filter fun h => inGlobal h.2.1).foldl (fun p h => p.writeLoc none false h.2.1 h.2.2) p) p

/-- What waits at a word of a context, a strand in WAITSEQ or a ring at a WAIT packet, walks again: it meets its
instruction or its packet anew. -/
def walkAgain (p : Pkg) (cid : Nat) : Pkg :=
  { p with
    strands := p.strands.mapVals fun sid st =>
      match st.park with
      | some (.waitseq _ _ false) => if sidCtx sid == cid then { st with park := none } else st
      | _ => st
    ctxs := p.ctxs.update cid fun c => { c with rings := c.rings.mapVals fun _ r =>
      match r.hold with
      | some (.word _ _ false) => { r with hold := none }
      | _ => r } }

/-- INVALIDATION_COMPLETE: every cached translation that the request names is gone, and every access of the context
that used one of them is performed, or waits and will walk again. Before that, the rows held back are performed. -/
def invalidationComplete (p : Pkg) (req : Nat) : Pkg :=
  match p.invalidations.get? req with
  | none => p
  | some r =>
    if p.translationsInUse r.ctx then p.landRows r.ctx
    else ({ p with invalidations := p.invalidations.erase req }.dropTlb r.ctx r.first r.pages).walkAgain r.ctx

/-! ### Codebook regions (R95, R97) -/

/-- Do two byte ranges meet? -/
def meets (a n b m : Nat) : Bool := a < b + m && b < a + n

/-- The bits of a region register that exist: the reserved ones read 0 whatever is written (R7, R95). -/
def regionMask : BitVec 512 := BitVec.ofNat 512 (2 ^ 460 - 2 ^ 456 + (2 ^ 451 - 2 ^ 128) + (2 ^ 64 - 1))

/-- Is a setting of a region register legal (R95)? The conditions on sizes, overlaps and owners speak of a region's ranges;
whether they bind a setting that leaves the region disabled the spec does not say: here they bind an enabled one alone, the
model's choice (log entry 80). -/
def regionLegal (p : Pkg) (key : Nat) (r : BitVec 512) : Bool :=
  ldField r 63 52 == 0
    && rgCode r % 65536 == 0 && rgAlias r % 65536 == 0 && rgTable r % 32 == 0 && rgScale r % 2 == 0 && rgList r % 32 == 0
    && (!rgEnabled r ||
      (rgSize r != 0 && rgSize r % 65536 == 0 && rgCode r + rgSize r ≤ hbmTop
        && isAliasPa (rgAlias r) && rgAlias r + 4 * rgSize r ≤ 0x8000000000000
        && !meets (rgCode r) (rgSize r) (rgAlias r) (4 * rgSize r)
        && (p.regions.all fun e => e.1 == key || !rgEnabled e.2 ||
              (regionRanges e.2).all fun x => (regionRanges r).all fun y => !meets x.1 x.2 y.1 y.2)
        && (regionRanges r).all fun x => p.ownedRange (rgOwner r) x.1 x.2))

/-- CODEBOOK_REGION_SET: the region's alias lines are written back and dropped, then the register is set. No L1 keeps a
word of the window that was or of the one that is to come. -/
def setRegion (p : Pkg) (die index : Nat) (r : BitVec 512) : Pkg :=
  let key := die * 64 + index
  if 4 ≤ die || 64 ≤ index || !p.regionLegal key r then p
  else
    let p := p.closeRegion key
    { p with regions := p.regions.set key (r &&& regionMask) }.dropWindow r

/-! ### Frames (R110, R156) -/

/-- The frames of a save area with a share. -/
def saveFrames (first share : Nat) : List Nat := (List.range (0xA21 + share / 65536)).map (saveFrame first)

/-- Is a frame part of a context's save area, or the frame of its twin table? -/
def frameOfContext (p : Pkg) (f : Nat) : Bool :=
  p.ctxs.any fun c => c.2.twinPa / 65536 == f || (saveFrames (c.2.saveArea / 65536) (crShare c.2.record)).contains f

/-- Is a frame kept for a pinned range of a living launch: as a node on the way to a page, as the frame of a page, or as that
of either side of a twin's (R156)? -/
def framePinned (p : Pkg) (f : Nat) : Bool :=
  p.launches.any fun l => !l.2.ended && (pinnedPages l.2.lease).any fun va =>
    let root := ((p.ctxs.get? l.2.ctx).map fun c => crRoot c.record).getD 0
    ((walkReads p root va).any fun a => a / 65536 == f) ||
      match walkTree p root va with
      | .leaf _ e => (p.dirtyFrames l.2.ctx va e).contains f
      | _ => false

/-- The locations that an outstanding operation of a strand is to access by a translation made at issue. -/
def opLocs (p : Pkg) (sid : Nat) (st : Strand) (k : OpKind) : List Loc :=
  match k with
  | .prefetch _ accs | .lock accs | .unlock accs | .query accs => accs.map (·.loc)
  | .post .. | .remote .. => []
  | k => (opBytes p sid st k).map (·.1)

/-- Is a location in a frame, on either side of a twin? -/
def inFrame (p : Pkg) (f : Nat) (l : Loc) : Bool :=
  (p.sidesOf l).any fun x => match x with | .hbm pa => pa / 65536 == f | _ => false

/-- Does an access on its way hold a translation to a frame: an outstanding operation, copied bytes, or a row of an ACCST? -/
def frameInFlight (p : Pkg) (f : Nat) : Bool :=
  (p.strands.any fun e => e.2.ops.any fun o => (p.opLocs e.1 e.2 o.kind).any (p.inFrame f))
    || (p.chains.any fun c => c.2.hidden.any fun h => p.inFrame f h.2.2.1)
    || p.bents.any fun b => b.2.hidden.any fun h => p.inFrame f h.2.1

/-- FRAME_RECLAIM: the frame's lines are unpinned, so their owners' counts fall, and the frame is free. Amiah reclaims none to
which an access is on its way, so that no later owner of the frame meets it (R412, R416): the model's reading (log entry 111). -/
def reclaimFrame (p : Pkg) (f : Nat) : Pkg :=
  if p.framePinned f || p.frameOfContext f || p.frameInFlight f then p
  else { p with pinned := p.pinned.filter fun e => e.1 / 512 != f, frameKeys := p.frameKeys.erase f }.closeUnowned

end Pkg

/-! ### The meanings -/

/-- PAGE_WALK (R138). -/
def execPageWalk (ctx va : Nat) (forWrite : Bool) : State → Host.Outcome State Fault Refusal :=
  execPkg fun p => p.pageWalk ctx va forWrite

/-- ELASTIC_FAULT_RESOLVE (R157). -/
def execElasticFaultResolve (ctx page : Nat) (frames : Option (List Nat)) : State → Host.Outcome State Fault Refusal :=
  execPkg fun p => p.resolvePage ctx page frames

/-- INVALIDATION_COMPLETE (R150). -/
def execInvalidationComplete (req : Nat) : State → Host.Outcome State Fault Refusal :=
  execPkg fun p => p.invalidationComplete req

/-- CODEBOOK_REGION_SET (R95). -/
def execCodebookRegionSet (die index : Nat) (value : BitVec 512) : State → Host.Outcome State Fault Refusal :=
  execPkg fun p => p.setRegion die index value

/-- FRAME_RECLAIM (R110). -/
def execFrameReclaim (frame : Nat) : State → Host.Outcome State Fault Refusal := execPkg fun p => p.reclaimFrame frame

end Sys2Proof.Machine
end

