-- ==== Sys2Proof/Machine/Rings.lean ====
section
/-!
DEFINITION. Launch rings and their packets (R362 to R368, R155, R391), served by Amiah.
-/
namespace Sys2Proof.Machine

/-- The ring count of a packet's first byte is its head; its bytes lie at base + (count mod size) (R362). -/
def ringSize (d : Nat) : Nat := 2 ^ rdLog d
def ringAddr (d n : Nat) : Nat := rdBase d + n % ringSize d

/-- The position of the lowest set bit of a number within [lo, hi]. -/
def lowestBit (x lo hi : Nat) : Nat := ((List.range (hi + 1 - lo)).map (lo + ·)).find? (bit x ·) |>.getD lo

/-- Why a ring descriptor at a table position fails its check: byte offset of the field, value found and legal value
(R362, R366). -/
def ringDescFault (d r : Nat) : Option (Nat × Nat × Nat) :=
  if bits d 511 203 != 0 then some (lowestBit d 203 511 / 8, bits d 511 203, 0)
  else if bits d 199 197 != 0 then some (24, bits d 199 197, 0)
  else if rdCollective d != (16 ≤ r : Bool) then some (25, bits d 200 200, if 16 ≤ r then 1 else 0)
  else if rdLog d < 12 then some (24, rdLog d, 12)
  else if 30 < rdLog d then some (24, rdLog d, 30)
  else if rdBase d % ringSize d != 0 then some (0, rdBase d, 0)
  else none

/-! ### Packet headers (R365) -/

def phType (h : Nat) : Nat := bits h 7 0
def phFlags (h : Nat) : Nat := bits h 9 8
def phLength (h : Nat) : Nat := bits h 31 16
def phPages (h : Nat) : Nat := bits h 42 32
def phAddr (h : Nat) : Nat := bits h 127 64

/-- What stops a ring at a packet: kind, field, bound and value (R366). -/
structure RingFault where
  kind : Nat
  field : Nat
  bound : Nat
  value : Nat
  deriving DecidableEq, Repr

/-- The legal length of a packet type, in units; none where every length is legal. `n` is the range count of a LEASE. -/
def legalLength (type n : Nat) : Option Nat :=
  match type with
  | 1 => some 5 | 2 => some 2 | 3 => some 2 | 4 => some 1 | 5 => some (2 + n) | _ => none

/-- Faults of kinds 1 and 2: those of a packet's length. -/
def lengthFault (d head h : Nat) : Option RingFault :=
  let size := ringSize d
  let len := phLength h
  if len == 0 || size < 16 * len then some ⟨2, 2, size, len⟩
  else if size < head % size + 16 * len then some ⟨1, 2, size, head % size + 16 * len⟩
  else none

/-- Faults of kind 4, found in a packet's header; `n` is the range count of a LEASE. -/
def headerFault (h n : Nat) : Option RingFault :=
  let len := phLength h
  let fence := phType h == 4
  if phType h == 0 || 6 < phType h then some ⟨4, 0, 0, phType h⟩
  else if bits h 15 10 != 0 then some ⟨4, 1, 0, bits h 15 10⟩
  else if bits h 63 43 != 0 then some ⟨4, lowestBit h 43 63 / 8, 0, bits h 63 43⟩
  else if !fence && phFlags h != 0 then some ⟨4, 1, 0, phFlags h⟩
  else if !(fence && bit h 9) && phPages h != 0 then some ⟨4, 4, 0, phPages h⟩
  else if 1024 < phPages h then some ⟨4, 4, 1024, phPages h⟩
  else if !(fence && bit h 9) && phAddr h != 0 then some ⟨4, 8, 0, phAddr h⟩
  else
    match legalLength (phType h) n with
    | some k =>
      if len == k || (phType h == 5 && 1 < len && (n == 0 || 64 < n)) then none else some ⟨4, 2, k, len⟩
    | none => none

/-! ### Lease records (R155) -/

/-- The range of a 16-byte lease range entry. -/
def leaseEntry (e : Nat) : LeaseRange := ⟨bits e 54 16, bits e 95 64, bit e 96⟩

/-- Does an entry of a lease record break its layout? -/
def badLeaseEntry (e : Nat) : Bool := bits e 127 97 != 0 || bits e 63 55 != 0 || bits e 15 0 != 0 || bits e 95 64 == 0

def rangesOverlap (x y : LeaseRange) : Bool := x.base < y.base + y.pages && y.base < x.base + x.pages

/-- Why a lease record is rejected: the index of the range entry, 0x80 for the header, and the value found. -/
def leaseFault (header : Nat) (entries : List Nat) : Option (Nat × Nat) :=
  if bits header 127 23 != 0 || bits header 22 16 == 0 || 64 < bits header 22 16 then some (0x80, header % 2 ^ 64)
  else
    (entries.zipIdx.find? fun e => badLeaseEntry e.1
        || (entries.take e.2).any fun x => rangesOverlap (leaseEntry x) (leaseEntry e.1)).map
      fun e => (e.2, e.1 % 2 ^ 64)

namespace Pkg

def ringOf (p : Pkg) (cid r : Nat) : Ring := ((p.ctxs.get? cid).map fun c => c.rings.get r {}).getD {}
def updRing (p : Pkg) (cid r : Nat) (f : Ring → Ring) : Pkg :=
  p.updCtx cid fun c => { c with rings := c.rings.set r (f (c.rings.get r {})) }

/-- The cause code with which Amiah's read of an address fails (R366). -/
def amiahCause (p : Pkg) (cid va : Nat) : Nat :=
  if va % 64 != 0 then 0x05
  else
    match (p.translateIn (p.enginePort cid) cid false va needRead).2 with
    | .keyAlias .. => 0x08
    | .ok _ => 0xFC
    | _ => 0x07

/-- Set the stopped bit of a ring descriptor. -/
def stopRing (p : Pkg) (cid r d : Nat) : Pkg :=
  match p.ctxs.get? cid with
  | some c => (p.amiahWrite cid (crRingTable c.record + 64 * r + 25) [BitVec.ofNat 8 (bits d 207 200) ||| 2]).1
  | none => p

/-- Amiah stops a ring at the packet at its head, which holds the ring no more (R366). -/
def ringFault (p : Pkg) (cid r d : Nat) (f : RingFault) : Pkg :=
  ((p.stopRing cid r d).updRing cid r fun x => { x with hold := none }).reportFault cid f.kind r f.field (rdHead d) f.bound f.value

/-- The head of a ring moves past a packet of `n` units, as a release write. -/
def advanceHead (p : Pkg) (cid r d n : Nat) : Pkg :=
  match p.ctxs.get? cid with
  | some c => (p.amiahWrite cid (crRingTable c.record + 64 * r + 8) (leBytes 8 (rdHead d + 16 * n))).1
  | none => p

/-- Bytes of a ring from a count on, read through its capability. -/
def ringBytes (p : Pkg) (cid d n len : Nat) : Pkg × Option (List Byte) := p.amiahRead cid (ringAddr d n) len

/-- A ring's descriptor where Amiah serves the ring now. -/
def servedRing (p : Pkg) (cid r : Nat) : Pkg × Option Nat :=
  if !p.served cid || 16 ≤ r then (p, none)
  else
    match p.ringDesc cid r with
    | (p, some d) =>
      (p, if rdEnable d && !rdStopped d && (p.ringOf cid r).checked && rdHead d < (p.ringOf cid r).tail then some d else none)
    | (p, none) => (p, none)

/-- The header of the packet at a ring's head, once the acquired tail lies at or beyond its end; it is read through the ring's
capability, which ends at base + size. A packet whose first 16 bytes pass that end straddles the wrap whatever its length: kind 1
stops the ring without a read of it, with the least end that the packet can have as the value found: the model's choice (log
entry 91). -/
def headHeader (p : Pkg) (cid r d : Nat) : Pkg × Option Nat :=
  let size := ringSize d
  if (p.ringOf cid r).tail < rdHead d + 16 then (p, none)
  else if size < rdHead d % size + 16 then (p.ringFault cid r d ⟨1, 2, size, rdHead d % size + 16⟩, none)
  else
    match p.ringBytes cid d (rdHead d) 16 with
    | (p, none) => (p, none)
    | (p, some hb) => (p, some (leNat hb))

/-- The packet at the head of a ring, once the acquired tail lies at or beyond its end: descriptor, header and body. A
faulty header stops the ring; a faulty length does so as soon as the header can be read. -/
def headPacket (p : Pkg) (cid r : Nat) : Pkg × Option (Nat × Nat × List Byte) :=
  if (p.ringOf cid r).hold.isSome then (p, none)
  else
    match p.servedRing cid r with
    | (p, none) => (p, none)
    | (p, some d) =>
      match p.headHeader cid r d with
      | (p, none) => (p, none)
      | (p, some h) =>
        match lengthFault d (rdHead d) h with
        | some f => (p.ringFault cid r d f, none)
        | none =>
          if (p.ringOf cid r).tail < rdHead d + 16 * phLength h then (p, none)
          else
            match p.ringBytes cid d (rdHead d + 16) (16 * (phLength h - 1)) with
            | (p, none) => (p, none)
            | (p, some body) =>
              match headerFault h (bits (leNat (body.take 16)) 22 16) with
              | some f => (p.ringFault cid r d f, none)
              | none => (p, some (d, h, body))

/-- Do something with the packet at the head of a ring, if it is of a type. -/
def onPacket (p : Pkg) (cid r type : Nat) (f : Pkg → Nat → Nat → List Byte → Pkg) : Pkg :=
  match p.headPacket cid r with
  | (p, some (d, h, body)) => if phType h == type then f p d h body else p
  | (p, none) => p

/-! ### Polling (R362, R363) -/

/-- Amiah acquires the tail of a ring: kind 3 stops it. -/
def pollTail (p : Pkg) (cid r d : Nat) : Pkg :=
  let size := ringSize d
  if rdTail d < rdHead d || size < rdTail d - rdHead d || rdTail d % 16 != 0 then
    p.ringFault cid r d ⟨3, 0xFF, size, rdTail d⟩
  else (p.updRing cid r fun x => { x with tail := rdTail d }).headPacket cid r |>.1

/-- AMIAH_RING_POLL: the descriptor at a position of the ring table, checked when its enable has risen, and the tail of
a launch ring. -/
def ringPoll (p : Pkg) (cid r : Nat) : Pkg :=
  if !p.served cid || 80 ≤ r then p
  else
    let va := ((p.ctxs.get? cid).map fun c => crRingTable c.record + 64 * r).getD 0
    match p.ringDesc cid r with
    | (p, none) =>
      if (p.ringOf cid r).unreadable then p
      else (p.updRing cid r fun x => { x with unreadable := true }).reportFault cid 12 0xFF 0xFF p.time (p.amiahCause cid va) va
    | (p, some d) =>
      let p := p.updRing cid r fun x => { x with unreadable := false }
      if !rdEnable d then p.updRing cid r fun x => { x with checked := false, tail := 0, hold := none }
      else if rdStopped d then p
      else if (p.ringOf cid r).checked then (if r < 16 then p.pollTail cid r d else p)
      else
        match ringDescFault d r with
        | some (field, value, legal) => (p.stopRing cid r d).reportFault cid 13 r field p.time legal value
        | none =>
          let p := p.updRing cid r fun x => { x with checked := true }
          if r < 16 then p.pollTail cid r d else p

/-! ### LAUNCH (R38, R365, R369, R391) -/

/-- The local clusters of a partition in the order in which a footprint takes them. -/
def rankClusters (p : Pkg) (vf : Nat) : List Nat :=
  let insert (x : Nat) (l : List Nat) : List Nat :=
    l.takeWhile (fun y => Config.footprintRank p.fresh (18 * vf + y) ≤ Config.footprintRank p.fresh (18 * vf + x)) ++ [x]
      ++ l.dropWhile (fun y => Config.footprintRank p.fresh (18 * vf + y) ≤ Config.footprintRank p.fresh (18 * vf + x))
  (List.range 18).foldl (fun l x => insert x l) []

/-- The gang of a context: the yard port and the context of each valid rank (R330). -/
def gangOf (p : Pkg) (cid : Nat) : List (Nat × Nat) :=
  ((List.range 512).filterMap (p.gangEntry cid)).map fun e => (e.1, e.2.1)

/-- The request for an out-of-turn launch of a context of a partition whose clusters are all in use (R391). -/
def requestUrgent (p : Pkg) (cid vf size : Nat) : Pkg :=
  let mask := ((p.rankClusters vf).take size).foldl (fun m c => m + 2 ^ c) 0
  let gang := match (p.vfs.get vf {}).resident with
    | some v => p.gangOf v
    | none => []
  (p.updVf vf fun v => { v with request := some false }).say (.urgent ⟨p.yardPort, p.time, vf, cid, BitVec.ofNat 18 mask, gang⟩)

/-- Does an accepted seed need an out-of-turn start (R391): its footprint size and run limit, if it does? -/
def needsUrgent (p : Pkg) (cid : Nat) (d : BitVec 512) : Option (Nat × Nat) :=
  let vf := p.vfOf cid
  let resident := (p.vfs.get vf {}).resident
  let idle := (clustersOf vf).any fun k => (p.clusters.get k {}).occupant.isNone
  if ldPriority d == 255 && resident.isSome && resident != some cid && !idle then
    (Config.latencyCritical p.fresh vf cid).map fun e => (1 + e.1 % 18, e.2 % 1000001)
  else none

/-- An invalid launch descriptor completes at once with BAD_DESCRIPTOR (R30). -/
def badSeed (p : Pkg) (cid : Nat) (seq : Nat) (d : BitVec 512) : Pkg :=
  let lease := ((p.ctxs.get? cid).bind fun c => c.leases.get? (ldLease d)).getD (p.allLeases cid)
  let t : Tree := { ctx := cid, seedSeq := BitVec.ofNat 64 seq, counter := 0, status := some 2,
                    record := BitVec.ofNat 64 (ldRecord d), args := BitVec.ofNat 64 (ldArgs d), lease := lease }
  match p.writeRecord t with
  | (p, true) => p
  | (p, false) => p.reportFault cid 14 0xFF 0xFF seq 2 (ldRecord d)

/-- Accept a seed launch: a new tree with its counter at 1 (R39). -/
def acceptSeed (p : Pkg) (cid r seq : Nat) (d : BitVec 512) : Pkg :=
  let lease := ((p.ctxs.get? cid).map fun c => c.leases.get (ldLease d) []).getD []
  let urgent := p.needsUrgent cid d
  let (k, p) := p.takeId
  let t : Tree := { ctx := cid, seedSeq := BitVec.ofNat 64 seq, counter := 1, record := BitVec.ofNat 64 (ldRecord d),
                    args := BitVec.ofNat 64 (ldArgs d), lease := lease, urgent := urgent.map (·.2) }
  let p := { p with trees := p.trees.set k t }
  let p := (p.acceptLaunch cid k d).updRing cid r fun x => { x with trees := x.trees ++ [k] }
  match urgent with
  | some e => p.requestUrgent cid (p.vfOf cid) e.1
  | none => p

/-- LAUNCH_PACKET. -/
def launchPacket (p : Pkg) (cid r : Nat) : Pkg :=
  p.onPacket cid r 1 fun p d h body =>
    let desc := BitVec.ofNat 512 (leNat body)
    let seq := r * 2 ^ 56 + rdHead d % 2 ^ 56
    let good := ((p.ctxs.get? cid).map fun c => descValid desc c.leases).getD false && ldItems desc ≤ 96
    (if good then p.acceptSeed cid r seq desc else p.badSeed cid seq desc).advanceHead cid r d (phLength h)

/-! ### WAIT, WRITE, FENCE, LEASE and PAD (R365, R368) -/

/-- The location that a WAIT or WRITE packet names; none where kind 6 stops the ring. -/
def packetLoc (p : Pkg) (cid va : Nat) (n : Need) : Pkg × Option Loc :=
  if va % 8 != 0 then (p, none)
  else
    match p.translate (p.enginePort cid) cid (p.allLeases cid) va n with
    | (p, .ok l) => (p, some l)
    | (p, _) => (p, none)

/-- RING_WAIT_PACKET. -/
def waitPacket (p : Pkg) (cid r : Nat) : Pkg :=
  p.onPacket cid r 2 fun p d h body =>
    let va := leNat (body.take 8)
    let value := leNat (body.drop 8)
    match p.packetLoc cid va needRead with
    | (p, none) => p.ringFault cid r d ⟨6, 16, 0, va⟩
    | (p, some l) =>
      let (p, b) := p.readHome l 8
      if value ≤ leNat b then p.advanceHead cid r d (phLength h)
      else p.updRing cid r fun x => { x with hold := some (.word l (BitVec.ofNat 64 value) false) }

/-- Where Amiah serves a held ring and can read its packet's header: what the packet still does is done, and the ring goes on
behind it. -/
def finishPacket (p : Pkg) (cid r : Nat) (effect : Pkg → Pkg) : Pkg :=
  match p.servedRing cid r with
  | (p, none) => p
  | (p, some d) =>
    match p.ringBytes cid d (rdHead d) 16 with
    | (p, some h) => ((effect p).updRing cid r fun x => { x with hold := none }).advanceHead cid r d (phLength (leNat h))
    | (p, none) => p

/-- A held ring goes on behind its packet. -/
def releaseRing (p : Pkg) (cid r : Nat) : Pkg := p.finishPacket cid r id

/-- RING_WAIT_SATISFIED. -/
def waitSatisfied (p : Pkg) (cid r : Nat) : Pkg :=
  match (p.ringOf cid r).hold with
  | some (.word l t met) =>
    let (q, b) := p.readHome l 8
    if met || t.toNat ≤ leNat b then q.releaseRing cid r else p
  | _ => p

/-- RING_WRITE_PACKET. -/
def writePacket (p : Pkg) (cid r : Nat) : Pkg :=
  p.onPacket cid r 3 fun p d h body =>
    let va := leNat (body.take 8)
    match p.packetLoc cid va needWrite with
    | (p, none) => p.ringFault cid r d ⟨6, 16, 0, va⟩
    | (p, some l) => (p.writeLoc none false l (body.drop 8)).advanceHead cid r d (phLength h)

/-- FENCE_PACKET. -/
def fencePacket (p : Pkg) (cid r : Nat) : Pkg :=
  p.onPacket cid r 4 fun p d h _ =>
    if phFlags h == 0 then p.advanceHead cid r d (phLength h)
    else
      let trees := if bit h 8 then (p.ringOf cid r).trees else []
      if bit h 9 then
        let (n, p) := p.takeId
        let request : Invalidation := ⟨cid, bits (phAddr h) 54 16, phPages h⟩
        { p with invalidations := p.invalidations.set n request }.updRing cid r fun x =>
          { x with hold := some (.fence trees (some n)) }
      else p.updRing cid r fun x => { x with hold := some (.fence trees none) }

/-- FENCE_PACKET_DONE. -/
def fenceDone (p : Pkg) (cid r : Nat) : Pkg :=
  match (p.ringOf cid r).hold with
  | some (.fence trees inval) =>
    if trees.any (fun k => (p.trees.get? k).isSome) || inval.any fun n => (p.invalidations.get? n).isSome then p
    else p.releaseRing cid r
  | _ => p

/-- Does a living tree of a context use a lease (R368)? -/
def leaseUsed (p : Pkg) (cid id : Nat) : Bool :=
  p.launches.any fun l => l.2.ctx == cid && l.2.leaseId == id && (p.trees.get? l.2.tree).isSome

def setLease (p : Pkg) (cid id : Nat) (l : List LeaseRange) : Pkg :=
  p.updCtx cid fun c => { c with leases := c.leases.set id l }

/-- The 16-byte units of a byte list, as numbers. -/
def units16 : Nat → List Byte → List Nat
  | 0, _ => []
  | n + 1, b => leNat (b.take 16) :: units16 n (b.drop 16)

/-- LEASE_PACKET. -/
def leasePacket (p : Pkg) (cid r : Nat) : Pkg :=
  p.onPacket cid r 5 fun p d h body =>
    let units := units16 (phLength h - 1) body
    let header := units.headD 0
    let entries := units.drop 1
    match leaseFault header entries with
    | some (field, value) => p.ringFault cid r d ⟨5, field, 155, value⟩
    | none =>
      let id := bits header 15 0
      let ranges := entries.map leaseEntry
      if p.leaseUsed cid id then p.updRing cid r fun x => { x with hold := some (.lease id ranges) }
      else (p.setLease cid id ranges).advanceHead cid r d (phLength h)

/-- LEASE_REPLACE: the lease takes effect as Amiah completes its packet. -/
def leaseReplace (p : Pkg) (cid r : Nat) : Pkg :=
  match (p.ringOf cid r).hold with
  | some (.lease id ranges) => if p.leaseUsed cid id then p else p.finishPacket cid r fun p => p.setLease cid id ranges
  | _ => p

/-- PAD_PACKET. -/
def padPacket (p : Pkg) (cid r : Nat) : Pkg := p.onPacket cid r 6 fun p d h _ => p.advanceHead cid r d (phLength h)

end Pkg

/-! ### The meanings -/

/-- AMIAH_RING_POLL (R363). -/
def execAmiahRingPoll (ctx ring : Nat) : State → Host.Outcome State Fault Refusal := execPkg fun p => p.ringPoll ctx ring

/-- LAUNCH_PACKET (R365). -/
def execLaunchPacket (ctx ring : Nat) : State → Host.Outcome State Fault Refusal := execPkg fun p => p.launchPacket ctx ring

/-- RING_WAIT_PACKET (R365). -/
def execRingWaitPacket (ctx ring : Nat) : State → Host.Outcome State Fault Refusal := execPkg fun p => p.waitPacket ctx ring

/-- RING_WAIT_SATISFIED (R365). -/
def execRingWaitSatisfied (ctx ring : Nat) : State → Host.Outcome State Fault Refusal :=
  execPkg fun p => p.waitSatisfied ctx ring

/-- RING_WRITE_PACKET (R365). -/
def execRingWritePacket (ctx ring : Nat) : State → Host.Outcome State Fault Refusal := execPkg fun p => p.writePacket ctx ring

/-- FENCE_PACKET (R365). -/
def execFencePacket (ctx ring : Nat) : State → Host.Outcome State Fault Refusal := execPkg fun p => p.fencePacket ctx ring

/-- FENCE_PACKET_DONE (R365). -/
def execFencePacketDone (ctx ring : Nat) : State → Host.Outcome State Fault Refusal := execPkg fun p => p.fenceDone ctx ring

/-- LEASE_PACKET (R155, R365). -/
def execLeasePacket (ctx ring : Nat) : State → Host.Outcome State Fault Refusal := execPkg fun p => p.leasePacket ctx ring

/-- LEASE_REPLACE (R368). -/
def execLeaseReplace (ctx ring : Nat) : State → Host.Outcome State Fault Refusal := execPkg fun p => p.leaseReplace ctx ring

/-- PAD_PACKET (R365). -/
def execPadPacket (ctx ring : Nat) : State → Host.Outcome State Fault Refusal := execPkg fun p => p.padPacket ctx ring

end Sys2Proof.Machine
end

