-- ==== Sys2Proof/Machine/Raise.lean ====
section
/-!
DEFINITION. Halts, saves and restores, the raising table, the three kinds of raising entry, the framer's part, and the
time base (R337, R340, R378 to R395).
-/
namespace Sys2Proof.Machine

/-! ### Raising-table entries (R383) -/

def rtTime (e : BitVec 256) : Nat := bits e.toNat 63 0
/-- Does an entry affect a virtual function? -/
def rtNames (e : BitVec 256) (v : Nat) : Bool := bit (bits e.toNat 71 64) v
def rtContext (e : BitVec 256) (v : Nat) : Nat := bits e.toNat (7 * v + 78) (7 * v + 72)
def rtGeneration (e : BitVec 256) (v : Nat) : Nat := bits e.toNat (8 * v + 135) (8 * v + 128)
def rtFootprint (e : BitVec 256) : Nat := bits e.toNat 209 192
def rtKind (e : BitVec 256) : Nat := bits e.toNat 211 210
def rtSequence (e : BitVec 256) : Nat := bits e.toNat 223 216

/-- The bits of an entry that exist: the reserved ones read 0 (R7, R383). -/
def rtMask : BitVec 256 := BitVec.ofNat 256 (2 ^ 224 - 2 ^ 216 + (2 ^ 212 - 1))

/-- The virtual functions that an entry affects. -/
def rtFunctions (e : BitVec 256) : List Nat := (List.range 8).filter (rtNames e)

/-- An entry for one virtual function: the other contexts are idle (R383). -/
def rtEntry (time vf ctx gen footprint kind seq : Nat) : BitVec 256 :=
  let contexts := (List.range 8).foldl (fun n v => n + (if v == vf then ctx % 128 else 127) * 2 ^ (72 + 7 * v)) 0
  BitVec.ofNat 256 (time % 2 ^ 64 + 2 ^ (64 + vf) + contexts + (gen % 256) * 2 ^ (128 + 8 * vf)
    + (footprint % 2 ^ 18) * 2 ^ 192 + (kind % 4) * 2 ^ 210 + (seq % 256) * 2 ^ 216)

namespace Pkg

/-! ### The halt (R267, R278, R296, R307, R317, R359, R384) -/

/-- Does a halt wait for an operation, unless it cannot complete: neither a sweep, nor a remote operation, nor a transfer? -/
def endsAtHalt (k : OpKind) : Bool :=
  match k with
  | .sweep _ | .remote .. | .send .. | .putv _ | .trigger => false
  | _ => true

/-- A strand stops at its instruction boundary; its issued operations complete, oldest first. -/
def haltStrand (p : Pkg) (sid : Nat) : Pkg :=
  let ops := ((p.strand? sid).map (·.ops)).getD []
  (ops.filter fun o => endsAtHalt o.kind).foldl (fun p o => p.completeOp sid o) p

/-- An operation in its place among operations in the order of their numbers. -/
def insertOp (x : Nat × Op) : List (Nat × Op) → List (Nat × Op)
  | [] => [x]
  | y :: rest => if x.2.id < y.2.id then x :: y :: rest else y :: insertOp x rest

/-- The strands of a context on a cluster. -/
def strandsOn (p : Pkg) (cid cluster : Nat) : List Nat := (p.strandsAt cid cluster).keys

/-- The strands of a cluster stop at an instruction boundary; the operations that they have issued complete, in the order in
which they were issued (R245). -/
def haltStrands (p : Pkg) (sids : List Nat) : Pkg :=
  let ops := sids.flatMap fun sid => (((p.strand? sid).map (·.ops)).getD []).map fun o => (sid, o)
  ((ops.filter fun x => endsAtHalt x.2.kind).foldl (fun l x => insertOp x l) []).foldl (fun p x => p.completeOp x.1 x.2) p

/-- A cluster halts in place: its context's strands and its matrix engine stop. -/
def haltCluster (p : Pkg) (cluster : Nat) : Pkg :=
  let c := p.clusters.get cluster {}
  match c.occupant with
  | none => p
  | some cid =>
    if c.halted then p
    else
      let p := p.haltStrands (p.strandsOn cid cluster)
      let bents := (p.bents.filter fun b => b.2.ctx == cid && b.2.cluster == cluster).map (·.1)
      let p := bents.foldl matHalt p
      { p with cur := match p.cur with
        | some s => if sidCluster s == cluster then none else some s
        | none => none }

/-! ### The save (R387 to R390) -/

/-- A cluster is halted and its context's state saved; it holds nothing now, and its restore may be due. An energy park is
not saved (R404). -/
def saveCluster (p : Pkg) (restore : Bool) (cluster : Nat) : Pkg :=
  let p := p.haltCluster cluster
  let p := match (p.clusters.get cluster {}).occupant with
    | none => p
    | some cid =>
      let stop (st : Strand) : Strand :=
        { st with executing := false, words := [], park := if st.park == some Park.energy then none else st.park }
      let p := (p.strandsOn cid cluster).foldl (fun (p : Pkg) sid => p.updStrand sid stop) p
      p.updCtx cid fun c => { c with saved := c.saved ||| BitVec.ofNat 18 (2 ^ (cluster % 18)) }
  p.updCluster cluster fun _ => { restore := restore }

/-- The local clusters of a mask. -/
def maskClusters (vf mask : Nat) : List Nat := ((List.range 18).filter fun l => bit mask l).map (18 * vf + ·)

/-- The bytes of a context header up to its reserved part (R390). -/
def contextHeader (p : Pkg) (cid written : Nat) (c : Ctx) : List Byte :=
  leBytes 4 1 ++ leBytes 1 (p.vfs.get c.vf {}).gen ++ leBytes 1 cid ++ leBytes 2 c.vf ++ leBytes 8 p.time
    ++ leBytes 8 c.saved.toNat ++ leBytes 4 (overdraft c) ++ leBytes 4 c.parks ++ leBytes 8 written
    ++ leBytes 8 (crShare c.record)

/-- Write a context's header to its save area. -/
def writeHeader (p : Pkg) (cid written : Nat) : Pkg :=
  match p.ctxs.get? cid with
  | some c => p.writeL2 none c.saveArea (p.contextHeader cid written c)
  | none => p

/-- Halt clusters of a virtual function, and charge what they have metered (R371). -/
def haltAll (p : Pkg) (clusters : List Nat) : Pkg :=
  (clusters.foldl (fun (p : Pkg) k => p.haltCluster k) p).chargeMeters clusters

/-- Halt and save clusters of a virtual function, and write the headers of the contexts that were on them. -/
def saveClusters (p : Pkg) (restore : Bool) (clusters : List Nat) : Pkg :=
  let held := clusters.filterMap fun k => ((p.clusters.get k {}).occupant).map fun cid => (cid, k)
  let p := p.haltAll clusters
  let sizes := held.map fun e => (e.1, p.clusterBytes e.1 e.2)
  let p := held.foldl (fun p e => p.writeSection e.1 e.2) p
  let p := clusters.foldl (fun p k => p.saveCluster restore k) p
  (held.map (·.1)).eraseDups.foldl (fun p cid =>
    p.writeHeader cid (total ((sizes.filter fun e => e.1 == cid).map (·.2)))) p

/-- A virtual function takes a generation at a time; its drain window runs from there (R337, R385). -/
def takeGeneration (p : Pkg) (vf gen t : Nat) : Pkg :=
  p.updVf vf fun v => { v with gen := gen % 256, drainEnd := some (t + v.drainNs) }

/-- A virtual function halts and everything on its clusters is saved; nothing of it is resident. -/
def vacate (p : Pkg) (vf : Nat) (restore : Bool) : Pkg :=
  (p.saveClusters restore (clustersOf vf)).updVf vf fun v => { v with resident := none, incoming := none, raised := true }

/-- Does a context's gang table hold more than one valid rank (R380)? -/
def ganged (p : Pkg) (cid : Nat) : Bool := 1 < (p.gangOf cid).length

/-! ### Acting on entries (R382, R384, R385, R391, R392, R395) -/

/-- The incoming context that an entry names for a function: none for idle, or for one that is not there (R395). -/
def incomingOf (p : Pkg) (vf : Nat) (e : BitVec 256) : Option Nat :=
  match p.ctxs.get? (rtContext e vf) with
  | some c => if rtContext e vf < 64 && c.vf == vf then some (rtContext e vf) else none
  | none => none

/-- Act on an entry for one function, as its kind prescribes, unless the function is stopped or held; acting on it ends every
hold. A stopped function, and one held for a refusal that no accepted entry has ended yet, takes the generation alone (R337,
R382, R395). -/
def actUnlessHeld (p : Pkg) (vf : Nat) (e : BitVec 256) (act : Pkg → Pkg) : Pkg :=
  let v := p.vfs.get vf {}
  if v.stopped || (v.heldRefused && !v.released) then p.takeGeneration vf (rtGeneration e vf) (rtTime e)
  else if v.heldOutOfStep && !p.inStep then p
  else act (p.updVf vf fun v => { v with heldOutOfStep := false, heldRefused := false, released := false, held := none })

/-- A scheduled raising of one function. It closes an open kind-1 entry, acted on or not, unless the function is stopped. -/
def raiseFunction (p : Pkg) (e : BitVec 256) (vf : Nat) : Pkg :=
  let p := p.actUnlessHeld vf e fun p =>
    let p := p.takeGeneration vf (rtGeneration e vf) (rtTime e)
    (p.vacate vf true).updVf vf fun v => { v with incoming := p.incomingOf vf e }
  p.updVf vf fun v => if v.stopped then v else { v with openOut := none, outClosed := v.outClosed || v.openOut.isSome }

/-- The out-of-turn halt of one function: its footprint is saved, its other clusters are held halted in place. The entry is open
from now on, acted on or not. -/
def outHalt (p : Pkg) (e : BitVec 256) (vf : Nat) : Pkg :=
  let mask := rtFootprint e
  let v := p.vfs.get vf {}
  let p := p.actUnlessHeld vf e fun p =>
    let p := p.takeGeneration vf (rtGeneration e vf) (rtTime e)
    let others := (clustersOf vf).filter fun k => !bit mask (k % 18)
    let p := p.saveClusters true (maskClusters vf mask)
    let p := others.foldl (fun p k => p.updCluster k fun c => { c with halted := true, pending := none }) (p.haltAll others)
    p.updVf vf fun v =>
      { v with resident := none, raised := true, incoming := if mask == 0 then none else p.incomingOf vf e }
  p.updVf vf fun x =>
    { x with openOut := some (rtSequence e, (v.resident.or (v.incoming.or v.held)).getD 127, mask, rtTime e) }

/-- A cluster held halted in place is to resume: its start falls due in local-cluster order, without a restore. -/
def resumeHeld (p : Pkg) (cluster : Nat) : Pkg :=
  let c := p.clusters.get cluster {}
  if !c.halted then p
  else if c.occupant.isNone then p.updCluster cluster fun c => { c with halted := false }
  else
    let (n, p) := p.takeId
    p.updCluster cluster fun c => { c with started := false, pending := some n }

/-- A cluster whose section holds the state of a context that comes back, and which nothing occupies, is to be restored. -/
def restoreSaved (p : Pkg) (victim : Option Nat) (cluster : Nat) : Pkg :=
  let saved := (victim.bind p.ctxs.get?).any fun c => c.saved.getLsbD (cluster % 18)
  if saved && (p.clusters.get cluster {}).occupant.isNone then p.updCluster cluster fun c => { c with restore := true } else p

/-- The out-of-turn resume of one function: the urgent context is saved, the victim restored or resumed. Where no kind-1 entry is
open the entry is discarded, but a stopped function takes its generation (R382, R395). -/
def outResume (p : Pkg) (e : BitVec 256) (vf : Nat) : Pkg :=
  match (p.vfs.get vf {}).openOut with
  | none => if (p.vfs.get vf {}).stopped then p.takeGeneration vf (rtGeneration e vf) (rtTime e) else p
  | some (_, _, mask, _) =>
    let p := p.actUnlessHeld vf e fun p =>
      let p := p.takeGeneration vf (rtGeneration e vf) (rtTime e)
      let p := p.saveClusters true (maskClusters vf mask)
      let p := (clustersOf vf).foldl resumeHeld p
      let victim := p.incomingOf vf e
      let p := (clustersOf vf).foldl (fun p k => p.restoreSaved victim k) p
      let p := p.updVf vf fun v => { v with resident := victim, incoming := victim }
      match victim with
      | some cid => p.deliverHeld cid
      | none => p
    p.updVf vf fun v => { v with openOut := none }

/-- An accepted entry of a kind whose time has come, the earliest of the table: it is retired and acted on. -/
def runEntry (p : Pkg) (seq kind : Nat) (act : Pkg → BitVec 256 → Nat → Pkg) : Pkg :=
  match p.raisings.find? fun e => rtSequence e == seq && rtKind e == kind with
  | none => p
  | some e =>
    if p.time < rtTime e || p.raisings.any fun x => rtTime x < rtTime e then p
    else (rtFunctions e).foldl (fun p v => act p e v) { p with raisings := p.raisings.filter (· != e) }

/-! ### The restore (R386) -/

/-- End every tree of a context. -/
def endTrees (p : Pkg) (cid status : Nat) : Pkg :=
  ((p.trees.filter fun t => t.2.ctx == cid).map (·.1)).foldl (fun p k => p.endTree k status) p

/-- An error in an image that is read back is reported, and ends every tree of the context (R415). -/
def endIfBad (p : Pkg) (cid : Nat) (c : Ctx) (bad : Bool) : Pkg :=
  if bad then (p.say (.errorEvent c.saveArea)).endTrees cid 7 else p

/-- Restore the section of a cluster from the save area: the context's strands and bents run there again, and the header says that
the section is valid no more. It is a cluster start. -/
def restoreSection (p : Pkg) (cid cluster : Nat) (c : Ctx) : Pkg :=
  let bad := (p.restoredRanges cid cluster).any fun x => p.areaBad c x.1 x.2
  let p := (p.loadSection cid cluster c).dropActs cid cluster
  let p := p.updCluster cluster fun _ => { occupant := some cid, started := true }
  let p := p.updVf c.vf fun v => { v with lastStart := some p.time }
  let saved := c.saved &&& ~~~BitVec.ofNat 18 (2 ^ (cluster % 18))
  let p := (p.updCtx cid fun c => { c with saved := saved }).writeL2 none (c.saveArea + 16) (leBytes 8 saved.toNat)
  p.endIfBad cid c bad

/-- RAISING_RESTORE: the next cluster of a function in local-cluster order, after the drain window. -/
def restoreCluster (p : Pkg) (cluster : Nat) : Pkg :=
  let vf := clusterVf cluster
  let v := p.vfs.get vf {}
  let x := p.clusters.get cluster {}
  let lower := (clustersOf vf).any fun k =>
    let y := p.clusters.get k {}
    k < cluster && ((y.restore && !y.halted) || (y.halted && y.pending.isSome))
  let draining := match v.drainEnd with | some t => p.time < t | none => false
  if !x.restore || x.halted || lower || draining || v.stopped || v.heldOutOfStep || v.heldRefused then p
  else
    match v.incoming.bind p.ctxs.get?, v.incoming with
    | some c, some cid =>
      let here := c.saved.getLsbD (cluster % 18) && !(p.bentsOn cid cluster).isEmpty
      if here && !p.staggered vf then p
      else
        let p := p.updCluster cluster fun x => { x with restore := false }
        let p := p.updVf vf fun v => { v with resident := some cid }
        let p := if here then p.restoreSection cid cluster c else p
        p.deliverHeld cid
    | _, _ => p.updCluster cluster fun x => { x with restore := false }

/-! ### The framer (R381, R382, R391, R392) -/

/-- A system packet: of no function, with all fields 0 that a request alone gives a meaning (R323). -/
def systemPacket (p : Pkg) (op channel dest : Nat) (payload : List Byte) : Packet :=
  let h : Head :=
    { op := op, channel := channel, vf := 0, dest := dest, source := p.yardPort, gen := 0, flits := flitsOf payload.length,
      counted := false, last := true, tag := 0, bytes := payload.length, target := 0, counter := 0, operand := 0, lease := 0, ctx := 0 }
  { header := h.flit, payload := payload }

/-- The context of a partition: resident, awaiting its restore, or held; with none of these the victim that an open kind-1 entry
holds halted in place. -/
def presentOf (p : Pkg) (vf : Nat) : Option Nat :=
  let v := p.vfs.get vf {}
  let victim : Option Nat := v.openOut.bind fun o => (p.ctxs.get? o.2.1).bind fun c => if c.vf == vf then some o.2.1 else none
  v.resident.or (v.incoming.or (v.held.or victim))

/-- The live host die with the lowest priority and yard port. -/
def liveFramer (p : Pkg) : Option Nat :=
  (leastBy (fun e : Nat × (Nat × Nat) => e.2.1 * 512 + e.1) (p.framers.filter fun e => p.time ≤ e.2.2 + 1000000)).map (·.1)

/-- Is this package's host die the framer, and live? During a changeover nobody is. -/
def isFramer (p : Pkg) : Bool := p.framer == some p.yardPort && p.liveFramer == some p.yardPort

/-- The last entry published for a package. -/
def lastPublished (p : Pkg) (port : Nat) : Option (BitVec 256) :=
  ((p.published.filter fun e => e.1 == port).getLast?).map (·.2)

/-- The sequence number of the next entry for a package. -/
def nextSequence (p : Pkg) (port : Nat) : Nat :=
  match p.lastPublished port with | some e => (rtSequence e + 1) % 256 | none => 0

/-- The generation of the next entry for a function of a package (R337). -/
def nextGeneration (p : Pkg) (port vf : Nat) : Nat :=
  match (p.published.filter fun e => e.1 == port && rtNames e.2 vf).getLast? with
  | some e => (rtGeneration e.2 vf + 1) % 256
  | none => if port == p.yardPort then ((p.vfs.get vf {}).gen + 1) % 256 else 1

/-- The entries of a package that are not retired. -/
def unretired (p : Pkg) (port : Nat) : List (BitVec 256) :=
  (p.published.filter fun e => e.1 == port && p.time ≤ rtTime e.2).map (·.2)

/-- The framer sends an entry to a package, on channel 25. -/
def sendEntry (p : Pkg) (port : Nat) (e : BitVec 256) : Pkg :=
  { p with outbox := p.outbox ++ [p.systemPacket 0x11 25 port (leBytes 32 e.toNat)] }

/-- The framer publishes an entry to a package: never more than 256 outstanding. -/
def publish (p : Pkg) (port : Nat) (e : BitVec 256) : Pkg :=
  if 256 ≤ (p.unretired port).length then p
  else { p with published := p.published ++ [(port, e)] }.sendEntry port e

/-- Does the framer know that a package is out of step (R379)? -/
def knownOutOfStep (p : Pkg) (port : Nat) : Bool := if port == p.yardPort then !p.inStep else p.outOfStep.contains port

/-- Publish one entry for one function to each package of a gang: (port, context, footprint). A package out of step receives no
kind-1 entry (R393). -/
def publishGang (p : Pkg) (time vf kind : Nat) (gang : List (Nat × Nat × Nat)) : Pkg :=
  (gang.filter fun g => kind != 1 || !p.knownOutOfStep g.1).foldl (fun p g =>
    p.publish g.1 (rtEntry time vf g.2.1 (p.nextGeneration g.1 vf) g.2.2 kind (p.nextSequence g.1))) p

/-- What the packages of a gang receive for a request: on the requesting package the footprint and the context, on every other
one the footprint 0 (R391). -/
def requestGang (r : UrgentRequest) : List (Nat × Nat × Nat) :=
  (r.yardPort, r.ctx, r.footprint.toNat) :: (r.gang.filter fun g => g.1 != r.yardPort).map fun g => (g.1, g.2, 0)

/-- OUT_OF_TURN_REQUEST: kind-1 entries for every package of the victim's gang, for T 3 µs after the request's send. -/
def outOfTurnRequest (p : Pkg) (r : UrgentRequest) : Pkg :=
  if p.isFramer then p.publishGang (r.sendTime + 3000) r.vf 1 (requestGang r) else p

/-- The framer publishes the kind-2 entries that end an out-of-turn pre-emption: at least 3 µs ahead, and 3 µs behind the kind-1
entry's time where that lies ahead; how much more is the framer's own choice, a free value (R382, R392, R417, log entry 5). -/
def publishEnd (p : Pkg) (r : UrgentRequest) : Pkg :=
  p.publishGang (max p.time r.sendTime + 3000 + Config.resumeLead p.fresh) r.vf 2 (requestGang r)

/-- The ends of out-of-turn pre-emptions that this host die has been told of go out: as entries where it is the framer, to the
framer where another host die is. During a changeover they wait for the new framer, as a request does (R381, R391). -/
def settleEnds (p : Pkg) : Pkg :=
  if p.isFramer then p.owedEnds.foldl publishEnd { p with owedEnds := [] }
  else if p.framer == some p.yardPort then p
  else p.owedEnds.foldl (fun p r => p.say (.urgentOver r)) { p with owedEnds := [] }

/-- An out-of-turn pre-emption is to end, and the framer, this host die or another one, hears of it. That a package tells it as it
sends a request, on channel 25, is the model's choice (log entry 92). -/
def endUrgent (p : Pkg) (r : UrgentRequest) : Pkg := { p with owedEnds := p.owedEnds ++ [r] }.settleEnds

/-- The out-of-turn pre-emption that this package has requested for a function is to end: the open one; with none open the one of an
accepted kind-1 entry whose time has not come, behind which its end is to lie; and before such an entry is here, once it comes (log
entry 109). One whose footprint is 0 another package has requested. -/
def publishResume (p : Pkg) (vf : Nat) : Pkg :=
  let finish (victim mask time : Nat) : Pkg := p.endUrgent ⟨p.yardPort, time, vf, victim, BitVec.ofNat 18 mask, p.gangOf victim⟩
  match (p.vfs.get vf {}).openOut.filter fun o => o.2.2.1 != 0,
    p.raisings.find? fun e => rtKind e == 1 && rtNames e vf && rtFootprint e != 0 with
  | some (_, victim, mask, _), _ => finish victim mask p.time
  | none, some e => finish ((p.presentOf vf).getD 127) (rtFootprint e) (max p.time (rtTime e))
  | none, none => p.updVf vf fun v => { v with request := v.request.map fun _ => true }

/-- What a tree's completion record calls for once it is written: the kind-2 entry, where the tree was an urgent one. -/
def recordOf (p : Pkg) (k : Nat) (write : Pkg → Nat → Pkg) : Pkg :=
  match p.trees.get? k with
  | none => p
  | some t =>
    let q := write p k
    if t.urgent.isSome && (q.trees.get? k).isNone then q.publishResume (p.vfOf t.ctx) else q

/-- TREE_COMPLETION: the record is written; an urgent tree's end calls for the kind-2 entry. -/
def completeTree (p : Pkg) (k : Nat) : Pkg := p.recordOf k treeCompletion

/-- The record of a tree that a DESTROY has ended is written. -/
def closeUrgent (p : Pkg) (k : Nat) : Pkg := p.recordOf k closeTree

/-- RUN_LIMIT_EXPIRY: an urgent tree has run for its limit since the out-of-turn halt. -/
def runLimitExpiry (p : Pkg) (k : Nat) : Pkg :=
  match p.trees.get? k with
  | none => p
  | some t =>
    match t.urgent, (p.vfs.get (p.vfOf t.ctx) {}).openOut with
    | some limit, some (_, _, _, start) =>
      if p.time < start + limit then p
      else (p.updTree k fun t => { t with urgent := none }).publishResume (p.vfOf t.ctx)
    | _, _ => p

/-- SCHEDULED_RAISING_PUBLISH: a kind-0 entry that the host operating system schedules; its reserved bits are published
as 0. -/
def publishScheduled (p : Pkg) (port : Nat) (e : BitVec 256) : Pkg :=
  if p.isFramer && rtKind e == 0 && rtFootprint e == 0x3FFFF && rtSequence e == p.nextSequence port then
    p.publish port (e &&& rtMask)
  else p

/-- Publish every unretired entry of a package again, unchanged and in order. -/
def republish (p : Pkg) (port : Nat) : Pkg :=
  (p.unretired port).foldl (fun p e => p.sendEntry port e) p

/-- RAISING_REPUBLISH_REQUEST. -/
def republishRequest (p : Pkg) (port : Nat) : Pkg := if p.isFramer then p.republish port else p

/-- FRAMER_ANNOUNCE: this host die announces itself, or another one's announcement is heard. -/
def framerAnnounce (p : Pkg) (priority port : Nat) : Pkg :=
  let own := port == p.yardPort
  let prio := if own then p.framingPriority else priority % 256
  let p := { p with framers := p.framers.set port (prio, p.time) }
  (if own then p.say (.announce prio port) else p).settleEnds

/-- FRAMER_TAKEOVER: the framer is the live host die that comes first. It republishes every entry not yet reached, those of the
framer before it among them; which these are is a free value (log entry 22). -/
def framerTakeover (p : Pkg) (port : Nat) : Pkg :=
  if p.liveFramer != some port || p.framer == some port then p
  else
    let p := { p with framer := some port }
    if port == p.yardPort then
      let former := (Config.formerEntries p.fresh).filter fun e => p.time ≤ rtTime e.2 && !p.published.contains e
      let p := { p with published := p.published ++ former }
      (((p.published.map (·.1)).eraseDups).foldl (fun p q => p.republish q) p).settleEnds
    else p.settleEnds

/-! ### Receiving entries (R380, R382) -/

/-- A partition is held halted: it halts as at a raising, and an open kind-1 entry stays open. Of a stopped function everything
is halted and saved already, and START finds what it is to restore (R373). -/
def holdFunction (p : Pkg) (vf : Nat) (f : Vf → Vf) : Pkg :=
  if (p.vfs.get vf {}).stopped then p.updVf vf f
  else (p.vacate vf true).updVf vf fun v => f { v with held := p.presentOf vf }

/-- The time of the open kind-1 entry of a function: accepted, and not closed. -/
def openTime (p : Pkg) (vf : Nat) : Option Nat :=
  match (p.vfs.get vf {}).openOut with
  | some (_, _, _, t) => some t
  | none => (p.raisings.find? fun x => rtKind x == 1 && rtNames x vf).map rtTime

/-- Is an arriving entry refused? -/
def refusesEntry (p : Pkg) (e : BitVec 256) : Bool :=
  let k := rtKind e
  let lead := if k == 0 then 50000 else 500
  let near (x : BitVec 256) : Bool :=
    rtKind x == 0 && (rtFunctions e).any (rtNames x) && rtTime e ≤ rtTime x + 20000 && rtTime x ≤ rtTime e + 20000
  k == 3 || 256 ≤ p.raisings.length || rtTime e < p.time + lead
    || (k == 0 && p.raisings.any near)
    || (k == 2 && (rtFunctions e).any fun v =>
        match p.openTime v with | some t => rtTime e < t + 3000 | none => true)

/-- The kind-1 entry of a request has come: where the request's tree is over, its end is published. -/
def answerRequest (p : Pkg) (vf : Nat) : Pkg :=
  let q := p.updVf vf fun v => { v with request := none }
  if (p.vfs.get vf {}).request == some true then q.publishResume vf else q

/-- A raising-table entry is accepted, refused, or calls for the entries to be published again. -/
def raisingEntry (p : Pkg) (e : BitVec 256) : Pkg :=
  let vs := rtFunctions e
  let want := (p.lastRaisingSeq + 1) % 256
  if p.raisings.any fun x => rtSequence x == rtSequence e && rtTime x == rtTime e then p
  else if rtSequence e != want then p.say (.republish want)
  else
    let p := { p with lastRaisingSeq := want }
    if rtKind e == 2 && vs.any fun v => (p.vfs.get v {}).outClosed && (p.openTime v).isNone then
      vs.foldl (fun p v => p.updVf v fun v => { v with outClosed := false }) p
    else if p.refusesEntry e then
      vs.foldl (fun p v => p.holdFunction v fun v => { v with heldRefused := true, released := false }) p
    else
      let clear (p : Pkg) (v : Nat) : Pkg :=
        p.updVf v fun v => { v with released := v.heldRefused, outClosed := v.outClosed && rtKind e != 1 }
      let p := vs.foldl clear { p with raisings := p.raisings ++ [e] }
      if rtKind e == 1 && rtFootprint e != 0 then vs.foldl answerRequest p else p

/-- The raising-table entry that a packet carries: its first 32 bytes, the reserved bits read as 0. -/
def raisingOf (k : Packet) : BitVec 256 := BitVec.ofNat 256 (leNat ((payloadOf k).take 32)) &&& rtMask

/-- RAISING_TABLE: an entry arrives on channel 25 (R324, R382). -/
def raisingTable (p : Pkg) (k : Packet) : Pkg :=
  p.arrive k [0x11] fun p h => if h.channel == 25 then p.raisingEntry (raisingOf k) else p

/-! ### The time base (R340, R379, R380) and system messages (R324) -/

/-- PTP_EVENT: a message on channel 25, the only channel that is timestamped, stamped within 4 ns of the time at which it
crosses the port, on its way in or, with this package as its source, on its way out. -/
def ptpEvent (p : Pkg) (port stamp : Nat) (k : Packet) : Pkg :=
  p.arrive k [0x10] fun p h =>
    if 48 ≤ port || h.channel != 25 || stamp + 4 < p.time || p.time + 4 < stamp then p
    else
      { p with ptpStamps := p.ptpStamps ++ [(port, stamp)]
               outbox := if h.source == p.yardPort then p.outbox ++ [k] else p.outbox }

/-- MANAGEMENT_MESSAGE: a packet on channel 24 for Amiah. -/
def managementMessage (p : Pkg) (k : Packet) : Pkg :=
  p.arrive k [0x12] fun p h => if h.channel == 24 then { p with mgmtInbox := p.mgmtInbox ++ [k] } else p

/-- OUT_OF_STEP: the partitions whose resident contexts are ganged halt and are held. One whose context a refusal holds, or awaits
its restore, is held for this cause too. -/
def goOutOfStep (p : Pkg) : Pkg :=
  let p := { p with inStep := false, goodOffsets := 0 }.say (.step false)
  (List.range 8).foldl (fun p vf =>
    match p.presentOf vf with
    | some cid => if p.ganged cid then p.holdFunction vf fun v => { v with heldOutOfStep := true } else p
    | none => p) p

/-- The framer hears that a package is out of step, or back in step (R379). -/
def stepReport (p : Pkg) (port : Nat) (inStep : Bool) : Pkg :=
  { p with outOfStep := (p.outOfStep.filter (· != port)) ++ if inStep then [] else [port] }

/-- Act on an offset in ns that has been measured (R379). -/
def judgeOffset (p : Pkg) (offset : Int) : Pkg :=
  if p.inStep then (if 250 < offset.natAbs then p.goOutOfStep else p)
  else if 100 < offset.natAbs then { p with goodOffsets := 0 }
  else if p.goodOffsets + 1 < 8 then { p with goodOffsets := p.goodOffsets + 1 }
  else { p with inStep := true, goodOffsets := 0 }.say (.step true)

/-- Amiah disciplines the time base by an offset, its distance from the reference: where it is behind, it moves forward by at most
that distance; where it is ahead it never goes back, and the time that passes from here on is free (R22, R340, R379, log entry
54). -/
def discipline (p : Pkg) (offset : Int) : Pkg :=
  if offset < 0 then { p with time := p.time + Config.slew p.fresh % (offset.natAbs + 1) } else p

/-- PTP_MEASUREMENT: Amiah measures an offset from the timestamps that the ports have taken since the last measurement
(R340, R379), and disciplines the time base by it; without a timestamp there is nothing to measure from. The value is that of
IEEE 1588 from the stamps and from the contents of the messages, which the spec does not lay out, so the event brings it (log
entry 75). -/
def ptpMeasurement (p : Pkg) (offset : Int) : Pkg :=
  if p.ptpStamps.isEmpty then p else ({ p with ptpStamps := [] }.judgeOffset offset).discipline offset

/-- Amiah sets a function's drain window: 1 to 16 µs (R337). -/
def setDrain (p : Pkg) (vf ns : Nat) : Pkg :=
  if 8 ≤ vf || ns < 1000 || 16000 < ns then p else p.updVf vf fun v => { v with drainNs := ns }

/-- DRAIN_WINDOW_END: open packets of a transfer under the previous generation are stale from here on, and so is a strand's
request that was sent back, since nothing from before the raising is sent again (R337, R338, R359). -/
def drainWindowEnd (p : Pkg) (vf : Nat) : Pkg :=
  let v := p.vfs.get vf {}
  match v.drainEnd with
  | none => p
  | some t =>
    if p.time < t then p
    else
      let old := p.sent.filter fun s =>
        (s.entry.isSome || s.resend) && (headOf s.packet).vf == vf && (headOf s.packet).gen % 256 != v.gen % 256
      old.foldl (fun p s => p.failSent s 0xFE) (p.updVf vf fun v => { v with drainEnd := none })

end Pkg

/-! ### The meanings -/

/-- TREE_COMPLETION (R370). -/
def execTreeCompletion (tree : Nat) : State → Host.Outcome State Fault Refusal := execPkg fun p => p.completeTree tree

/-- RAISING_TABLE (R382). -/
def execRaisingTable (k : Packet) : State → Host.Outcome State Fault Refusal := execPkg fun p => p.raisingTable k

/-- RAISING_HALT (R384). -/
def execRaisingHalt (seq : Nat) : State → Host.Outcome State Fault Refusal := execPkg fun p => p.runEntry seq 0 Pkg.raiseFunction

/-- OUT_OF_TURN_HALT (R391). -/
def execOutOfTurnHalt (seq : Nat) : State → Host.Outcome State Fault Refusal := execPkg fun p => p.runEntry seq 1 Pkg.outHalt

/-- OUT_OF_TURN_RESUME (R392). -/
def execOutOfTurnResume (seq : Nat) : State → Host.Outcome State Fault Refusal := execPkg fun p => p.runEntry seq 2 Pkg.outResume

/-- RAISING_RESTORE (R386). -/
def execRaisingRestore (cluster : Nat) : State → Host.Outcome State Fault Refusal := execPkg fun p => p.restoreCluster cluster

/-- DRAIN_WINDOW_END (R337). -/
def execDrainWindowEnd (vf : Nat) : State → Host.Outcome State Fault Refusal := execPkg fun p => p.drainWindowEnd vf

/-- RUN_LIMIT_EXPIRY (R392). -/
def execRunLimitExpiry (tree : Nat) : State → Host.Outcome State Fault Refusal := execPkg fun p => p.runLimitExpiry tree

/-- FRAMER_ANNOUNCE (R381). -/
def execFramerAnnounce (priority yardPort : Nat) : State → Host.Outcome State Fault Refusal :=
  execPkg fun p => p.framerAnnounce priority yardPort

/-- FRAMER_TAKEOVER (R381). -/
def execFramerTakeover (yardPort : Nat) : State → Host.Outcome State Fault Refusal := execPkg fun p => p.framerTakeover yardPort

/-- RAISING_REPUBLISH_REQUEST (R382). -/
def execRaisingRepublishRequest (yardPort : Nat) : State → Host.Outcome State Fault Refusal :=
  execPkg fun p => p.republishRequest yardPort

/-- OUT_OF_TURN_REQUEST (R391). -/
def execOutOfTurnRequest (r : UrgentRequest) : State → Host.Outcome State Fault Refusal := execPkg fun p => p.outOfTurnRequest r

/-- SCHEDULED_RAISING_PUBLISH (R382). -/
def execScheduledRaisingPublish (yardPort : Nat) (e : BitVec 256) : State → Host.Outcome State Fault Refusal :=
  execPkg fun p => p.publishScheduled yardPort e

/-- PTP_EVENT (R340). -/
def execPtpEvent (port stamp : Nat) (msg : Packet) : State → Host.Outcome State Fault Refusal :=
  execPkg fun p => p.ptpEvent port stamp msg

/-- PTP_MEASUREMENT (R379). -/
def execPtpMeasurement (offset : Int) : State → Host.Outcome State Fault Refusal := execPkg fun p => p.ptpMeasurement offset

/-- MANAGEMENT_MESSAGE (R324). -/
def execManagementMessage (k : Packet) : State → Host.Outcome State Fault Refusal := execPkg fun p => p.managementMessage k

end Sys2Proof.Machine
end

