-- ==== Sys2Proof/Machine/Shake.lean ====
section
/-!
DEFINITION. SHAKE256, the hash of images, measurements and reports (R409, R411, R419). The spec names it and does not
define it: PRESUMED, the function of that name in FIPS 202.
-/
namespace Sys2Proof.Machine

namespace Shake

/-- A function of a number, evaluated first. -/
def evalThen {α : Type} (n : Nat) (f : Nat → α) : α := match n with | 0 => f 0 | m + 1 => f (m + 1)

/-- A function of a list of numbers, each evaluated first. -/
def evalAll {α : Type} : List Nat → (List Nat → α) → α
  | [], f => f []
  | x :: l, f => evalThen x fun x => evalAll l fun l => f (x :: l)

/-- A 64-bit lane rotated towards its high end. -/
def rotate (x n : Nat) : Nat := ((x <<< n) ||| (x >>> (64 - n))) % 2 ^ 64

/-- The walk over the lanes but the first, from place (1, 0) on: each lane's number `x + 5 y` and its rotation, the `t`-th
triangular number. -/
def laneWalk : Nat → Nat → Nat → Nat → AMap Nat
  | 0, _, _, _ => []
  | n + 1, t, x, y => (x + 5 * y, t * (t + 1) / 2 % 64) :: laneWalk n (t + 1) y ((2 * x + 3 * y) % 5)

/-- The rotations of the 25 lanes in order. -/
def rotations : List Nat := (List.range 25).map fun i => (laneWalk 24 1 1 0).get i 0

/-- One shift of the register from which the bits of the rounds' constants are taken. -/
def shiftRegister (r : Nat) : Nat := if r < 128 then 2 * r else (2 * r) ^^^ 0x171

/-- The register after `n` shifts. -/
def shiftedBy : Nat → Nat → Nat
  | 0, r => r
  | n + 1, r => shiftedBy n (shiftRegister r)

/-- The constant of a round: bit 2 ^ j - 1, for j from 0 to 6, is the low bit of the register after j shifts. -/
def noise (r : Nat) : Nat := (List.range 7).foldl (fun c j => c + shiftedBy j r % 2 * 2 ^ (2 ^ j - 1)) 0

/-- Every lane with the parity of two neighbouring columns. -/
def theta (a : List Nat) : List Nat :=
  let column (x : Nat) := (List.range 5).foldl (fun c y => c ^^^ a.getD (x + 5 * y) 0) 0
  evalAll ((List.range 5).map column) fun c =>
    (List.range 25).map fun i => a.getD i 0 ^^^ c.getD ((i + 4) % 5) 0 ^^^ rotate (c.getD ((i + 1) % 5) 0) 1

/-- Lanes rotated by `turns` and moved. -/
def move (turns a : List Nat) : List Nat :=
  (List.range 25).map fun i =>
    let source := (i % 5 + 3 * (i / 5)) % 5 + 5 * (i % 5)
    rotate (a.getD source 0) (turns.getD source 0)

/-- The nonlinear step within a row, and the round's constant. -/
def chi (constant : Nat) (b : List Nat) : List Nat :=
  (List.range 25).map fun i =>
    let lane (d : Nat) := b.getD ((i + d) % 5 + 5 * (i / 5)) 0
    lane 0 ^^^ ((2 ^ 64 - 1 - lane 1) &&& lane 2) ^^^ (if i == 0 then constant else 0)

/-- `n` rounds, from a register and a state on. -/
def rounds (turns : List Nat) : Nat → Nat → List Nat → List Nat
  | 0, _, a => a
  | n + 1, r, a =>
    evalThen (noise r) fun k => evalThen (shiftedBy 7 r) fun r =>
      evalAll (theta a) fun a => evalAll (move turns a) fun b => evalAll (chi k b) fun a => rounds turns n r a

/-- The permutation of 24 rounds. -/
def permute (a : List Nat) : List Nat := evalAll rotations fun turns => rounds turns 24 1 a

/-- The rate of SHAKE256 in bytes. -/
def rate : Nat := 136

/-- Data with the padding of SHAKE, to whole blocks. -/
def padded (data : List Byte) : List Byte :=
  let gap := rate - data.length % rate
  if gap == 1 then data ++ [0x9F] else data ++ [0x1F] ++ List.replicate (gap - 2) 0 ++ [0x80]

/-- The lanes of one block of bytes. -/
def lanes (block : List Byte) : List Nat := (List.range 25).map fun i => leNat ((block.drop (8 * i)).take 8)

/-- `n` blocks absorbed. -/
def absorb : Nat → List Byte → List Nat → List Nat
  | 0, _, a => a
  | n + 1, data, a =>
    let block := lanes (data.take rate)
    evalAll ((List.range 25).map fun i => a.getD i 0 ^^^ block.getD i 0) fun a =>
      absorb n (data.drop rate) (permute a)

/-- `n` blocks squeezed out. -/
def squeeze : Nat → List Nat → List Byte
  | 0, _ => []
  | n + 1, a => (a.take 17).flatMap (leBytes 8) ++ squeeze n (permute a)

end Shake

/-- SHAKE256 with an output length in bytes (R409, R411, R419). -/
def shake256 (data : List Byte) (length : Nat) : List Byte :=
  let input := Shake.padded data
  let output := Shake.squeeze (length / Shake.rate + 1) (Shake.absorb (input.length / Shake.rate) input (List.replicate 25 0))
  (List.range length).map fun i => output.getD i 0

end Sys2Proof.Machine
end

