-- ==== Sys2Proof/Machine/Power.lean ====
section
/-!
DEFINITION. Current slope, clocks and power limits, energy quotas, HBM temperature and shares (R327, R371, R396 to R407),
and what management sets (R414).
-/
namespace Sys2Proof.Machine

/-- The meaning of an event on the management interface. -/
def execManage (f : State → State) (s : State) : Host.Outcome State Fault Refusal := .next (f s)

/-- The meaning of an event that reaches the whole state, once the package has booted. -/
def execState (f : State → State) (s : State) : Host.Outcome State Fault Refusal :=
  .next (if s.operational then f s else s)

/-! ### Energy charged to a context (R402, R403) -/

namespace Pkg

/-- A context that was not exhausted and is so now: every strand of it that runs parks (R403). -/
def parkExhausted (p : Pkg) (cid : Nat) (was : Bool) : Pkg :=
  if was || !p.isExhausted cid then p
  else
    ((p.strands.filter fun e =>
      sidCtx e.1 == cid && p.isResident e.1 && e.2.park.isNone && !e.2.finished && !e.2.ended).map (·.1)).foldl energyPark p

/-- Energy is charged to a context; at the quota every strand of the context parks. -/
def chargeEnergy (p : Pkg) (cid energy : Nat) : Pkg := (p.charge cid energy).parkExhausted cid (p.isExhausted cid)

/-- ENERGY_EXHAUSTED: what the context's clusters have metered is charged, with its share of the memory, engine and fabric
energy that its operations have caused since the last charge, which the event brings (log entry 46). -/
def energyExhausted (p : Pkg) (cid share : Nat) : Pkg :=
  ((p.chargeMeters ((List.range 144).filter fun k => p.chargeOf k == some cid)).charge cid share).parkExhausted cid (p.isExhausted cid)

end Pkg

namespace State

def slope (s : State) (cluster : Nat) : Slope := s.pkg.slope cluster
def updPower (s : State) (f : Power → Power) : State := { s with power := f s.power }
def updPkg (s : State) (f : Pkg → Pkg) : State := { s with pkg := f s.pkg }

/-! ### Measurement register M3 (R409) -/

/-- Extend a measurement register by a digest. -/
def extend (s : State) (m : Nat) (digest : List Byte) : State :=
  let old := s.plat.measurements.get m (List.replicate 64 0)
  { s with plat := { s.plat with measurements := s.plat.measurements.set m (shake256 (old ++ digest) 64) } }

/-- A change of a partition's shares or limits extends M3. -/
def extendM3 (s : State) : State := s.extend 3 (shake256 (Config.configImage s.pkg.fresh) 64)

/-- Shares and limits have been set: where `same` says that none of them differs from what it was, nothing has changed and M3 stays
(R409). -/
def measured (s : State) (same : Bool) : State := if same then s else s.extendM3

/-! ### The slope governor (R396 to R399) -/

/-- A write of the step field: 1 to 64, in force from the next window. -/
def setStep (s : State) (cluster step : Nat) : State :=
  if cluster < 144 && 1 ≤ step && step ≤ 64 then
    s.updPkg fun p => p.updSlope cluster fun x => { x with step := step }
  else s

/-- The upper bound of a cluster's window (R400). -/
def stepCeiling (s : State) (cluster : Nat) : Nat := s.pkg.stepCeiling cluster

/-- SLOPE_WINDOW: the next window of 64 cycles of the cluster ends, once they have passed; up to `ready` further steps have been
made in it. The energy of its shims is charged (R398). -/
def slopeWindow (s : State) (cluster ready : Nat) : State :=
  if 144 ≤ cluster || s.pkg.cycleOf cluster < 64 * ((s.slope cluster).windows + 1) then s
  else
    s.updPkg fun p =>
      match p.endWindow cluster ready with
      | (p, some (cid, shims)) => p.chargeEnergy cid (Config.shimEnergy shims)
      | (p, none) => p

/-! ### Derating records (R407) -/

end State

/-- A derating record. -/
def deratingRecord (kind field ctx time nominal value : Nat) : List Byte := Pkg.faultRecord kind 0xFF field ctx time nominal value

namespace Pkg

/-- A record for every context: appended for the resident ones, held for the others. -/
def derate (p : Pkg) (record : Nat → Ctx → List Byte) : Pkg :=
  p.ctxs.foldl (fun q e =>
    if (p.vfs.get e.2.vf {}).resident == some e.1 then q.appendRecord e.1 (crFaultQueue e.2.record) (record e.1 e.2)
    else q.updCtx e.1 fun c => { c with heldRecords := c.heldRecords ++ [record e.1 e.2] }) p

end Pkg

namespace State

/-- The highest clock of a cluster, MHz (R21), and the nominal one (R20). -/
def topClock : Nat := 1300
def nominalClock : Nat := 1100

/-- Records of a change of the package's clock ceiling. -/
def derateClock (s : State) (kind : Nat) : State :=
  let c := s.power.ceiling
  s.updPkg fun p => p.derate fun cid _ => deratingRecord kind 0xFF cid p.time nominalClock c

/-! ### Power (R400, R401) -/

/-- A clock below a ceiling, not under 0.95 GHz. -/
def lowerClock (fresh ceiling : Nat) : Nat := if ceiling ≤ 950 then ceiling else 950 + Config.loweredClock fresh % (ceiling - 950)

/-- A step ceiling below another, not under 8. -/
def lowerCeiling (fresh ceiling : Nat) : Nat := if ceiling ≤ 8 then ceiling else 8 + Config.loweredCeiling fresh % (ceiling - 8)

/-- The limit of a function, W. -/
def functionLimit (s : State) (vf : Nat) : Nat := s.power.functionLimits.get vf 300

/-- The samples of the last 1 ms, a new one first: up to 100 of 10 µs. -/
def lastSamples (l : List Nat) (watts : Nat) : List Nat := (watts :: l).take 100

/-- Does the average of samples exceed a limit? That it is the average of the last 100 of them, and of those there are before the
first 1 ms is over, is the model's choice (log entry 110). -/
def aboveLimit (l : List Nat) (limit : Nat) : Bool := limit * l.length < Pkg.total l

/-- Does the average of samples lie 5 % or more below a limit? -/
def belowLimit (l : List Nat) (limit : Nat) : Bool := 100 * Pkg.total l ≤ 95 * (limit * l.length)

/-- A function's average: above the limit its clusters' supply is lowered, then their step ceiling. -/
def judgeFunction (s : State) (vf : Nat) : State :=
  let clock := min s.power.ceiling (s.power.functionClocks.get vf topClock)
  if !aboveLimit (s.power.functionWatts.get vf []) (s.functionLimit vf) then s
  else if 950 < clock then
    s.updPower fun w => { w with functionClocks := w.functionClocks.set vf (lowerClock s.pkg.fresh clock) }
  else
    s.updPkg fun p => { p with stepCeilings := p.stepCeilings.set vf (lowerCeiling p.fresh (p.stepCeilings.get vf 64)) }

/-- What the meter of a function gave for the last 10 µs, and what its average calls for. -/
def functionSample (s : State) (vf watts : Nat) : State :=
  if 8 ≤ vf then s
  else
    (s.updPower fun w =>
      { w with functionWatts := w.functionWatts.set vf (lastSamples (w.functionWatts.get vf []) watts) }).judgeFunction vf

/-- The package's average: above the limit every clock ceiling is lowered. -/
def judgePackage (s : State) : State :=
  if aboveLimit s.power.packageWatts s.power.packageLimit then
    let c := lowerClock s.pkg.fresh s.power.ceiling
    let t := s.updPower fun w => { w with ceiling := c, calmSamples := 0 }
    if c == s.power.ceiling then t else t.derateClock 9
  else if belowLimit s.power.packageWatts s.power.packageLimit then s.updPower fun w => { w with calmSamples := w.calmSamples + 1 }
  else s.updPower fun w => { w with calmSamples := 0 }

/-- What the meter of the package gave for the last 10 µs, and what the average calls for. -/
def packageSample (s : State) (watts : Nat) : State :=
  (s.updPower fun w => { w with packageWatts := lastSamples w.packageWatts watts }).judgePackage

/-- POWER_METER_SAMPLE: what the meters of the package and of each function gave, W, once the next 10 µs have passed. -/
def powerSample (s : State) (package : Nat) (functions : List Nat) : State :=
  if s.pkg.time < 10000 * (s.power.samples + 1) then s
  else
    functions.zipIdx.foldl (fun s e => s.functionSample e.2 e.1)
      ((s.updPower fun w => { w with samples := w.samples + 1 }).packageSample package)

/-- RETURN_TO_NOMINAL: 10 ms of samples at least 5 % below the limit, and the ceiling is raised. -/
def returnToNominal (s : State) (ceiling : Nat) : State :=
  if s.power.calmSamples < 1000 || ceiling ≤ s.power.ceiling || topClock < ceiling then s
  else (s.updPower fun w => { w with ceiling := ceiling, calmSamples := 0 }).derateClock 10

/-- SET_POWER_LIMITS: refused outside the ranges of R400. -/
def setPowerLimits (s : State) (package : Nat) (functions : List Nat) : State :=
  if package < 1200 || 2400 < package || functions.length != 8 || functions.any fun w => w < 100 || 2400 < w then s
  else
    (s.updPower fun w =>
      { w with packageLimit := package, functionLimits := functions.zipIdx.map fun e => (e.2, e.1) }).measured
        (package == s.power.packageLimit && functions.zipIdx.all fun e => e.1 == s.functionLimit e.2)

/-! ### Shares (R327, R405) -/

def fabricShare (s : State) (vf : Nat) : Nat := s.power.fabricShares.get vf 8
def hbmShare (s : State) (vf stack : Nat) : Nat := s.power.hbmShares.get (16 * vf + stack) 8

/-- The sum of the eight functions' shares of a resource when one of them is replaced. -/
def shareSum (vf share : Nat) (others : Nat → Nat) : Nat :=
  Pkg.total ((List.range 8).map fun v => if v == vf then share else others v)

/-- SET_SHARES: a function's fabric share and its share of each of the twelve stacks, in 64ths. -/
def setShares (s : State) (vf fabric : Nat) (hbm : List Nat) : State :=
  if 8 ≤ vf || hbm.length != 12 || 64 < shareSum vf fabric s.fabricShare
      || hbm.zipIdx.any fun e => 64 < shareSum vf e.1 fun v => s.hbmShare v e.2 then s
  else
    (s.updPower fun w =>
      { w with
        fabricShares := w.fabricShares.set vf fabric
        hbmShares := hbm.zipIdx.foldl (fun m e => m.set (16 * vf + e.2) e.1) w.hbmShares }).measured
          (fabric == s.fabricShare vf && hbm.zipIdx.all fun e => e.1 == s.hbmShare vf e.2)

/-! ### HBM temperature (R406) -/

/-- The thermal level of a stack at a temperature. -/
def nextLevel (level : Nat) (t : Int) : Nat :=
  if 95 ≤ t then 2
  else if 90 ≤ t && level == 2 then 2
  else if 85 ≤ t then 1
  else if 80 ≤ t && 1 ≤ level then 1
  else 0

/-- A function's effective guarantee of a stack, GB/s, for a share at a level (R405, R406). -/
def guarantee (share level : Nat) : Nat := share * 2560 * (4 - level) / 256

/-- One stack's reading. -/
def stackReading (s : State) (stack : Nat) (t : Int) : State :=
  let old := s.power.levels.get stack 0
  let new := nextLevel old t
  if old == new || 12 ≤ stack then s
  else
    let s := s.updPower fun w => { w with levels := w.levels.set stack new }
    s.updPkg fun p => p.derate fun cid c =>
      deratingRecord 8 stack cid p.time (guarantee (s.hbmShare c.vf stack) 0) (guarantee (s.hbmShare c.vf stack) new)

/-- HBM_TEMP_READING: the temperatures of the stacks, °C. -/
def tempReading (s : State) (temps : List Int) : State := temps.zipIdx.foldl (fun s e => s.stackReading e.2 e.1) s

/-! ### Energy (R371, R402 to R404) -/

/-- SET_ACCOUNTING_INTERVAL: 100 µs to 10 ms. -/
def setInterval (s : State) (ns : Nat) : State :=
  if 100000 ≤ ns && ns ≤ 10000000 then s.updPower fun w => { w with interval := ns } else s

end State

namespace Pkg

/-- The context at the start of the next interval: its debt, the charge that it starts with, and whether it stays parked. -/
def refill (c : Ctx) : Ctx :=
  let c := { c with charge := overdraft c, debt := overdraft c }
  { c with exhausted := reachesQuota c }

/-- ENERGY_INTERVAL: what each cluster has metered since the last charge is charged to the context resident on it, and to each
context its share of the memory, engine and fabric energy that its operations have caused, which the event brings (log entry 46);
then every quota refills. -/
def energyInterval (p : Pkg) (shares : List (Nat × Nat)) : Pkg :=
  let p := shares.foldl (fun (p : Pkg) e => p.charge e.1 e.2) (p.chargeMeters (List.range 144))
  let p := { p with ctxs := p.ctxs.mapVals fun _ c => refill c }
  { p with strands := p.strands.mapVals fun sid st =>
      if st.park == some Park.energy && !p.isExhausted (sidCtx sid) then { st with park := none } else st }

end Pkg

/-- ENERGY_INTERVAL: the present accounting interval ends, once it has passed (R371). -/
def State.endInterval (s : State) (charges : List (Nat × Nat)) : State :=
  if s.pkg.time < s.power.intervalStart + s.power.interval then s
  else
    (s.updPower fun w => { w with intervalStart := w.intervalStart + w.interval }).updPkg fun p => p.energyInterval charges

/-! ### The meanings -/

/-- ENERGY_INTERVAL (R371, R403). -/
def execEnergyInterval (charges : List (Nat × Nat)) : State → Host.Outcome State Fault Refusal :=
  execState fun s => s.endInterval charges

/-- ENERGY_EXHAUSTED (R403). -/
def execEnergyExhausted (ctx charge : Nat) : State → Host.Outcome State Fault Refusal :=
  execPkg fun p => p.energyExhausted ctx charge

/-- POWER_METER_SAMPLE (R400, R401). -/
def execPowerMeterSample (package : Nat) (functions : List Nat) : State → Host.Outcome State Fault Refusal :=
  execState fun s => s.powerSample package functions

/-- RETURN_TO_NOMINAL (R401). -/
def execReturnToNominal (ceiling : Nat) : State → Host.Outcome State Fault Refusal := execState fun s => s.returnToNominal ceiling

/-- SLOPE_WINDOW (R396). -/
def execSlopeWindow (cluster ready : Nat) : State → Host.Outcome State Fault Refusal := execState fun s => s.slopeWindow cluster ready

/-- HBM_TEMP_READING (R406). -/
def execHbmTempReading (temps : List Int) : State → Host.Outcome State Fault Refusal := execState fun s => s.tempReading temps

/-- SET_SLOPE_STEP (R399). -/
def execSetSlopeStep (cluster step : Nat) : State → Host.Outcome State Fault Refusal := execManage fun s => s.setStep cluster step

/-- SET_POWER_LIMITS (R400). -/
def execSetPowerLimits (package : Nat) (functions : List Nat) : State → Host.Outcome State Fault Refusal :=
  execManage fun s => s.setPowerLimits package functions

/-- SET_ACCOUNTING_INTERVAL (R371). -/
def execSetAccountingInterval (ns : Nat) : State → Host.Outcome State Fault Refusal := execManage fun s => s.setInterval ns

/-- SET_FRAMING_PRIORITY (R381). -/
def execSetFramingPriority (priority : Nat) : State → Host.Outcome State Fault Refusal :=
  execManage fun s => if priority < 256 then s.updPkg fun p => { p with framingPriority := priority } else s

/-- SET_SHARES (R327, R405). -/
def execSetShares (vf fabric : Nat) (hbm : List Nat) : State → Host.Outcome State Fault Refusal :=
  execState fun s => s.setShares vf fabric hbm

end Sys2Proof.Machine
end

