-- ==== Sys2Proof/Machine/HostCmd.lean ====
section
/-!
DEFINITION. The host commands (R361, R372 to R375, R419, R111, R148, R160, R161, R204, R330, R336, R346, R366, R394). A command
lies in host-die memory at the address `cmd`; Amiah writes its status byte last.
-/
namespace Sys2Proof.Config

/-- The context that the opaque bytes of an image block from another package stand for (R419). -/
opaque foreignContext (rest : List Byte) : Option Machine.Exported

end Sys2Proof.Config

namespace Sys2Proof.Machine

/-- Status values of a host command (R372). -/
def cmdDone : Nat := 1
def cmdRefused : Nat := 2

namespace Pkg

/-- Write a command's status byte. -/
def answerCmd (p : Pkg) (cmd status : Nat) : Pkg := { p with hostMem := p.hostMem.write (cmd + 1) (BitVec.ofNat 8 status) }

/-- A command that is refused, or done with an effect. -/
def command (p : Pkg) (cmd : Nat) (r : Option Pkg) : Pkg :=
  match r with
  | some q => q.answerCmd cmd cmdDone
  | none => p.answerCmd cmd cmdRefused

/-- A command on a context that exists. -/
def onCtx (p : Pkg) (cmd cid : Nat) (f : Ctx → Option Pkg) : Pkg := p.command cmd ((p.ctxs.get? cid).bind f)

/-- The contexts of a virtual function. -/
def contextsOf (p : Pkg) (vf : Nat) : List Nat := (p.ctxs.filter fun c => c.2.vf == vf).map (·.1)

/-! ### Gang and communicator tables (R330, R336, R361) -/

/-- The valid entries of a gang table by rank; none where two ranks name one package. -/
def gangTable (b : List Byte) : Option (AMap DWord) :=
  let es := ((List.range 512).map fun r => (r, BitVec.ofNat 64 (leNat ((b.drop (8 * r)).take 8)))).filter fun e : Nat × DWord =>
    e.2.getLsbD 15
  let ports := es.map fun e => bits e.2.toNat 8 0
  if ports.eraseDups.length == ports.length then some es else none

/-- Is a list strictly ascending? -/
def ascending : List Nat → Bool
  | a :: b :: rest => a < b && ascending (b :: rest)
  | _ => true

/-- The members of a communicator table entry; none for an illegal entry. -/
def commEntry (b : List Byte) : Option (List Nat) :=
  let n := leNat (b.take 2)
  let ranks := (List.range n).map fun i => leNat ((b.drop (2 + 2 * i)).take 2)
  if n == 0 || 511 < n || !ascending ranks || (b.drop (2 + 2 * n)).any (· != 0) then none else some ranks

/-- The communicator table of `n` entries. -/
def commTable (b : List Byte) : Nat → Option (AMap (List Nat))
  | 0 => some []
  | n + 1 =>
    match commTable b n, commEntry ((b.drop (1024 * n)).take 1024) with
    | some m, some l => some (m.set n l)
    | _, _ => none

/-- Amiah's read of a table of a context in pages: none where some page is not readable. -/
def readTable (p : Pkg) (cid : Nat) : Nat → Nat → Pkg × Option (List Byte)
  | 0, _ => (p, some [])
  | n + 1, va =>
    match p.amiahRead cid va 1024 with
    | (p, none) => (p, none)
    | (p, some b) =>
      match p.readTable cid n (va + 1024) with
      | (p, none) => (p, none)
      | (p, some c) => (p, some (b ++ c))

/-- Read both tables of a context, an unreadable one as empty: none where Amiah refuses them. -/
def readTables (p : Pkg) (cid : Nat) : Option Pkg :=
  match p.ctxs.get? cid with
  | none => none
  | some c =>
    let (p, g) := p.readTable cid 4 (crGangTable c.record)
    let (p, m) := p.readTable cid (crComms c.record) (crCommTable c.record)
    let comms := match m with | some b => commTable b (crComms c.record) | none => some []
    match gangTable (g.getD []), comms with
    | some g, some m => some (p.updCtx cid fun c => { c with gang := g, comms := m })
    | _, _ => none

/-! ### CREATE and DESTROY (R361, R387, R412) -/

/-- A free key ID, from a starting point on. -/
def freeKey (p : Pkg) : Option Nat :=
  ((List.range 1023).map fun i => 1 + (Config.pickKey p.fresh + i) % 1023).find? fun k => (p.keyVf.get? k).isNone

/-- The function has a key ID. -/
def ensureKey (p : Pkg) (vf : Nat) : Pkg × Option Nat :=
  match p.lowestKey vf with
  | some k => (p, some k)
  | none =>
    match p.freeKey with
    | some k => ({ p with keyVf := p.keyVf.set k vf }, some k)
    | none => (p, none)

/-- Bytes of a function's die scratchpad that its contexts hold. -/
def sharesOf (p : Pkg) (vf : Nat) : Nat := total ((p.ctxs.filter fun c => c.2.vf == vf).map fun c => crShare c.2.record)

/-- Does a context record break its layout (R361)? -/
def badRecord (p : Pkg) (r : BitVec 1024) : Bool :=
  crField r 959 640 != 0 || crField r 639 579 != 0
    || crTwinTable r % 65536 != 0 || crRoot r % 65536 != 0 || crCommTable r % 1024 != 0 || crGangTable r % 4096 != 0
    || crOutlierTable r % 8 != 0 || crRingTable r % 64 != 0
    || 65535 < crComms r || 512 < crField r 223 208 || 8 < crReservedCores r
    || 33554432 < p.sharesOf (crVf r) + crShare r

/-- Key IDs are retired: they are assigned to nobody, and no frame is owned by one of them any more (R412). -/
def retireKeys (p : Pkg) (ks : List Nat) : Pkg :=
  { p with keyVf := p.keyVf.filter fun e => !ks.contains e.1
           frameKeys := p.frameKeys.filter fun e => !(bit e.2.toNat 15 && ks.contains (bits e.2.toNat 9 0)) }

/-- Take frames for a function under a key. -/
def takeFrames (p : Pkg) (key : Nat) (fs : List Nat) : Pkg := fs.foldl (fun p f => p.takeFrame key f) p

/-- Do the frames of a save area lie each on its own stack: do they end before their stacks do (R387)? -/
def areaFits (first share : Nat) : Bool := first % 786432 + (0xA21 + share / 65536 - 1) / 12 < 786432

/-- A new context, with its twin table and its save area in frames of the function's key. -/
def newContext (p : Pkg) (r : BitVec 1024) (cid twinFrame saveFrame : Nat) : Option Pkg :=
  let save := saveFrames saveFrame (crShare r)
  if p.badRecord r || 64 ≤ cid || (p.ctxs.get? cid).isSome || save.contains twinFrame || !areaFits saveFrame (crShare r)
      || !(twinFrame :: save).all p.frameFree then none
  else
    match p.ensureKey (crVf r) with
    | (_, none) => none
    | (p, some key) =>
      let p := p.takeFrames key (twinFrame :: save)
      let c : Ctx := { record := r, vf := crVf r, twinPa := twinFrame * 65536, saveArea := saveFrame * 65536 }
      { p with ctxs := p.ctxs.set cid c }.readTables cid

/-- CREATE. -/
def createCtx (p : Pkg) (cmd record cid twinFrame saveFrame : Nat) : Pkg :=
  let r := BitVec.ofNat 1024 (leNat (p.hostMem.readBytes record 128))
  p.command cmd <| (p.newContext r cid twinFrame saveFrame).map fun q =>
    { q with hostMem := q.hostMem.write (cmd + 8) (BitVec.ofNat 8 cid) }

/-- The part of a raising entry that names a context that is destroyed becomes idle (R395). -/
def idleIn (cid vf : Nat) (e : BitVec 256) : BitVec 256 :=
  if rtContext e vf == cid then BitVec.ofNat 256 (setBits e.toNat (7 * vf + 78) (7 * vf + 72) 127) else e

/-- A context leaves the package: its frames, and with the last context of the function its key IDs. The entries that name it
name none any more, and regions whose pages are owned no longer are closed. -/
def removeCtx (p : Pkg) (cid : Nat) (c : Ctx) : Pkg :=
  let own := (c.twinPa / 65536) :: saveFrames (c.saveArea / 65536) (crShare c.record)
  let last := (p.contextsOf c.vf).all (· == cid)
  let drop (x : Option Nat) : Option Nat := if x == some cid then none else x
  let p := { p with
    ctxs := p.ctxs.erase cid
    chains := p.chains.filter fun e => e.2.ctx != cid
    entries := p.entries.filter fun e => e.2.ctx != cid
    launches := p.launches.filter fun e => e.2.ctx != cid
    trees := p.trees.filter fun e => e.2.ctx != cid
    cores := p.cores.filter fun e => e.1 / 1024 != cid
    pinned := p.pinned.filter fun e => e.2 != cid
    invalidations := p.invalidations.filter fun e => e.2.ctx != cid
    tlb := p.tlb.filter fun t => t.ctx != cid
    frameKeys := p.frameKeys.filter fun e => !own.contains e.1
    raisings := p.raisings.map (idleIn cid c.vf) }
  let p := if last then p.retireKeys ((p.keyVf.filter fun e => e.2 == c.vf).map (·.1)) else p
  p.closeUnowned.updVf c.vf fun v => { v with resident := drop v.resident, incoming := drop v.incoming, held := drop v.held }

/-- DESTROY: every tree ends with KILLED and its record is written; an urgent one's record calls for the kind-2 entry (R392). -/
def destroyCtx (p : Pkg) (cmd cid : Nat) : Pkg :=
  p.onCtx cmd cid fun c =>
    let trees := (p.trees.filter fun t => t.2.ctx == cid).map (·.1)
    let q := trees.foldl (fun q k => (q.endTree k 8).closeUrgent k) p
    some (q.removeCtx cid c)

/-- A command whose code is neither in the table nor that of ATTEST is answered as unknown (R372, R411). -/
def unknownCommand (p : Pkg) (cmd : Nat) : Pkg :=
  let code := (p.hostMem.read cmd).toNat
  if (1 ≤ code && code ≤ 10) || (16 ≤ code && code ≤ 23) || code == 32 then p else p.answerCmd cmd 3

/-! ### Strands and trees (R204, R394) -/

/-- RESUME_STRAND: a strand parked by TRAP #park goes on after it. -/
def resumeStrand (p : Pkg) (cmd cid slot : Nat) : Pkg :=
  let sid := cid * 16384 + slot
  p.command cmd <|
    match p.strand? sid with
    | some st => if slot < 16384 && st.park == some .trapPark then some ((p.passPark sid).keepStrand sid) else none
    | none => none

/-- The transfers of a strand that is killed, and its requests that have not left, are discarded: a transfer that it has not
observed counts for its tree as a remote failure (R394). -/
def dropSends (p : Pkg) (sid : Nat) : Pkg :=
  let mine (e : Nat × Entry) : Bool := e.2.chain.isNone && e.2.sid == some sid
  let q := { p with entries := p.entries.filter fun e => !mine e, sent := p.sent.filter fun s => !(s.queued && s.sid == some sid) }
  match p.strand? sid with
  | some st => if p.entries.any mine then q.failTree (p.treeKeyOf st) 5 else q
  | none => q

/-- KILL_STRAND: what it has issued completes, or is discarded unperformed; then it has ended. -/
def killStrand (p : Pkg) (cmd cid slot : Nat) : Pkg :=
  let sid := cid * 16384 + slot
  p.command cmd <|
    match p.strand? sid with
    | some st =>
      if 16384 ≤ slot || st.ended then none
      else
        let q := (p.haltStrand sid).updStrand sid fun st => { st with ops := [], park := none, finished := true, executing := false }
        match q.strand? sid with
        | some st => some (((q.dropSends sid).endStrand sid st).keepCtx cid)
        | none => some q
    | none => none

/-- KILL_TREE: the tree with a seed sequence ends with KILLED. -/
def killTree (p : Pkg) (cmd cid seedSeq : Nat) : Pkg :=
  p.command cmd <|
    (p.trees.find? fun t => t.2.ctx == cid && t.2.seedSeq.toNat == seedSeq).map fun t => (p.endTree t.1 8).keepCtx cid

/-! ### Rings, tables, twins and chains -/

/-- RING_RESTART: the descriptor is checked again, and its stopped bit cleared. An enabled ring is served again from its
head, with a tail acquired anew; a disabled one is checked when its enable rises. A descriptor that fails the check is not
served: its stopped bit is set (R362). -/
def ringRestart (p : Pkg) (cmd cid r : Nat) : Pkg :=
  p.onCtx cmd cid fun c =>
    if 80 ≤ r then none
    else
      match p.ringDesc cid r with
      | (_, none) => none
      | (q, some d) =>
        match ringDescFault d r with
        | some (field, value, legal) =>
          let q := q.updRing cid r fun x => { x with checked := false, tail := 0, hold := none }
          some ((q.stopRing cid r d).reportFault cid 13 r field q.time legal value)
        | none =>
          let va := crRingTable c.record + 64 * r + 25
          some ((q.amiahWrite cid va [BitVec.ofNat 8 (bits d 207 200 - bits d 201 201 * 2)]).1.updRing cid r fun x =>
            { x with checked := rdEnable d, tail := 0, hold := none })

/-- GANG_SET: both tables are read again; a refused one leaves the old tables. -/
def gangSet (p : Pkg) (cmd cid : Nat) : Pkg := p.onCtx cmd cid fun _ => p.readTables cid

/-- Does an enabled twin descriptor break its layout (R111)? -/
def badTwin (d : Nat) : Bool :=
  twEnabled d && (bits d 399 384 != 0 || twLength d == 0 || twLength d % 65536 != 0 || twBase d % 65536 != 0)

/-- TWIN_SET: reserved bits read 0. -/
def twinSet (p : Pkg) (cmd cid index : Nat) (d : BitVec 512) : Pkg :=
  p.onCtx cmd cid fun c =>
    let clean := setBits (setBits d.toNat 479 450 0) 255 6 0
    if 128 ≤ index || badTwin clean then none else some (p.writeL2 none (c.twinPa + 64 * index) (leBytes 64 clean))

/-- CHAIN_WATCH: a chain whose service had stopped is served again (R347). -/
def chainWatch (p : Pkg) (cmd cid va : Nat) : Pkg :=
  p.onCtx cmd cid fun c =>
    let d : DWord := BitVec.ofNat 64 va
    if va % 64 != 0 || (64 ≤ c.watched.length && !c.watched.contains d) then none
    else
      let q := p.updCtx cid fun c => { c with watched := if c.watched.contains d then c.watched else c.watched ++ [d] }
      some { q with chains := q.chains.mapVals fun _ k => if k.ctx == cid && k.desc == d then { k with halted := false } else k }

/-- CHAIN_UNWATCH. -/
def chainUnwatch (p : Pkg) (cmd cid va : Nat) : Pkg :=
  p.onCtx cmd cid fun _ => some (p.updCtx cid fun c => { c with watched := c.watched.filter (· != BitVec.ofNat 64 va) })

/-! ### The dirty log and device windows (R148, R160, R161) -/

/-- Is every access performed that uses a translation of a context of a function (R150)? -/
def translationsIdle (p : Pkg) (vf : Nat) : Bool :=
  (p.contextsOf vf).all fun cid => !p.translationsInUse cid

/-- The rows that the contexts of a function hold back from global memory are performed. -/
def landVf (p : Pkg) (vf : Nat) : Pkg := (p.contextsOf vf).foldl landRows p

/-- The invalidation of every context of a function. -/
def invalidateVf (p : Pkg) (vf : Nat) : Pkg := (p.contextsOf vf).foldl (fun p cid => (p.dropTlb cid 0 0).walkAgain cid) p

/-- The 8,192 entries of a node: index, address and value. -/
def nodeEntries (m : Pkg) (node : Nat) : List (Nat × Nat × Nat) :=
  (List.range 8192).map fun i => (i, node + 8 * i, leNat (m.peek (node + 8 * i) 8))

/-- The leaves of a tree: page, address and value. -/
def treeLeaves (m : Pkg) (root : Nat) : List (Nat × Nat × Nat) :=
  let nodes (l : List (Nat × Nat × Nat)) := l.filter fun x => leafKind x.2.2 == 1
  let child (x : Nat × Nat × Nat) := (nodeEntries m (bits x.2.2 51 16 * 65536)).map fun y => (8192 * x.1 + y.1, y.2)
  let tables := (nodes (nodeEntries m root)).flatMap child
  ((nodes tables).flatMap child).filter fun x => 2 ≤ leafKind x.2.2

/-- Copy `n` bytes of a store to another place, and clear the source. -/
def snapshotBytes (m : Mem) (src dst n : Nat) : Mem :=
  let listed := m.filter fun c => src ≤ c.1 && c.1 < src + n
  let rest := m.filter fun c => !(src ≤ c.1 && c.1 < src + n) && !(dst ≤ c.1 && c.1 < dst + n)
  listed.foldl (fun (m : Mem) c => m.write (dst + (c.1 - src)) c.2) rest

/-- Clear the dirty bits of a context's leaves. -/
def cleanLeaves (p : Pkg) (cid : Nat) : Pkg :=
  match p.ctxs.get? cid with
  | none => p
  | some c =>
    ((treeLeaves p (crRoot c.record)).filter fun x => leafDirty x.2.2).foldl (fun p x =>
      p.writeL2 none x.2.1 (leBytes 8 (setBits x.2.2 5 5 0))) p

/-- DIRTY_ON. -/
def dirtyOn (p : Pkg) (cmd vf bitmap : Nat) : Pkg :=
  p.command cmd (if vf < 8 then some (p.updVf vf fun v => { v with dirtyOn := some bitmap }) else none)

/-- DIRTY_OFF: the bitmap keeps its last contents. -/
def dirtyOff (p : Pkg) (cmd vf : Nat) : Pkg :=
  p.command cmd (if vf < 8 then some (p.updVf vf fun v => { v with dirtyOn := none }) else none)

/-- DIRTY_ROUND: snapshot and clear, clear the leaves, invalidate; it runs when no access holds a translation, rows held back
being performed first. -/
def dirtyRound (p : Pkg) (cmd vf snapshot : Nat) : Pkg :=
  match (p.vfs.get vf {}).dirtyOn with
  | none => p.answerCmd cmd cmdRefused
  | some bitmap =>
    if !p.translationsIdle vf then p.landVf vf
    else
      let p := { p with hostMem := snapshotBytes p.hostMem bitmap snapshot 1179648 }
      (((p.contextsOf vf).foldl cleanLeaves p).invalidateVf vf).answerCmd cmd cmdDone

/-- The windows of a device-window list: base and pages, up to an entry of length 0. Bytes 12 to 15 of an entry, for which the
spec has no answer, are ignored: the model's choice (log entry 76). -/
def windowList (b : List Byte) : Nat → List (Nat × Nat)
  | 0 => []
  | n + 1 =>
    let pages := leNat ((b.drop 8).take 4)
    if pages == 0 then [] else (leNat (b.take 8), pages) :: windowList (b.drop 16) n

/-- Does Amiah refuse a window for a function? That it refuses a base that is no multiple of 64 KiB is the model's choice (log
entry 76). -/
def badWindow (p : Pkg) (vf : Nat) (w : Nat × Nat) : Bool :=
  w.1 % 65536 != 0 || w.1 < 0x8000000000000 || 0x10000000000000 < w.1 + 65536 * w.2
    || p.vfs.any fun v => v.1 != vf && v.2.devWin.any fun x => meets w.1 (65536 * w.2) x.1 (65536 * x.2)

/-- DEVWIN_SET. -/
def devwinSet (p : Pkg) (cmd vf list : Nat) : Pkg :=
  let ws := windowList (p.hostMem.readBytes list 256) 16
  if 8 ≤ vf || ws.any (p.badWindow vf) then p.answerCmd cmd cmdRefused
  else if !p.translationsIdle vf then p.landVf vf
  else ((p.updVf vf fun v => { v with devWin := ws }).invalidateVf vf).answerCmd cmd cmdDone

/-! ### STOP and START (R373, R375, R395) -/

/-- A chain entry of a stopped function keeps status POSTED and its bytes done. -/
def markStopped (p : Pkg) (vf : Nat) : Pkg :=
  p.entries.foldl (fun q e =>
    match e.2.chain with
    | some (key, n) =>
      match q.chains.get? key with
      | some c =>
        if q.vfOf e.2.ctx != vf || e.2.status.isSome then q
        else
          match q.bookRead c.ctx c.desc.toNat 64 with
          | (q, some d) => q.bookWrite c.ctx (cdSlot d n + 8) 4 (leBytes 4 (bytesDone e.2))
          | (q, none) => q
      | none => q
    | none => q) p

/-- The die-scratchpad share of a context is saved beside the sections that a STOP has saved, and its header is written: the bytes
that it gives are those of the two (R387, R390). -/
def stopShare (p : Pkg) (cid sections : Nat) : Pkg :=
  match p.ctxs.get? cid with
  | some c => (p.saveShare cid).writeHeader cid (sections + crShare c.record)
  | none => p

/-- A function is halted and everything of it saved, and Amiah serves nothing of it from here on: START is to restore the context
that it had. -/
def haltVf (p : Pkg) (vf : Nat) : Pkg :=
  let next := p.presentOf vf
  let on := (clustersOf vf).filterMap fun k => (p.clusters.get k {}).occupant
  let q := (p.vacate vf true).updVf vf fun x => { x with stopped := true, stopping := true, incoming := next }
  (p.contextsOf vf).foldl (fun q cid =>
    let area := ((q.ctxs.get? cid).map (·.saveArea)).getD 0
    q.stopShare cid (if on.contains cid then leNat (q.peek (area + 32) 8) else 0)) q

/-- Have the packets that a function has sent been answered (R373)? -/
def drained (p : Pkg) (vf : Nat) : Bool := p.sent.all fun s => s.queued || (headOf s.packet).vf != vf

/-- STOP: the function is halted and saved; done once its sent packets have drained, and until then the event changes nothing more.
Every store is performed then, the rows that ACCSTs hold back among them, and bytes done are written. -/
def stopVf (p : Pkg) (cmd vf : Nat) : Pkg :=
  let v := p.vfs.get vf {}
  if 8 ≤ vf || (v.stopped && !v.stopping) then p.answerCmd cmd cmdRefused
  else
    let p := if v.stopping then p else p.haltVf vf
    if p.drained vf then
      (((p.landVf vf).markStopped vf).updVf vf fun x => { x with stopping := false }).answerCmd cmd cmdDone
    else p

/-- The die-scratchpad share of a context is restored. -/
def startShare (p : Pkg) (cid : Nat) : Pkg :=
  match p.ctxs.get? cid with
  | some c => (p.loadShare cid).endIfBad cid c (p.areaBad c 0xA210000 (crShare c.record))
  | none => p

/-- START: the shares are restored, and the restore of each cluster follows. -/
def startVf (p : Pkg) (cmd vf : Nat) : Pkg :=
  p.command cmd <|
    let v := p.vfs.get vf {}
    if 8 ≤ vf || !v.stopped || v.stopping then none
    else some ((((p.contextsOf vf).foldl startShare p).takeGeneration vf (v.gen + 1) p.time).updVf vf fun v => { v with stopped := false })

/-! ### EXPORT (R374, R419) -/

/-- What an image block holds of a context. -/
def exported (p : Pkg) (cid : Nat) (c : Ctx) : Exported :=
  let v := p.vfs.get c.vf {}
  { ctx := cid, vf := c.vf, gen := v.gen, resident := v.incoming == some cid, context := c
    strands := p.strands.filter fun e => sidCtx e.1 == cid
    bents := p.bents.filter fun e => e.2.ctx == cid
    launches := p.launches.filter fun e => e.2.ctx == cid
    trees := p.trees.filter fun e => e.2.ctx == cid
    cores := p.cores.filter fun e => e.1 / 1024 == cid
    chains := p.chains.filter fun e => e.2.ctx == cid
    entries := p.entries.filter fun e => e.2.ctx == cid
    pages := (treeLeaves p (crRoot c.record)).map fun x => (x.1, leafFrame x.2.2)
    twins := p.mem.readBytes c.twinPa 8192
    ringTable := (p.amiahRead cid (crRingTable c.record) 5120).2.getD []
    faultQueue := (p.amiahRead cid (crFaultQueue c.record) 32).2.getD []
    chainDescs := p.chains.filterMap fun e =>
      if e.2.ctx == cid then ((p.amiahRead cid e.2.desc.toNat 64).2).map fun b => (e.2.desc.toNat, b) else none }

/-- The bytes of a block: record, save area, its size, reserved bytes, opaque bytes. -/
def imageBlock (c : Ctx) (rest : List Byte) : List Byte :=
  leBytes 128 c.record.toNat ++ leBytes 8 c.saveArea ++ leBytes 8 (0xA210000 + crShare c.record) ++ leBytes 48 0 ++ rest

/-- The directory entries of blocks, the first one at an offset. -/
def directory : Nat → List (List Byte) → List Byte
  | _, [] => []
  | off, b :: rest => leBytes 8 off ++ leBytes 8 b.length ++ leBytes 16 0 ++ directory (off + b.length) rest

/-- Bytes of an image that host software may change (R419). -/
def isEditable (blocks : List Nat) (i : Nat) : Bool := blocks.any fun b => (b + 64 ≤ i && i < b + 72) || (b + 128 ≤ i && i < b + 136)

/-- The digest of an image whose blocks begin at some offsets. -/
def imageDigest (image : List Byte) (blocks : List Nat) : List Byte :=
  shake256 (((image.zipIdx).filter fun e => 128 ≤ e.2 && !isEditable blocks e.2).map (·.1)) 64

/-- Offsets of the blocks of an image, from its directory. -/
def blockOffsets (image : List Byte) (n : Nat) : List Nat :=
  (List.range n).map fun i => leNat ((image.drop (128 + 32 * i)).take 8)

/-- The image of some blocks. -/
def imageOf (blocks : List (List Byte)) : List Byte :=
  let dir := directory 4096 blocks
  let body := dir ++ List.replicate (3968 - dir.length) 0 ++ blocks.flatten
  let head (digest : List Byte) : List Byte :=
    leBytes 4 1 ++ leBytes 4 blocks.length ++ leBytes 8 (128 + body.length) ++ digest ++ List.replicate 48 0
  let draft := head (List.replicate 64 0) ++ body
  head (imageDigest draft (blockOffsets draft blocks.length)) ++ body

/-- EXPORT. -/
def exportVf (p : Pkg) (cmd vf image size : Nat) : Pkg :=
  let cids := p.contextsOf vf
  let parts : List (Ctx × List Byte × Exported) := cids.filterMap fun cid =>
    (p.ctxs.get? cid).map fun c => (c, Config.imageRest p.fresh cid, p.exported cid c)
  let bytes := imageOf (parts.map fun x => imageBlock x.1 x.2.1)
  if 8 ≤ vf || !p.stoppedAll vf || cids.isEmpty || size < 4096 then p.answerCmd cmd cmdRefused
  else if size < bytes.length then
    { p with hostMem := p.hostMem.writeBytes (image + 8) (leBytes 8 bytes.length) }.answerCmd cmd cmdRefused
  else
    { p with hostMem := p.hostMem.writeBytes image bytes
             images := parts.map (fun x : Ctx × List Byte × Exported => x.2) ++ p.images }.answerCmd cmd cmdDone

end Pkg

/-! ### Recreating a context (R374) -/

/-- Where an imported context goes: its number, its function, how far its clusters move, what is added to the package-wide
numbers, and where its physical addresses went. -/
structure Reloc where
  cid : Nat
  vf : Nat
  shift : Int
  base : Nat
  place : Nat → Nat

namespace Reloc

def cluster (r : Reloc) (c : Nat) : Nat := ((c : Int) + r.shift).toNat
def core (r : Reloc) (q : Nat) : Nat := ((q : Int) + 4 * r.shift).toNat
def sid (r : Reloc) (s : Nat) : Nat :=
  let place := sidPlace s
  r.cid * 16384 + (if 9216 ≤ place then 9216 + r.cluster (place - 9216) else ((place : Int) + 64 * r.shift).toNat)
def coreKey (r : Reloc) (k : Nat) : Nat :=
  let q := k % 1024
  r.cid * 1024 + (if 576 ≤ q then 576 + r.cluster (q - 576) else r.core q)
def num (r : Reloc) (n : Nat) : Nat := r.base + n

def loc (r : Reloc) : Loc → Loc
  | .hbm pa => .hbm (r.place pa)
  | .twin _ i pa => .twin r.cid i (r.place pa)
  | .dev pa => .dev pa
  | .lane s j o => .lane (r.sid s) j o
  | .core b c o => .core (r.num b) c o
  | .clus b o => .clus (r.num b) o
  | .die _ o => .die r.cid o

def acc (r : Reloc) (a : LaneAcc) : LaneAcc := { a with loc := r.loc a.loc }

/-- A remote lane that has had no answer has failed as stale: nothing is sent again (R338). -/
def lane (l : RemoteLane) : RemoteLane := if l.answered then l else { l with answered := true, failed := some 0xFE }

def kind (r : Reloc) : OpKind → OpKind
  | .load w p l => .load w p (l.map r.acc)
  | .store k l => .store k (l.map r.acc)
  | .atomic c w l => .atomic c w (l.map r.acc)
  | .cas l => .cas (l.map r.acc)
  | .prefetch p l => .prefetch p (l.map r.acc)
  | .lock l => .lock (l.map r.acc)
  | .unlock l => .unlock (l.map r.acc)
  | .query l => .query (l.map r.acc)
  | .regs w f c => .regs w f c
  | .tileRead t w => .tileRead t w
  | .tileWrite t i v => .tileWrite t i v
  | .actLoad s l => .actLoad s (l.map r.loc)
  | .remote w l => .remote w (l.map lane)
  | .sweep s => .sweep s
  | .shapeLoad s l => .shapeLoad s (r.loc l)
  | .shapeStore l d => .shapeStore (r.loc l) d
  | .post f g d e x => .post f g d e x
  | .send g e => .send g (r.num e)
  | .putv l => .putv (l.map fun e => (e.1, r.num e.2))
  | .counterRead g l => .counterRead g (r.loc l)
  | .publish t => .publish t
  | .spawn g l => .spawn g (r.loc l)
  | .trigger => .trigger

def op (r : Reloc) (o : Op) : Op := { o with id := r.num o.id, kind := r.kind o.kind }

def park (r : Reloc) : Park → Park
  | .presence l => .presence (l.map fun x => (r.loc x.1, x.2))
  | .waitseq l t m => .waitseq (r.loc l) t m
  | k => k

def strand (r : Reloc) (st : Strand) : Strand :=
  settleRemote { st with
    launch := r.num st.launch, bent := r.num st.bent, ops := st.ops.map r.op, park := st.park.map r.park,
    failures := st.failures.map fun x => { x with op := r.num x.op },
    yieldUntil := none, invalidation := none }

def absent (r : Reloc) (l : List (Nat × Nat)) : List (Nat × Nat) := l.map fun x => (x.1, if x.2 == 0 then 0 else r.num x.2)

def crew (r : Reloc) (c : Crew) : Crew := { c with core := r.core c.core, sids := c.sids.map r.sid, absent := r.absent c.absent }

def bent (r : Reloc) (b : Bent) : Bent :=
  { b with
    ctx := r.cid, launch := r.num b.launch, cluster := r.cluster b.cluster, truss := b.truss.map r.sid
    crews := b.crews.mapVals fun _ c => r.crew c, absent := r.absent b.absent
    matq := b.matq.map fun o => { o with after := o.after.map r.num }
    hidden := b.hidden.map fun h => (h.1, r.loc h.2.1, h.2.2) }

def launch (r : Reloc) (l : Launch) : Launch :=
  { l with ctx := r.cid, tree := r.num l.tree, deps := l.deps.map fun d => (r.num d.1, d.2) }

def hold (r : Reloc) : RingHold → RingHold
  | .word l v m => .word (r.loc l) v m
  | .fence trees _ => .fence (trees.map r.num) none
  | .lease i l => .lease i l

def ctx (r : Reloc) (c : Ctx) (record : BitVec 1024) (twinPa saveArea : Nat) : Ctx :=
  { c with
    record := record, vf := r.vf, twinPa := twinPa, saveArea := saveArea, absent := r.absent c.absent
    rings := c.rings.mapVals fun _ x => { x with hold := x.hold.map r.hold, trees := x.trees.map r.num }
    spawnQueue := c.spawnQueue.map fun q => { q with tree := r.num q.tree }
    tags := c.tags.mapVals fun _ n => r.num n }

def cores (r : Reloc) (k : Core) : Core :=
  { k with watches := k.watches.mapVals fun _ w => { w with owner := r.sid w.owner, loc := r.loc w.loc } }

def poster (r : Reloc) (x : Poster) : Poster :=
  { x with id := r.num x.id, sid := r.sid x.sid, tree := r.num x.tree, after := x.after.map r.num }

def chain (r : Reloc) (c : Chain) : Chain :=
  { c with ctx := r.cid, posted := c.posted.mapVals fun _ x => r.poster x
           hidden := c.hidden.map fun x => (x.1, x.2.1, r.loc x.2.2.1, x.2.2.2) }

/-- An entry: packets without an acknowledgement have failed as stale (R338). -/
def entry (r : Reloc) (e : Entry) : Entry :=
  let lost := e.kind != 1 && e.acks.any fun a => !a.2
  { e with
    ctx := r.cid, vf := r.vf, chain := e.chain.map fun c => (Pkg.chainKey r.cid (c.1 % 2 ^ 64), c.2), sid := e.sid.map r.sid
    tree := e.tree.map r.num, accepted := r.num e.accepted, after := e.after.map r.num
    destTwins := e.destTwins.map (fun t => (r.cid, t.2)), srcAt := e.srcAt.map r.loc, destAt := e.destAt.map r.loc
    status := if lost then some (e.status.getD 7) else e.status }

def keys {α : Type} (f : Nat → Nat) (g : α → α) (m : AMap α) : AMap α := m.map fun e => (f e.1, g e.2)

end Reloc

namespace Pkg

/-- List every entry of a map. -/
def addAll {α : Type} (m : AMap α) (l : AMap α) : AMap α := l.foldl (fun m e => m.set e.1 e.2) m

/-- Re-key a frame in place under a key: it keeps its contents. The old key, if it was not Amiah's, is retired. -/
def rekeyFrame (key : Nat) (p : Pkg) (f : Nat) : Pkg :=
  let e := (p.frameKeys.get f 0).toNat
  let old := bits e 9 0
  let p := if bit e 15 && old != 0 && old != key then p.retireKeys [old] else p
  { p with frameKeys := p.frameKeys.set f (BitVec.ofNat 16 (32768 + key)) }.forgetFrame f

/-- The frames of the nodes of a tree, which lie among the frames of its leaves' table entries. -/
def treeNodes (p : Pkg) (root : Nat) : List Nat :=
  (root / 65536 :: (treeLeaves p root).flatMap fun x => (walkReads p root (x.1 * 65536)).map (· / 65536)).eraseDups

/-- The frames that a leaf names: for a twin, those of both sides, by the exported descriptors. -/
def leafFrames (twins : List Byte) (x : Nat × Nat × Nat) : List Nat :=
  let f := leafFrame x.2.2
  if leafKind x.2.2 == 3 then
    let d := leNat ((twins.drop (64 * leafTwin x.2.2)).take 64)
    [f, sidePa d (f * 65536) true / 65536]
  else [f]

/-- Re-key the frames that the leaves of a tree name, those of its nodes with them (log entry 51), and rewrite the leaves' key
fields. A leaf of a device range names no frame. -/
def rekeyTree (p : Pkg) (root key : Nat) (twins : List Byte) : Pkg :=
  let leaves := (treeLeaves p root).filter fun x => !isDevicePa (leafFrame x.2.2 * 65536)
  let frames := (treeNodes p root ++ leaves.flatMap (leafFrames twins)).eraseDups
  leaves.foldl (fun p x => p.writeL2 none x.2.1 (leBytes 8 (setBits x.2.2 61 52 key))) (frames.foldl (rekeyFrame key) p)

/-- Write the ring table, the fault queue descriptor and the chain descriptors of an image into the memory of a context: what host
software has changed there since EXPORT is not in the image (R374). -/
def putTables (p : Pkg) (cid : Nat) (record : BitVec 1024) (x : Exported) : Pkg :=
  ((crRingTable record, x.ringTable) :: (crFaultQueue record, x.faultQueue) :: x.chainDescs).foldl
    (fun p e => (p.amiahWrite cid e.1 e.2).1) p

/-- The physical place of an exported physical address in the tree of an imported context. -/
def newPlace (m : Pkg) (root : Nat) (pages : List (Nat × Nat)) (pa : Nat) : Nat :=
  match pages.find? fun x => x.2 == pa / 65536 with
  | some x =>
    match walkTree m root (x.1 * 65536) with
    | .leaf _ e => leafFrame e * 65536 + pa % 65536
    | _ => pa
  | none => pa

/-- The twin descriptors of an imported context name its new number. -/
def retwin (cid : Nat) : Nat → List Byte → List Byte
  | 0, _ => []
  | n + 1, b =>
    let d := leNat (b.take 64)
    leBytes 64 (if twEnabled d then setBits d 5 0 cid else d) ++ retwin cid n (b.drop 64)

/-- Recreate one context from its block, its record and its structured state, under a key. -/
def recreate (p : Pkg) (vf key cid : Nat) (record : BitVec 1024) (saveArea : Nat) (x : Exported) : Option Pkg :=
  let p := p.rekeyTree (crRoot record) key x.twins
  let p := (saveFrames (saveArea / 65536) (crShare record)).foldl (rekeyFrame key) p
  match (p.freeFrames (Config.pickFrame p.fresh % frameCount) 1).head? with
  | none => none
  | some twinFrame =>
    let p := p.takeFrame key twinFrame
    let p := p.writeL2 none (twinFrame * 65536) (retwin cid 128 x.twins)
    let r : Reloc := { cid := cid, vf := vf, shift := 18 * ((vf : Int) - x.vf), base := p.nextId,
                       place := newPlace p (crRoot record) x.pages }
    some (putTables { p with
      nextId := 2 * p.nextId
      ctxs := p.ctxs.set cid (r.ctx x.context record (twinFrame * 65536) saveArea)
      strands := addAll p.strands (Reloc.keys r.sid r.strand x.strands)
      bents := addAll p.bents (Reloc.keys r.num r.bent x.bents)
      launches := addAll p.launches (Reloc.keys r.num r.launch x.launches)
      trees := addAll p.trees (Reloc.keys r.num (fun t => { t with ctx := cid }) x.trees)
      cores := addAll p.cores (Reloc.keys r.coreKey r.cores x.cores)
      chains := addAll p.chains (Reloc.keys (fun k => chainKey cid (k % 2 ^ 64)) r.chain x.chains)
      entries := addAll p.entries (Reloc.keys r.num r.entry x.entries) } cid record x)

/-- The structured state that a block's opaque bytes stand for: exported here, or on another package. -/
def blockState (p : Pkg) (rest : List Byte) : Option Exported :=
  match p.images.find? fun x => x.1 == rest with
  | some x => some x.2
  | none => Config.foreignContext rest

/-- The blocks of an image, each as its record, its save area and its structured state. -/
def imageBlocks (p : Pkg) (image : List Byte) (n : Nat) : Option (List (BitVec 1024 × Nat × Exported)) :=
  (List.range n).mapM fun i =>
    let off := leNat ((image.drop (128 + 32 * i)).take 8)
    let len := leNat ((image.drop (136 + 32 * i)).take 8)
    let b := (image.drop off).take len
    (p.blockState (b.drop 192)).map fun x =>
      (BitVec.ofNat 1024 (leNat (b.take 128)), leNat ((b.drop 128).take 8), x)

/-- Recreate the contexts of an image under the lowest free numbers; the exported resident context is the first to run. -/
def recreateAll (vf key : Nat) : List (BitVec 1024 × Nat × Exported) → Pkg → Option Pkg
  | [], p => some p
  | (record, saveArea, x) :: rest, p =>
    match (List.range 64).find? fun c => (p.ctxs.get? c).isNone with
    | none => none
    | some cid =>
      match p.recreate vf key cid record saveArea x with
      | none => none
      | some p =>
        let p := p.updVf vf fun v => { v with gen := x.gen, incoming := if x.resident then some cid else v.incoming }
        recreateAll vf key rest p

/-- IMPORT: the checks, the fresh key IDs, the re-keying and the contexts. The function then waits for START. -/
def importVf (p : Pkg) (cmd image vf : Nat) (keys : List Nat) : Pkg :=
  let head := p.hostMem.readBytes image 4096
  let n := leNat ((head.drop 4).take 4)
  let bytes := p.hostMem.readBytes image (leNat ((head.drop 8).take 8))
  let fresh := !keys.isEmpty && keys.all (fun k => 1 ≤ k && k < 1024 && (p.keyVf.get? k).isNone)
  p.command cmd <|
    if 8 ≤ vf || !(p.contextsOf vf).isEmpty || !fresh || leNat (head.take 4) != 1 || n == 0 || 64 < n
        || (head.drop 80).take 48 != List.replicate 48 0
        || (bytes.drop 16).take 64 != imageDigest bytes (blockOffsets bytes n) then none
    else
      match p.imageBlocks bytes n with
      | none => none
      | some blocks =>
        if blocks.any fun b => b.2.1 % 65536 != 0 || crRoot b.1 % 65536 != 0 || !areaFits (b.2.1 / 65536) (crShare b.1) then none
        else
          let q := { p with keyVf := keys.foldl (fun m k => m.set k vf) p.keyVf }
          let q := q.updVf vf fun v => { v with stopped := true, raised := true, resident := none, incoming := none }
          let q := (clustersOf vf).foldl (fun (q : Pkg) c => q.updCluster c fun _ => { restore := true }) q
          (recreateAll vf (keys.headD 0) blocks q).map Pkg.closeUnowned

/-! ### The host command queue (R372, R413) -/

/-- The address of the command at the head of the queue, where Amiah serves the queue: its ring descriptor is that of a launch
ring (R362). -/
def hostHead (p : Pkg) : Option Nat :=
  let d := p.hostRing.toNat
  if rdEnable d && !rdStopped d && rdHead d < rdTail d && rdTail d ≤ rdHead d + ringSize d then some (ringAddr d (rdHead d)) else none

/-- Set the queue's ring descriptor: Amiah checks it when enable rises, writes head while the queue is enabled, and alone sets
stopped. -/
def setHostRing (p : Pkg) (desc : BitVec 512) : Pkg :=
  let old := p.hostRing.toNat
  let d := if rdEnable old then setBits desc.toNat 127 64 (rdHead old) else desc.toNat
  let stop := rdStopped old || (rdEnable d && !rdEnable old && (ringDescFault (setBits d 201 201 0) 0).isSome)
  { p with hostRing := BitVec.ofNat 512 (setBits d 201 201 (if stop then 1 else 0)) }

/-- An operand of a command: the 64-bit words of [511:64] hold them in the order of the table, which gives no places: the model's
choice (log entry 93). -/
def hostOperand (p : Pkg) (cmd n : Nat) : Nat := leNat (p.hostMem.readBytes (cmd + 8 + 8 * n) 8)

/-- The address, code and operands of a host command (R372, R411): none for any other event. A context number, frames and keys that
Amiah chooses are no operands, and TWIN_SET names its descriptor by address (log entry 93). -/
def hostCommand : Instr → Option (Nat × Nat × List Nat)
  | .create cmd record .. => some (cmd, 0x01, [record])
  | .destroy cmd c => some (cmd, 0x02, [c])
  | .resumeStrand cmd c k => some (cmd, 0x03, [c, k])
  | .killStrand cmd c k => some (cmd, 0x04, [c, k])
  | .killTree cmd c n => some (cmd, 0x05, [c, n])
  | .ringRestart cmd c r => some (cmd, 0x06, [c, r])
  | .gangSet cmd c => some (cmd, 0x07, [c])
  | .twinSet cmd c n _ => some (cmd, 0x08, [c, n])
  | .chainWatch cmd c a => some (cmd, 0x09, [c, a])
  | .chainUnwatch cmd c a => some (cmd, 0x0A, [c, a])
  | .dirtyOn cmd v a => some (cmd, 0x10, [v, a])
  | .dirtyRound cmd v a => some (cmd, 0x11, [v, a])
  | .stopVf cmd v => some (cmd, 0x12, [v])
  | .exportImage cmd v a n => some (cmd, 0x13, [v, a, n])
  | .importImage cmd a v _ => some (cmd, 0x14, [a, v])
  | .startVf cmd v => some (cmd, 0x15, [v])
  | .dirtyOff cmd v => some (cmd, 0x16, [v])
  | .devwinSet cmd v a => some (cmd, 0x17, [v, a])
  | .attest cmd v n a => some (cmd, 0x20, [v, n, a])
  | _ => none

/-- The descriptor of a TWIN_SET lies where its third operand says. -/
def twinOperand (p : Pkg) (i : Instr) : Bool :=
  match i with
  | .twinSet cmd _ _ d => leNat (p.hostMem.readBytes (p.hostOperand cmd 2) 64) == d.toNat
  | _ => true

/-- Is an event one that may happen now: no host command, or the command at the head of the queue, with its code and operands?
Reserved bits are ignored. -/
def hostAdmits (p : Pkg) (i : Instr) : Bool :=
  match hostCommand i with
  | none => true
  | some (cmd, code, ops) =>
    p.hostHead == some cmd && (p.hostMem.read cmd).toNat == code && (ops.zipIdx.all fun x => p.hostOperand cmd x.2 == x.1)
      && p.twinOperand i

/-- A command begins: its status is 0 until Amiah writes it. -/
def hostBegin (p : Pkg) (cmd : Nat) : Pkg := { p with hostMem := p.hostMem.write (cmd + 1) 0 }

/-- A command whose status is written is over: the next one comes to the head. One that is not done stays there (R372). -/
def hostEnd (p : Pkg) (cmd : Nat) : Pkg :=
  if p.hostMem.read (cmd + 1) == 0 then p
  else { p with hostRing := BitVec.ofNat 512 (setBits p.hostRing.toNat 127 64 (rdHead p.hostRing.toNat + 64)) }

/-- Bytes that host software writes: the host operating system anywhere in host-die memory, an external host in the queue alone. -/
def hostWrite (p : Pkg) (external : Bool) (addr : Nat) (b : List Byte) : Pkg :=
  let d := p.hostRing.toNat
  if external && (addr < rdBase d || rdBase d + ringSize d < addr + b.length) then p
  else { p with hostMem := p.hostMem.writeBytes addr b }

end Pkg

/-! ### The meanings -/

/-- CREATE (R361). -/
def execCreate (cmd record ctx twinFrame saveFrame : Nat) : State → Host.Outcome State Fault Refusal :=
  execPkg fun p => p.createCtx cmd record ctx twinFrame saveFrame

/-- DESTROY (R372, R412). -/
def execDestroy (cmd ctx : Nat) : State → Host.Outcome State Fault Refusal := execPkg fun p => p.destroyCtx cmd ctx

/-- RESUME_STRAND (R204). -/
def execResumeStrand (cmd ctx slot : Nat) : State → Host.Outcome State Fault Refusal :=
  execPkg fun p => p.resumeStrand cmd ctx slot

/-- KILL_STRAND (R55, R69, R372). -/
def execKillStrand (cmd ctx slot : Nat) : State → Host.Outcome State Fault Refusal := execPkg fun p => p.killStrand cmd ctx slot

/-- KILL_TREE (R372, R394). -/
def execKillTree (cmd ctx seedSeq : Nat) : State → Host.Outcome State Fault Refusal := execPkg fun p => p.killTree cmd ctx seedSeq

/-- RING_RESTART (R366). -/
def execRingRestart (cmd ctx ring : Nat) : State → Host.Outcome State Fault Refusal := execPkg fun p => p.ringRestart cmd ctx ring

/-- GANG_SET (R330, R336). -/
def execGangSet (cmd ctx : Nat) : State → Host.Outcome State Fault Refusal := execPkg fun p => p.gangSet cmd ctx

/-- TWIN_SET (R111). -/
def execTwinSet (cmd ctx index : Nat) (descriptor : BitVec 512) : State → Host.Outcome State Fault Refusal :=
  execPkg fun p => p.twinSet cmd ctx index descriptor

/-- CHAIN_WATCH (R346). -/
def execChainWatch (cmd ctx va : Nat) : State → Host.Outcome State Fault Refusal := execPkg fun p => p.chainWatch cmd ctx va

/-- CHAIN_UNWATCH (R346). -/
def execChainUnwatch (cmd ctx va : Nat) : State → Host.Outcome State Fault Refusal := execPkg fun p => p.chainUnwatch cmd ctx va

/-- DIRTY_ON (R160). -/
def execDirtyOn (cmd vf bitmap : Nat) : State → Host.Outcome State Fault Refusal := execPkg fun p => p.dirtyOn cmd vf bitmap

/-- DIRTY_ROUND (R161). -/
def execDirtyRound (cmd vf snapshot : Nat) : State → Host.Outcome State Fault Refusal := execPkg fun p => p.dirtyRound cmd vf snapshot

/-- STOP (R373). -/
def execStopVf (cmd vf : Nat) : State → Host.Outcome State Fault Refusal := execPkg fun p => p.stopVf cmd vf

/-- EXPORT (R374, R419). -/
def execExportImage (cmd vf image bytes : Nat) : State → Host.Outcome State Fault Refusal :=
  execPkg fun p => p.exportVf cmd vf image bytes

/-- IMPORT (R374, R419). -/
def execImportImage (cmd image vf : Nat) (keys : List Nat) : State → Host.Outcome State Fault Refusal :=
  execPkg fun p => p.importVf cmd image vf keys

/-- START (R375). -/
def execStartVf (cmd vf : Nat) : State → Host.Outcome State Fault Refusal := execPkg fun p => p.startVf cmd vf

/-- DIRTY_OFF (R372). -/
def execDirtyOff (cmd vf : Nat) : State → Host.Outcome State Fault Refusal := execPkg fun p => p.dirtyOff cmd vf

/-- DEVWIN_SET (R148). -/
def execDevwinSet (cmd vf list : Nat) : State → Host.Outcome State Fault Refusal := execPkg fun p => p.devwinSet cmd vf list

end Sys2Proof.Machine
end

