-- ==== Sys2Proof/Machine/Collective.lean ====
section
/-!
DEFINITION. Collective rings as the collective crews serve them (R335, R336). The crews run Skeana's collective program,
whose code the spec does not give; what it does with a request is stated here as one act of the schedule, which brings
what the crews of the other members bring. What the spec leaves open of an operation is named in log entry 77.
-/
namespace Sys2Proof.Machine

/-! ### The request (R335) -/

def cqSequence (r : Nat) : Nat := bits r 63 0
def cqCommunicator (r : Nat) : Nat := bits r 159 128
def cqOperation (r : Nat) : Nat := bits r 167 160
def cqType (r : Nat) : Nat := bits r 171 168
def cqReduction (r : Nat) : Nat := bits r 175 172
def cqPeer (r : Nat) : Nat := bits r 184 176
def cqCount (r : Nat) : Nat := bits r 255 192
def cqSend (r : Nat) : Nat := bits r 319 256
def cqReceive (r : Nat) : Nat := bits r 383 320
def cqCounter (r : Nat) : Nat := bits r 447 384

/-- A send or a receive, which two members alone take part in. -/
def cqPairwise (r : Nat) : Bool := cqOperation r == 5 || cqOperation r == 6

/-- Do two members' requests agree in operation, type, reduction and count (R336)? A send agrees with a receive. -/
def cqAgree (r x : Nat) : Bool :=
  (if cqPairwise r then cqOperation r + cqOperation x == 11 else cqOperation r == cqOperation x)
    && cqType r == cqType x && cqReduction r == cqReduction x && cqCount r == cqCount x

/-- Is a value of a request one that names nothing? -/
def cqIllegal (r : Nat) : Bool := 6 < cqOperation r || 7 < cqType r || 2 < cqReduction r || cqCounter r % 8 != 0

/-! ### The operations (R335, R336) -/

/-- Block `k` of a buffer of blocks of `n` bytes. -/
def blockOf (n k : Nat) (data : List Byte) : List Byte := (data.drop (n * k)).take n

/-- Contributions combined element by element in ascending rank order, one rounding to nearest even per step (R336). -/
def combineRanks (fmt red count : Nat) (blocks : List (List Byte)) : List Byte :=
  let e := elemBytes fmt
  (List.range count).flatMap fun m =>
    match blocks.map fun b => leNat (blockOf e m b) with
    | [] => List.replicate e 0
    | x :: rest => leBytes e (rest.foldl (Pkg.reduceValue fmt red) x)

/-- Bytes that a member of `n` takes from its send buffer. -/
def sentBytes (r own n : Nat) : Nat :=
  let size := elemBytes (cqType r) * cqCount r
  match cqOperation r with
  | 1 | 4 => n * size
  | 3 => if cqPeer r == own then size else 0
  | 6 => 0
  | _ => size

/-- What a member receives: the members' data by rank, ascending, and its own place among them. -/
def receivedBytes (r place : Nat) (data : List (Nat × List Byte)) : List Byte :=
  let size := elemBytes (cqType r) * cqCount r
  let blocks (k : Nat) : List (List Byte) := data.map fun d => blockOf size k d.2
  match cqOperation r with
  | 0 => combineRanks (cqType r) (cqReduction r) (cqCount r) (blocks 0)
  | 1 => combineRanks (cqType r) (cqReduction r) (cqCount r) (blocks place)
  | 2 => (blocks 0).flatten
  | 3 | 6 => (data.filter fun d => d.1 == cqPeer r).flatMap fun d => blockOf size 0 d.2
  | 4 => (blocks place).flatten
  | _ => []

namespace Pkg

/-- The members that take part in a request: the communicator's, or the two of a send and a receive. -/
def takePart (c : Ctx) (own r : Nat) : Option (List Nat) :=
  match c.comms.get? (cqCommunicator r) with
  | none => none
  | some members =>
    let needsPeer := cqPairwise r || cqOperation r == 3
    if !members.contains own || (needsPeer && !members.contains (cqPeer r)) then none
    else some (if cqPairwise r then members.filter fun m => m == own || m == cqPeer r else members)

/-- What the members other than this package have brought for a request, by rank; none while one is missing. -/
def peersOf (peers : List CollectivePeer) (own r : Nat) (members : List Nat) : Option (List CollectivePeer) :=
  (members.filter (· != own)).mapM fun m => peers.find? fun x =>
    x.rank == m && cqCommunicator (leNat x.request) == cqCommunicator r && cqSequence (leNat x.request) == cqSequence r

/-- A request is done: its status, then its counter, then the head of its ring (R335). -/
def endCollective (p : Pkg) (cid ring d r status : Nat) : Pkg :=
  let table := ((p.ctxs.get? cid).map fun c => crRingTable c.record).getD 0
  let p := (p.amiahWrite cid (ringAddr d (rdHead d) + 56) (leBytes 4 status)).1
  let p := match p.amiahRead cid (cqCounter r) 8 with
    | (p, some b) => if cqCounter r % 8 == 0 then (p.amiahWrite cid (cqCounter r) (leBytes 8 (leNat b + 1))).1 else p
    | (p, none) => p
  (p.amiahWrite cid (table + 64 * (16 + ring) + 8) (leBytes 8 (rdHead d + 128))).1

/-- A request whose sequence is the next of its communicator: it is refused, waits for the other members, or is done. -/
def matchCollective (p : Pkg) (cid ring d r own : Nat) (c : Ctx) (peers : List CollectivePeer) : Pkg :=
  let counted := p.updCtx cid fun c => { c with collectives := c.collectives.set (cqCommunicator r) (cqSequence r) }
  match takePart c own r with
  | none => counted.endCollective cid ring d r 2
  | some members =>
    match peersOf peers own r members with
    | none => p
    | some others =>
      if others.any fun x => !cqAgree r (leNat x.request) then counted.endCollective cid ring d r 2
      else
        match others.findSome? (·.failed) with
        | some status => counted.endCollective cid ring d r status
        | none =>
          match counted.amiahRead cid (cqSend r) (sentBytes r own members.length) with
          | (q, none) => q.endCollective cid ring d r 2
          | (q, some mine) =>
            let data := members.map fun m =>
              (m, if m == own then mine else ((others.find? fun x => x.rank == m).map (·.data)).getD [])
            match q.amiahWrite cid (cqReceive r) (receivedBytes r (members.idxOf own) data) with
            | (q, true) => q.endCollective cid ring d r 1
            | (q, false) => q.endCollective cid ring d r 2

/-- The collective crews of a resident context serve the request at the head of one of its collective rings (R335, R336). -/
def collective (p : Pkg) (cid ring : Nat) (peers : List CollectivePeer) : Pkg :=
  match p.ctxs.get? cid with
  | none => p
  | some c =>
    if crReservedCores c.record == 0 || 64 ≤ ring || (p.vfs.get c.vf {}).resident != some cid then p
    else
      match p.ringReady cid ring, p.ringDesc cid (16 + ring) with
      | (q, true), (_, some d) =>
        match q.amiahRead cid (ringAddr d (rdHead d)) 128 with
        | (q, none) => q
        | (q, some b) =>
          let r := leNat b
          let inOrder := match c.collectives.get? (cqCommunicator r) with
            | some n => cqSequence r == (n + 1) % 2 ^ 64
            | none => true
          let counted := q.updCtx cid fun c => { c with collectives := c.collectives.set (cqCommunicator r) (cqSequence r) }
          if !inOrder then q.endCollective cid ring d r 2
          else if cqIllegal r then counted.endCollective cid ring d r 2
          else q.matchCollective cid ring d r (q.ownRank cid).toNat c peers
      | (q, _), _ => q

end Pkg

end Sys2Proof.Machine
end

