-- ==== Sys2Proof/Machine/Integer.lean ====
section
/-!
DEFINITION. Integer and address instructions, opcodes 0x00 to 0x2B (R209 to R223).
-/
namespace Sys2Proof.Machine

/-! ### What each form computes in a lane -/

def fnAdd (i : LaneIn) : LaneOut := outCarry (i.xw + i.yw) (2 ^ 32 ≤ i.xw.toNat + i.yw.toNat)
def fnSub (i : LaneIn) : LaneOut := outCarry (i.xw - i.yw) (i.xw.toNat < i.yw.toNat)
def fnMul (i : LaneIn) : LaneOut := out32 (i.xw * i.yw)
def fnMulhiS (i : LaneIn) : LaneOut :=
  out32 (((i.xw.signExtend 64) * (i.yw.signExtend 64)).extractLsb' 32 32)
def fnMulhiN (i : LaneIn) : LaneOut :=
  out32 (((i.xw.setWidth 64) * (i.yw.setWidth 64)).extractLsb' 32 32)
def fnMad (i : LaneIn) : LaneOut := out32 (i.xw * i.yw + i.zw)
def fnAddc (i : LaneIn) : LaneOut :=
  outCarry (i.xw + i.yw + (if i.c then 1 else 0)) (2 ^ 32 ≤ i.xw.toNat + i.yw.toNat + i.c.toNat)
def fnSubb (i : LaneIn) : LaneOut :=
  outCarry (i.xw - i.yw - (if i.c then 1 else 0)) (i.xw.toNat < i.yw.toNat + i.c.toNat)
def fnMinS (i : LaneIn) : LaneOut := out32 (if i.xw.toInt ≤ i.yw.toInt then i.xw else i.yw)
def fnMinN (i : LaneIn) : LaneOut := out32 (if i.xw.toNat ≤ i.yw.toNat then i.xw else i.yw)
def fnMaxS (i : LaneIn) : LaneOut := out32 (if i.yw.toInt ≤ i.xw.toInt then i.xw else i.yw)
def fnMaxN (i : LaneIn) : LaneOut := out32 (if i.yw.toNat ≤ i.xw.toNat then i.xw else i.yw)
def fnAbs (i : LaneIn) : LaneOut := out32 (if i.xw.toInt < 0 then 0 - i.xw else i.xw)
def fnNeg (i : LaneIn) : LaneOut := outCarry (0 - i.xw) (i.xw != 0)
def fnAnd (i : LaneIn) : LaneOut := out32 (i.xw &&& i.yw)
def fnOr (i : LaneIn) : LaneOut := out32 (i.xw ||| i.yw)
def fnXor (i : LaneIn) : LaneOut := out32 (i.xw ^^^ i.yw)
def fnAndn (i : LaneIn) : LaneOut := out32 (i.xw &&& ~~~i.yw)
def fnNot (i : LaneIn) : LaneOut := out32 (~~~i.xw)
/-- Amounts from 32 upwards give 0 (R212). -/
def fnShl (i : LaneIn) : LaneOut := out32 (if 32 ≤ i.yw.toNat then 0 else i.xw <<< i.yw.toNat)
def fnShr (i : LaneIn) : LaneOut := out32 (if 32 ≤ i.yw.toNat then 0 else i.xw >>> i.yw.toNat)
/-- Amounts from 32 upwards give 32 copies of bit 31 (R212). -/
def fnSar (i : LaneIn) : LaneOut := out32 (i.xw.sshiftRight (min i.yw.toNat 31))
def fnRol (i : LaneIn) : LaneOut := out32 (i.xw.rotateLeft (i.yw.toNat % 32))

/-- The position and the effective width of a field descriptor (R213). -/
def bfPos (y : Word) : Nat := (y.extractLsb' 0 5).toNat
def bfWidth (y : Word) : Nat := min (y.extractLsb' 8 6).toNat (32 - bfPos y)
def bfMask (y : Word) : Word := BitVec.ofNat 32 ((2 ^ bfWidth y - 1) * 2 ^ bfPos y)
def fnBfxN (i : LaneIn) : LaneOut := out32 ((i.xw &&& bfMask i.yw) >>> bfPos i.yw)
def fnBfxS (i : LaneIn) : LaneOut :=
  out32 (BitVec.ofInt 32 (signedOf (bfWidth i.yw) ((i.xw &&& bfMask i.yw) >>> bfPos i.yw).toNat))
def fnBfi (i : LaneIn) : LaneOut :=
  out32 ((i.zw &&& ~~~bfMask i.yw) ||| ((i.xw <<< bfPos i.yw) &&& bfMask i.yw))

def popCount (x : Word) : Nat := ((List.range 32).filter x.getLsbD).length
def leadingZeros (x : Word) : Nat := (((List.range 32).find? fun k => x.getLsbD (31 - k))).getD 32
def trailingZeros (x : Word) : Nat := ((List.range 32).find? x.getLsbD).getD 32
def fnPopc (i : LaneIn) : LaneOut := out32 (BitVec.ofNat 32 (popCount i.xw))
def fnClz (i : LaneIn) : LaneOut := out32 (BitVec.ofNat 32 (leadingZeros i.xw))
def fnCtz (i : LaneIn) : LaneOut := out32 (BitVec.ofNat 32 (trailingZeros i.xw))
def fnBrev (i : LaneIn) : LaneOut := out32 i.xw.reverse

/-- The byte that a selector nibble picks from x and z (R215). -/
def permByte (x z : Word) (s : Nat) : Byte :=
  let b := (z ++ x).extractLsb' (8 * (s % 8)) 8
  if s < 8 then b else if b.getLsbD 7 then 0xFF else 0
def fnPermb (i : LaneIn) : LaneOut :=
  let pick (k : Nat) : Byte := permByte i.xw i.zw (i.yw.extractLsb' (4 * k) 4).toNat
  out32 (pick 3 ++ pick 2 ++ pick 1 ++ pick 0)

def fnSel (i : LaneIn) : LaneOut := out32 (if i.xw != 0 then i.yw else i.zw)
def fnMov (i : LaneIn) : LaneOut := out32 i.xw
def outBool (b : Bool) : LaneOut := out32 (if b then 1 else 0)
def fnCmpEq (i : LaneIn) : LaneOut := outBool (i.xw == i.yw)
def fnCmpNe (i : LaneIn) : LaneOut := outBool (i.xw != i.yw)
def fnCmpLtS (i : LaneIn) : LaneOut := outBool (i.xw.toInt < i.yw.toInt)
def fnCmpLeS (i : LaneIn) : LaneOut := outBool (i.xw.toInt ≤ i.yw.toInt)
def fnCmpLtN (i : LaneIn) : LaneOut := outBool (i.xw.toNat < i.yw.toNat)
def fnCmpLeN (i : LaneIn) : LaneOut := outBool (i.xw.toNat ≤ i.yw.toNat)

def fnAddw (i : LaneIn) : LaneOut := { val := i.x + i.y, carry := some (decide (2 ^ 64 ≤ i.x.toNat + i.y.toNat)) }
def fnSubw (i : LaneIn) : LaneOut := { val := i.x - i.y, carry := some (decide (i.x.toNat < i.y.toNat)) }
def fnMulwS (i : LaneIn) : LaneOut := { val := i.xw.signExtend 64 * i.yw.signExtend 64 }
def fnMulwN (i : LaneIn) : LaneOut := { val := i.xw.setWidth 64 * i.yw.setWidth 64 }
def fnMadwN (i : LaneIn) : LaneOut :=
  { val := i.xw.setWidth 64 * i.yw.setWidth 64 + i.z,
    carry := some (decide (2 ^ 64 ≤ i.xw.toNat * i.yw.toNat + i.z.toNat)) }

/-! ### The meanings -/

/-- ADD (R211). -/
def execAdd (d a b : Field) : State → Host.Outcome State Fault Refusal :=
  execWord 0x00 d a b (Pkg.Exe.short fnAdd)

/-- SUB (R211). -/
def execSub (d a b : Field) : State → Host.Outcome State Fault Refusal :=
  execWord 0x01 d a b (Pkg.Exe.short fnSub)

/-- MUL (R211). -/
def execMul (d a b : Field) : State → Host.Outcome State Fault Refusal :=
  execWord 0x02 d a b (Pkg.Exe.short fnMul)

/-- MULHI.S (R211). -/
def execMulhiS (d a b : Field) : State → Host.Outcome State Fault Refusal :=
  execWord 0x03 d a b (Pkg.Exe.short fnMulhiS)

/-- MULHI.N (R211). -/
def execMulhiN (d a b : Field) : State → Host.Outcome State Fault Refusal :=
  execWord 0x04 d a b (Pkg.Exe.short fnMulhiN)

/-- MAD (R211). -/
def execMad (d a b : Field) : State → Host.Outcome State Fault Refusal :=
  execWord 0x05 d a b (Pkg.Exe.short fnMad)

/-- ADDC (R211). -/
def execAddc (d a b : Field) : State → Host.Outcome State Fault Refusal :=
  execWord 0x06 d a b (Pkg.Exe.short fnAddc)

/-- SUBB (R211). -/
def execSubb (d a b : Field) : State → Host.Outcome State Fault Refusal :=
  execWord 0x07 d a b (Pkg.Exe.short fnSubb)

/-- MIN.S (R211). -/
def execMinS (d a b : Field) : State → Host.Outcome State Fault Refusal :=
  execWord 0x08 d a b (Pkg.Exe.short fnMinS)

/-- MIN.N (R211). -/
def execMinN (d a b : Field) : State → Host.Outcome State Fault Refusal :=
  execWord 0x09 d a b (Pkg.Exe.short fnMinN)

/-- MAX.S (R211). -/
def execMaxS (d a b : Field) : State → Host.Outcome State Fault Refusal :=
  execWord 0x0A d a b (Pkg.Exe.short fnMaxS)

/-- MAX.N (R211). -/
def execMaxN (d a b : Field) : State → Host.Outcome State Fault Refusal :=
  execWord 0x0B d a b (Pkg.Exe.short fnMaxN)

/-- ABS (R211). -/
def execAbs (d a b : Field) : State → Host.Outcome State Fault Refusal :=
  execWord 0x0C d a b (Pkg.Exe.short fnAbs)

/-- NEG (R211). -/
def execNeg (d a b : Field) : State → Host.Outcome State Fault Refusal :=
  execWord 0x0D d a b (Pkg.Exe.short fnNeg)

/-- AND (R212). -/
def execAnd (d a b : Field) : State → Host.Outcome State Fault Refusal :=
  execWord 0x0E d a b (Pkg.Exe.short fnAnd)

/-- OR (R212). -/
def execOr (d a b : Field) : State → Host.Outcome State Fault Refusal :=
  execWord 0x0F d a b (Pkg.Exe.short fnOr)

/-- XOR (R212). -/
def execXor (d a b : Field) : State → Host.Outcome State Fault Refusal :=
  execWord 0x10 d a b (Pkg.Exe.short fnXor)

/-- ANDN (R212). -/
def execAndn (d a b : Field) : State → Host.Outcome State Fault Refusal :=
  execWord 0x11 d a b (Pkg.Exe.short fnAndn)

/-- NOT (R212). -/
def execNot (d a b : Field) : State → Host.Outcome State Fault Refusal :=
  execWord 0x12 d a b (Pkg.Exe.short fnNot)

/-- SHL (R212). -/
def execShl (d a b : Field) : State → Host.Outcome State Fault Refusal :=
  execWord 0x13 d a b (Pkg.Exe.short fnShl)

/-- SHR (R212). -/
def execShr (d a b : Field) : State → Host.Outcome State Fault Refusal :=
  execWord 0x14 d a b (Pkg.Exe.short fnShr)

/-- SAR (R212). -/
def execSar (d a b : Field) : State → Host.Outcome State Fault Refusal :=
  execWord 0x15 d a b (Pkg.Exe.short fnSar)

/-- ROL (R212). -/
def execRol (d a b : Field) : State → Host.Outcome State Fault Refusal :=
  execWord 0x16 d a b (Pkg.Exe.short fnRol)

/-- BFX.S (R213). -/
def execBfxS (d a b : Field) : State → Host.Outcome State Fault Refusal :=
  execWord 0x17 d a b (Pkg.Exe.short fnBfxS)

/-- BFX.N (R213). -/
def execBfxN (d a b : Field) : State → Host.Outcome State Fault Refusal :=
  execWord 0x18 d a b (Pkg.Exe.short fnBfxN)

/-- BFI (R213). -/
def execBfi (d a b : Field) : State → Host.Outcome State Fault Refusal :=
  execWord 0x19 d a b (Pkg.Exe.short fnBfi)

/-- POPC (R214). -/
def execPopc (d a b : Field) : State → Host.Outcome State Fault Refusal :=
  execWord 0x1A d a b (Pkg.Exe.short fnPopc)

/-- CLZ (R214). -/
def execClz (d a b : Field) : State → Host.Outcome State Fault Refusal :=
  execWord 0x1B d a b (Pkg.Exe.short fnClz)

/-- CTZ (R214). -/
def execCtz (d a b : Field) : State → Host.Outcome State Fault Refusal :=
  execWord 0x1C d a b (Pkg.Exe.short fnCtz)

/-- BREV (R214). -/
def execBrev (d a b : Field) : State → Host.Outcome State Fault Refusal :=
  execWord 0x1D d a b (Pkg.Exe.short fnBrev)

/-- PERMB (R215). -/
def execPermb (d a b : Field) : State → Host.Outcome State Fault Refusal :=
  execWord 0x1E d a b (Pkg.Exe.short fnPermb)

/-- SEL (R216). -/
def execSel (d a b : Field) : State → Host.Outcome State Fault Refusal :=
  execWord 0x1F d a b (Pkg.Exe.short fnSel)

/-- MOV (R216). -/
def execMov (d a b : Field) : State → Host.Outcome State Fault Refusal :=
  execWord 0x20 d a b (Pkg.Exe.short fnMov)

/-- CMP.EQ (R217). -/
def execCmpEq (d a b : Field) : State → Host.Outcome State Fault Refusal :=
  execWord 0x21 d a b (Pkg.Exe.short fnCmpEq)

/-- CMP.NE (R217). -/
def execCmpNe (d a b : Field) : State → Host.Outcome State Fault Refusal :=
  execWord 0x22 d a b (Pkg.Exe.short fnCmpNe)

/-- CMP.LT.S (R217). -/
def execCmpLtS (d a b : Field) : State → Host.Outcome State Fault Refusal :=
  execWord 0x23 d a b (Pkg.Exe.short fnCmpLtS)

/-- CMP.LE.S (R217). -/
def execCmpLeS (d a b : Field) : State → Host.Outcome State Fault Refusal :=
  execWord 0x24 d a b (Pkg.Exe.short fnCmpLeS)

/-- CMP.LT.N (R217). -/
def execCmpLtN (d a b : Field) : State → Host.Outcome State Fault Refusal :=
  execWord 0x25 d a b (Pkg.Exe.short fnCmpLtN)

/-- CMP.LE.N (R217). -/
def execCmpLeN (d a b : Field) : State → Host.Outcome State Fault Refusal :=
  execWord 0x26 d a b (Pkg.Exe.short fnCmpLeN)

/-- ADDW (R218). -/
def execAddw (d a b : Field) : State → Host.Outcome State Fault Refusal :=
  execWord 0x27 d a b (Pkg.Exe.short fnAddw)

/-- SUBW (R218). -/
def execSubw (d a b : Field) : State → Host.Outcome State Fault Refusal :=
  execWord 0x28 d a b (Pkg.Exe.short fnSubw)

/-- MULW.S (R218). -/
def execMulwS (d a b : Field) : State → Host.Outcome State Fault Refusal :=
  execWord 0x29 d a b (Pkg.Exe.short fnMulwS)

/-- MULW.N (R218). -/
def execMulwN (d a b : Field) : State → Host.Outcome State Fault Refusal :=
  execWord 0x2A d a b (Pkg.Exe.short fnMulwN)

/-- MADW.N (R218). -/
def execMadwN (d a b : Field) : State → Host.Outcome State Fault Refusal :=
  execWord 0x2B d a b (Pkg.Exe.short fnMadwN)

end Sys2Proof.Machine
end

