-- ==== Sys2Proof/Machine/Platform.lean ====
section
/-!
DEFINITION. Reset and measured boot, attestation, link training, management, error counts, register writes and the
application cores (R7, R16, R319, R408 to R415).
-/
namespace Sys2Proof.Machine

namespace State

/-- Report on the management interface. -/
def report (s : State) (m : Msg) : State := { s with plat := { s.plat with reports := s.plat.reports ++ [m] } }

/-! ### Boot (R408 to R410) -/

/-- Is a public key Skeana's: does it have the digest that the ROM holds, taken at the 64 bytes of the boot's other digests (R408,
R409, log entry 94)? -/
def skeanaKey (key : List Byte) : Bool := shake256 key 64 == Config.romDigest

/-- Does a stage's image pass its signature check and its version check? Skeana's key travels with the image; the owner's is fused. -/
def soundImage (s : State) (stage : Nat) (i : BootImage) : Bool :=
  let signed :=
    if stage < 2 then skeanaKey i.key && Config.falconVerify i.key i.bytes i.signature
    else if stage == 2 then s.plat.ownerKey.all fun k => Config.falconVerify k i.bytes i.signature
    else true
  signed && s.plat.rollback.get stage 0 ≤ i.version

/-- The boot from a stage on, `n` stages: it stops at the first stage that fails. -/
def bootStages (flash : List BootImage) : Nat → Nat → State → State
  | 0, _, s => s
  | n + 1, stage, s =>
    match flash.find? fun i => i.stage == stage with
    | none => ({ s with plat := { s.plat with bootFailed := some stage } }).report (.bootFailed stage)
    | some i =>
      if s.soundImage stage i then
        let s := s.extend stage (shake256 i.bytes 64)
        bootStages flash n (stage + 1) { s with plat := { s.plat with booted := stage + 1 } }
      else ({ s with plat := { s.plat with bootFailed := some stage } }).report (.bootFailed stage)

/-- The platform at the start of a boot: the fuses, the strap as it is sampled, the identity key, which is the same at every boot,
and this boot's attestation key with its certificate (R410, R413). -/
def bootPlatform (x : Platform) : Platform :=
  let identity := Config.identityKey Config.fusedSecret
  let attestation := Config.attestationKey (x.boots + 1)
  { boots := x.boots + 1, rollback := x.rollback, ownerKey := x.ownerKey, corrected := x.corrected
    strap := x.strap, rootPort := x.strap
    identityKey := identity, attestationKey := attestation
    certificate := Config.falconSign identity (Config.falconPublic attestation) }

/-- PACKAGE_RESET: everything but the fuses is as after reset; then the measured boot, staged images first. -/
def packageReset (s : State) (flash : List BootImage) : State :=
  let images := s.plat.staged.reverse ++ flash
  let plat := bootPlatform s.plat
  bootStages images 4 0 { agenda := s.agenda, pkg := { fresh := s.pkg.fresh }, plat := plat }

/-! ### Attestation (R411) -/

/-- The key IDs assigned to a function, ascending. -/
def keysOf (s : State) (vf : Nat) : List Nat := (s.pkg.keyVf.filter fun e => e.2 == vf).map (·.1)

/-- The list of key IDs as 16-bit values. -/
def keyBytes (l : List Nat) : List Byte := l.flatMap (leBytes 2)

/-- The HBM share of the report. -/
def reportedShare (s : State) (vf : Nat) : Nat :=
  let h := s.hbmShare vf 0
  if (List.range 12).all fun k => s.hbmShare vf k == h then h else Config.reportShare s.pkg.fresh

/-- The 384 bytes of the report. -/
def reportBytes (s : State) (vf : Nat) (nonce : List Byte) : List Byte :=
  let keys := s.keysOf vf
  leBytes 1 vf ++ [1] ++ leBytes 14 0
    ++ shake256 (keyBytes keys) 32
    ++ leBytes 1 (s.pkg.vfs.get vf {}).gen
    ++ leBytes 3 (keys.headD 0 + keys.length * 2 ^ 13)
    ++ leBytes 2 (s.functionLimit vf) ++ leBytes 1 (s.reportedShare vf) ++ leBytes 1 (s.fabricShare vf)
    ++ leBytes 8 s.pkg.time
    ++ (List.range 4).flatMap (fun m => s.plat.measurements.get m (List.replicate 64 0))
    ++ nonce

/-- The report, its signature and the key IDs. -/
def attestation (s : State) (vf : Nat) (nonce : List Byte) : List Byte :=
  let r := s.reportBytes vf nonce
  r ++ (Config.falconSign s.plat.attestationKey (shake256 r 64)).take 1280 ++ keyBytes (s.keysOf vf)

/-- ATTEST. -/
def attest (s : State) (cmd vf nonce address : Nat) : State :=
  if 8 ≤ vf then s.updPkg fun p => p.answerCmd cmd cmdRefused
  else
    let bytes := s.attestation vf (s.pkg.hostMem.readBytes nonce 64)
    s.updPkg fun p => { p with hostMem := p.hostMem.writeBytes address bytes }.answerCmd cmd cmdDone

/-- SPDM_ATTESTATION: the management interface answers after a boot that failed, too (R408). -/
def spdm (s : State) (vf : Nat) (nonce : BitVec 512) : State :=
  if 8 ≤ vf then s else s.report (.attestation (s.attestation vf (leBytes 64 nonce.toNat)))

/-! ### Links (R319, R413) -/

/-- PCIE_LINK_TRAIN: a rate in units of 0.1 GT/s, and a width. The role is that of the strap, as it was sampled at reset (R413). -/
def trainPcie (s : State) (rootPort : Bool) (rate width : Nat) : State :=
  if [25, 50, 80, 160, 320, 640, 1280].contains rate && [1, 2, 4, 8, 16].contains width && rootPort == s.plat.rootPort then
    { s with plat := { s.plat with pcie := some (rootPort, rate, width) } }
  else s

/-- FABRIC_LINK_TRAIN: the yard port number that the link reads. -/
def trainFabric (s : State) (port yardPort : Nat) : State :=
  if 48 ≤ port || 512 ≤ yardPort then s
  else
    { s with
      pkg := { s.pkg with yardPort := yardPort, planesDown := s.pkg.planesDown.filter (· != port) }
      plat := { s.plat with trainedPorts := (s.plat.trainedPorts.filter (· != port)) ++ [port] } }

/-! ### Management (R414, R415) -/

/-- PLDM_FIRMWARE_STAGE. -/
def stageFirmware (s : State) (i : BootImage) : State := { s with plat := { s.plat with staged := s.plat.staged ++ [i] } }

/-- ERROR_COUNT_READ. -/
def readErrors (s : State) (unit : Nat) : State := s.report (.errorCounts unit (s.plat.corrected.get unit 0))

/-- A corrected error is counted. -/
def countCorrected (s : State) (unit : Nat) : State :=
  { s with plat := { s.plat with corrected := s.plat.corrected.set unit (s.plat.corrected.get unit 0 + 1) } }

/-! ### Register writes (R7) -/

/-- The writable bits of cf (R175). -/
def cfWritable : Word := 0x7FFF

/-- REGISTER_WRITE: read-only and reserved fields keep their values, and an illegal value changes nothing. -/
def writeRegister (s : State) (reg : RegName) (value : BitVec 64) : State :=
  match reg with
  | .cf sid lane =>
    s.updPkg fun p => p.updStrand sid fun st => st.mapCf (fun j => j == lane) fun _ _ => value.setWidth 32 &&& cfWritable
  | .mode sid =>
    s.updPkg fun p => p.updStrand sid fun st =>
      if modeLegal st.nregs (value &&& modeMask) then { st with mode := value &&& modeMask } else st
  | .slope cluster => s.setStep cluster (bits value.toNat 6 0)
  | .matrixStatus _ => s

/-! ### Application cores (R16, R120) -/

/-- The pieces of a byte list that starts at an address, cut at line boundaries; `n` bounds their number. -/
def linePieces : Nat → Nat → List Byte → List (Nat × List Byte)
  | 0, _, _ => []
  | n + 1, pa, b =>
    if b.isEmpty then []
    else (pa, b.take (128 - pa % 128)) :: linePieces n (pa + (128 - pa % 128)) (b.drop (128 - pa % 128))

/-- APPLICATION_CORE_ACCESS: a load or a store of package HBM by the host die. -/
def hostAccess (p : Pkg) (a : HostAccess) : Pkg :=
  match a with
  | .load pa n _ =>
    if hbmTop < pa + n then p
    else
      let (p, b) := p.readL2 pa n
      { p with hostLoads := p.hostLoads ++ [(pa, b)] }
  | .store pa b _ =>
    if hbmTop < pa + b.length then p
    else (linePieces (b.length + 1) pa b).foldl (fun p x => p.writeL2 none x.1 x.2) p

end State

/-! ### The meanings -/

/-- PACKAGE_RESET (R408). -/
def execPackageReset (flash : List BootImage) : State → Host.Outcome State Fault Refusal :=
  execManage fun s => s.packageReset flash

/-- PCIE_LINK_TRAIN (R413). -/
def execPcieLinkTrain (rootPort : Bool) (rate width : Nat) : State → Host.Outcome State Fault Refusal :=
  execState fun s => s.trainPcie rootPort rate width

/-- FABRIC_LINK_TRAIN (R319). -/
def execFabricLinkTrain (port yardPort : Nat) : State → Host.Outcome State Fault Refusal :=
  execState fun s => s.trainFabric port yardPort

/-- ATTEST (R411). -/
def execAttest (cmd vf nonce report : Nat) : State → Host.Outcome State Fault Refusal :=
  execState fun s => s.attest cmd vf nonce report

/-- SPDM_ATTESTATION (R411). -/
def execSpdmAttestation (vf : Nat) (nonce : BitVec 512) : State → Host.Outcome State Fault Refusal :=
  execManage fun s => s.spdm vf nonce

/-- PLDM_FIRMWARE_STAGE (R414). -/
def execPldmFirmwareStage (image : BootImage) : State → Host.Outcome State Fault Refusal :=
  execManage fun s => s.stageFirmware image

/-- ERROR_COUNT_READ (R415). -/
def execErrorCountRead (unit : Nat) : State → Host.Outcome State Fault Refusal := execManage fun s => s.readErrors unit

/-- REGISTER_WRITE (R7). -/
def execRegisterWrite (reg : RegName) (value : BitVec 64) : State → Host.Outcome State Fault Refusal :=
  execState fun s => s.writeRegister reg value

/-- APPLICATION_CORE_ACCESS (R16). -/
def execApplicationCoreAccess (a : HostAccess) : State → Host.Outcome State Fault Refusal :=
  execPkg fun p => State.hostAccess p a

end Sys2Proof.Machine
end

