-- ==== Sys2Proof/Machine/SmallMatrix.lean ====
section
/-!
DEFINITION. Small-matrix instructions, opcodes 0x70 to 0x7F (R280 to R296).
-/
namespace Sys2Proof.Machine

open Pkg (Exe)

/-! ### Elements -/

/-- The element format of a mode. -/
def smFmt (m : DWord) : Fmt := if modeFP64 m then fp64 else fp32
/-- Registers of an element. -/
def smRegs (m : DWord) : Nat := if modeFP64 m then 2 else 1

/-- `count` consecutive elements of a lane's footprint. -/
def smRead (x : Exe) (c count j : Nat) : List Nat :=
  let k := smRegs x.st.mode
  (List.range count).map fun i => x.env.getN k (c + k * i) j

/-- The register writes of a lane's result elements. -/
def smWrites (x : Exe) (c j : Nat) (vals : List Nat) : List (Nat × Nat × Word) :=
  let k := smRegs x.st.mode
  vals.zipIdx.flatMap fun e =>
    (List.range k).map fun r => (c + k * e.2 + r, j, BitVec.ofNat 32 (e.1 / 2 ^ (32 * r)))

/-- What a lane computes: its result elements in row-major order, its flags, the lowest bad column, a pivot word. -/
structure SmOut where
  vals : List Nat
  flags : Nat := 0
  col : Option Nat := none
  pivot : Nat := 0

/-- A matrix of order `n` as a row-major list. -/
def smAt (n : Nat) (m : List Nat) (r c : Nat) : Nat := m.getD (n * r + c) 0

/-- Issue a flag-B small-matrix form over the On lanes (R285). A pivot word in em comes from Low() (R27). -/
def smLater (x : Exe) (pivotReg : Option Nat) (f : Nat → SmOut) : Eff :=
  let res := x.st.onLanes.map fun j => (j, f j)
  let pivots := match pivotReg with
    | none => []
    | some b =>
      if 125 ≤ b then [(b, x.st.low, BitVec.ofNat 32 (f x.st.low).pivot)]
      else res.map fun e => (b, e.1, BitVec.ofNat 32 e.2.pivot)
  x.later (x.form.writes (modeSizes x.st.mode) x.d x.a x.b)
    (res.flatMap (fun e => smWrites x x.d e.1 e.2.vals) ++ pivots)
    (res.filterMap fun e => if e.2.flags == 0 then none else some (e.1, BitVec.ofNat 32 e.2.flags))
    (res.filterMap fun e => e.2.col.map fun c => (e.1, BitVec.ofNat 32 c))

/-! ### Sums of products (R287) -/

/-- Ascending sum: a plain product, then fused multiply-adds. -/
def smDot (f : Fmt) (mode : Nat) : List (Nat × Nat) → Nat × Nat
  | [] => (0, 0)
  | (a, b) :: rest =>
    let first := fMul f mode a b
    rest.foldl (fun acc p => let r := fFma f mode p.1 p.2 acc.1; (r.bits, acc.2 ||| r.flags)) (first.bits, first.flags)

/-- t minus products, in ascending order: FMA(-x, y, t). -/
def smMinus (f : Fmt) (mode t : Nat) (ps : List (Nat × Nat)) : Nat × Nat :=
  ps.foldl (fun acc p => let r := fFma f mode (negate f p.1) p.2 acc.1; (r.bits, acc.2 ||| r.flags)) (t, 0)

/-- A product form: the factors of term k of element (r, c). -/
def smProduct (x : Exe) (rows cols : Nat) (term : Nat → Nat → Nat → Nat → Nat × Nat) : Eff :=
  let n := modeOrder x.st.mode
  smLater x none fun j =>
    let es := (List.range rows).flatMap fun r => (List.range cols).map fun c =>
      smDot (smFmt x.st.mode) (modeRound x.st.mode) ((List.range n).map fun k => term j r c k)
    { vals := es.map (·.1), flags := es.foldl (fun fl e => fl ||| e.2) 0 }

/-- The matrix that operand a or b names, in a lane. -/
def smMat (x : Exe) (c j : Nat) : List Nat :=
  let n := modeOrder x.st.mode
  smRead x c (n * n) j

def bodySmmul (x : Exe) : Eff :=
  let n := modeOrder x.st.mode
  smProduct x n n fun j r c k => (smAt n (smMat x x.a j) r k, smAt n (smMat x x.b j) k c)
def bodySmmult (x : Exe) : Eff :=
  let n := modeOrder x.st.mode
  smProduct x n n fun j r c k => (smAt n (smMat x x.a j) r k, smAt n (smMat x x.b j) c k)
def bodySmtmul (x : Exe) : Eff :=
  let n := modeOrder x.st.mode
  smProduct x n n fun j r c k => (smAt n (smMat x x.a j) k r, smAt n (smMat x x.b j) k c)
def bodySmmv (x : Exe) : Eff :=
  let n := modeOrder x.st.mode
  smProduct x n 1 fun j r _ k => (smAt n (smMat x x.a j) r k, (smRead x x.b n j).getD k 0)

/-! ### Element-wise forms (R286) -/

/-- An element-wise form on the elements of a and a second value. -/
def smMap (x : Exe) (second : Nat → Nat → Nat) (f : Nat → Nat → FRes) : Eff :=
  smLater x none fun j =>
    let rs := (smMat x x.a j).zipIdx.map fun e => f e.1 (second j e.2)
    { vals := rs.map (·.bits), flags := rs.foldl (fun fl r => fl ||| r.flags) 0 }

def bodySmadd (x : Exe) : Eff :=
  smMap x (fun j i => (smMat x x.b j).getD i 0) (fAdd (smFmt x.st.mode) (modeRound x.st.mode))
def bodySmsub (x : Exe) : Eff :=
  smMap x (fun j i => (smMat x x.b j).getD i 0) (fSub (smFmt x.st.mode) (modeRound x.st.mode))
def bodySmscl (x : Exe) : Eff :=
  smMap x (fun j _ => x.env.getN (smRegs x.st.mode) x.b j) (fMul (smFmt x.st.mode) (modeRound x.st.mode))
def bodySmtrn (x : Exe) : Eff :=
  let n := modeOrder x.st.mode
  smLater x none fun j =>
    { vals := (List.range n).flatMap fun r => (List.range n).map fun c => smAt n (smMat x x.a j) c r }
def bodySmcopy (x : Exe) : Eff := smLater x none fun j => { vals := smMat x x.a j }
/-- 1.0 of a format. -/
def smOne (f : Fmt) : Nat := f.bias * 2 ^ f.frac
def bodySmid (x : Exe) : Eff :=
  let n := modeOrder x.st.mode
  smLater x none fun _ =>
    { vals := (List.range n).flatMap fun r => (List.range n).map fun c =>
        if x.b == 0 && r == c then smOne (smFmt x.st.mode) else 0 }

/-! ### Factorisations (R288 to R290) -/

/-- τ = 2^-TP, with TP at most 149 in FP32 (R288). -/
def smTau (m : DWord) : Nat :=
  let tp := if modeFP64 m then modeTP m else min (modeTP m) 149
  (roundTo (smFmt m) 0 ⟨false, 1, -(tp : Int), false⟩).bits

/-- A factorisation in progress: its working matrix, flags, lowest bad column and permutation. -/
structure Factor where
  w : List Nat
  flags : Nat := 0
  col : Option Nat := none
  perm : List Nat := []

def Factor.put (s : Factor) (n r c : Nat) (v fl : Nat) : Factor :=
  { s with w := s.w.set (n * r + c) v, flags := s.flags ||| fl }

/-- Mark a bad pivot in a column (R288). -/
def Factor.bad (s : Factor) (c : Nat) (fl : Word) : Factor :=
  { s with flags := s.flags ||| fl.toNat, col := some (s.col.getD c) }

/-- Column `c` of SMCHOL (R289). -/
def cholColumn (f : Fmt) (mode tau n : Nat) (s : Factor) (c : Nat) : Factor :=
  let l (r k : Nat) := smAt n s.w r k
  let d := smMinus f mode (l c c) ((List.range c).map fun k => (l c k, l c k))
  let isBad := (fCmp f .le d.1 tau).bits == 1
  let root := fSqrt f mode (if isBad then tau else d.1)
  let s := s.put n c c root.bits (d.2 ||| root.flags)
  let s := if isBad then s.bad c cfNP else s
  (List.range n).foldl (fun s r =>
    if r ≤ c then s
    else
      let t := smMinus f mode (smAt n s.w r c) ((List.range c).map fun k => (smAt n s.w r k, smAt n s.w c k))
      let q := fDiv f mode t.1 (smAt n s.w c c)
      s.put n r c q.bits (t.2 ||| q.flags)) s

/-- NV for a NaN among the elements read (R285). -/
def nanRead (f : Fmt) (l : List Nat) : Nat := if l.any f.isNaN then flNV else 0

/-- SMCHOL of one lane. -/
def cholesky (m : DWord) (a : List Nat) : SmOut :=
  let n := modeOrder m
  let f := smFmt m
  let lower := (List.range (n * n)).filter fun i => i % n ≤ i / n
  let s := (List.range n).foldl (cholColumn f (modeRound m) (smTau m) n) { w := a }
  { vals := s.w.zipIdx.map fun e => if e.2 / n < e.2 % n then 0 else e.1,
    flags := s.flags ||| nanRead f (lower.map fun i => a.getD i 0), col := s.col }

def bodySmchol (x : Exe) : Eff := smLater x none fun j => cholesky x.st.mode (smMat x x.d j)

/-- The pivot row of column `c`: the lowest row at or below it whose magnitude is largest, NaNs left out (R290). -/
def luPivot (f : Fmt) (n : Nat) (w : List Nat) (c : Nat) : Nat :=
  let best := (List.range n).foldl (fun (acc : Option (Nat × Nat)) r =>
    let v := smAt n w r c
    if r < c || f.isNaN v then acc
    else match acc with
      | some b => if b.2 < f.mag v then some (r, f.mag v) else acc
      | none => some (r, f.mag v)) none
  (best.map (·.1)).getD c

/-- Exchange rows `p` and `c`. -/
def swapRows (n p c : Nat) (w : List Nat) : List Nat :=
  (List.range (n * n)).map fun i =>
    let r := i / n
    smAt n w (if r == p then c else if r == c then p else r) (i % n)

def swapEntries (p c : Nat) (l : List Nat) : List Nat :=
  (List.range l.length).map fun i => l.getD (if i == p then c else if i == c then p else i) 0

/-- Column `c` of SMLU (R290). -/
def luColumn (f : Fmt) (mode tau n : Nat) (s : Factor) (c : Nat) : Factor :=
  let p := luPivot f n s.w c
  let s := { s with w := swapRows n p c s.w, perm := swapEntries p c s.perm }
  let v := smAt n s.w c c
  let s := if f.mag v ≤ tau then
      (s.put n c c (if f.isZero v then tau else f.signed (f.isNeg v) tau) 0).bad c cfSG
    else s
  (List.range n).foldl (fun s r =>
    if r ≤ c then s
    else
      let q := fDiv f mode (smAt n s.w r c) (smAt n s.w c c)
      let s := s.put n r c q.bits q.flags
      (List.range n).foldl (fun s k =>
        if k ≤ c then s
        else
          let e := fFma f mode (negate f (smAt n s.w r c)) (smAt n s.w c k) (smAt n s.w r k)
          s.put n r k e.bits e.flags) s) s

/-- The pivot word of a permutation (R290). -/
def pivotWord (perm : List Nat) : Nat := perm.zipIdx.foldl (fun acc e => acc + e.1 * 2 ^ (3 * e.2)) 0

/-- SMLU of one lane. -/
def luFactor (m : DWord) (a : List Nat) : SmOut :=
  let n := modeOrder m
  let f := smFmt m
  let s := (List.range n).foldl (luColumn f (modeRound m) (smTau m) n) { w := a, perm := List.range n }
  { vals := s.w, flags := s.flags ||| nanRead f a, col := s.col, pivot := pivotWord s.perm }

def bodySmlu (x : Exe) : Eff := smLater x (some x.b) fun j => luFactor x.st.mode (smMat x x.d j)

/-! ### Solutions and determinants (R291 to R293) -/

/-- The permutation fields of a pivot word. -/
def pivotFields (n w : Nat) : List Nat := (List.range n).map fun i => bits w (3 * i + 2) (3 * i)

/-- Is a pivot word valid for order n (R290)? -/
def pivotValid (n w : Nat) : Bool :=
  let fs := pivotFields n w
  (List.range n).all (fun i => fs.contains i) && w / 2 ^ (3 * n) == 0

/-- A substitution over the rows in a given order: row i takes a start value, subtracts the products with the rows
done before, and divides by the diagonal if told to. -/
def substitute (f : Fmt) (mode n : Nat) (order : List Nat) (start : Nat → Nat) (coef : Nat → Nat → Nat)
    (before : Nat → Nat → Bool) (divide : Bool) : List Nat × Nat :=
  order.foldl (fun acc i =>
    let ks := (List.range n).filter fun k => before k i
    let t := smMinus f mode (start i) (ks.map fun k => (coef i k, acc.1.getD k 0))
    if divide then
      let q := fDiv f mode t.1 (coef i i)
      (acc.1.set i q.bits, acc.2 ||| t.2 ||| q.flags)
    else (acc.1.set i t.1, acc.2 ||| t.2)) (List.replicate n 0, 0)

/-- SMSOLV of one lane: Cholesky factors where `pivot` is none (R291). -/
def smSolve (m : DWord) (a d : List Nat) (pivot : Option Nat) : SmOut :=
  let n := modeOrder m
  let f := smFmt m
  let mode := modeRound m
  let up := List.range n
  let down := up.reverse
  match pivot with
  | none =>
    let l := smAt n a
    let y := substitute f mode n up (fun i => d.getD i 0) l (fun k i => k < i) true
    let z := substitute f mode n down (fun i => y.1.getD i 0) (fun i k => l k i) (fun k i => i < k) true
    let lower := (List.range (n * n)).filter fun i => i % n ≤ i / n
    { vals := z.1, flags := y.2 ||| z.2 ||| nanRead f (d ++ lower.map fun i => a.getD i 0) }
  | some w =>
    let fs := pivotFields n w
    let y := substitute f mode n up (fun i => d.getD (fs.getD i 0) 0) (smAt n a) (fun k i => k < i) false
    let z := substitute f mode n down (fun i => y.1.getD i 0) (smAt n a) (fun k i => i < k) true
    { vals := z.1, flags := y.2 ||| z.2 ||| nanRead f (d ++ a) }

/-- Is a permutation odd: it has an odd number of inversions. -/
def oddPerm (l : List Nat) : Bool :=
  (((List.range l.length).flatMap fun i => (List.range i).filter fun k => l.getD i 0 < l.getD k 0).length) % 2 == 1

/-- SMDET of one lane (R292). -/
def smDet (m : DWord) (a : List Nat) (pivot : Option Nat) : SmOut :=
  let n := modeOrder m
  let f := smFmt m
  let mode := modeRound m
  let g := (List.range (n - 1)).foldl (fun (acc : Nat × Nat) i =>
    let r := fMul f mode acc.1 (smAt n a (i + 1) (i + 1)); (r.bits, acc.2 ||| r.flags)) (smAt n a 0 0, 0)
  match pivot with
  | none => let r := fMul f mode g.1 g.1; { vals := [r.bits], flags := g.2 ||| r.flags }
  | some w => { vals := [if oddPerm (pivotFields n w) then negate f g.1 else g.1], flags := g.2 }

/-- The pivot word of a lane, unless b is the code of zero (R282). -/
def pivotOf (x : Exe) (j : Nat) : Option Nat := if x.b == 119 then none else some (x.env.get x.b j).toNat

/-- A form that takes a pivot word: Illegal Operand where an On lane's word is invalid (R293). -/
def withPivot (x : Exe) (k : Eff) : Eff :=
  let n := modeOrder x.st.mode
  match x.st.onLanes.filter (fun j => match pivotOf x j with | some w => !pivotValid n w | none => false) with
  | [] => k
  | bad => .trap x.p { cause := 0x03, lanes := bad }

def bodySmsolv (x : Exe) : Eff :=
  withPivot x (smLater x none fun j =>
    smSolve x.st.mode (smMat x x.a j) (smRead x x.d (modeOrder x.st.mode) j) (pivotOf x j))

/-- SMDET; a result in em comes from Low() only (R27). Where Low() is not On its pivot word is not checked (R293), and of an invalid
one the spec does not say whether its permutation is even: its fields are counted as they stand, the model's choice (log entry
103). -/
def bodySmdet (x : Exe) : Eff :=
  withPivot x
    (let res (j : Nat) := smDet x.st.mode (smMat x x.a j) (pivotOf x j)
     let js := if 125 ≤ x.d then [x.st.low] else x.st.onLanes
     x.later (x.form.writes (modeSizes x.st.mode) x.d x.a x.b ++ (if 100 ≤ x.d then [x.d] else []))
       (js.flatMap fun j => smWrites x x.d j (res j).vals)
       (x.st.onLanes.map fun j => (j, BitVec.ofNat 32 (res j).flags)) [])

/-! ### Loads and stores (R283, R284) -/

/-- The accesses of the On lanes, element by element: the lane, the element and its byte offset. -/
def smElements (x : Exe) : List (Nat × Nat × Nat) :=
  let n := modeOrder x.st.mode
  let es := if modeFP64 x.st.mode then 8 else 4
  let count := if x.b % 4 == 1 then n else n * n
  x.st.onLanes.flatMap fun j => (List.range count).map fun e => (j, e, es * e)

/-- The access of one element at a location. -/
def smAcc (x : Exe) (store : Bool) (e : Nat × Nat × Nat) (l : Loc) : LaneAcc :=
  let k := smRegs x.st.mode
  { lane := e.1, reg := x.d + k * e.2.1, loc := l, bytes := 4 * k,
    data := if store then storeData x (x.d + k * e.2.1) k (4 * k) e.1 else [] }

/-- A trap names the address that its first faulting lane formed, whichever element of the lane's footprint failed (R206). -/
def atLane (addr : Nat → Nat) (e : Eff) : Eff :=
  match e with
  | .trap p t => .trap p { t with addr := addr (t.lanes.headD 0) }
  | e => e

/-- SMLD and SMST: the checks, then one operation over all elements; none may go to a device range (R284). -/
def bodySmMem (store : Bool) (x : Exe) : Eff :=
  let k := smRegs x.st.mode
  let es := smElements x
  let dests := if store then [] else x.form.writes (modeSizes x.st.mode) x.d x.a x.b
  let addr (j : Nat) : Nat := (x.env.opd x.form.a x.a j).toNat
  let issue (p : Pkg) (entry : Bool) (ls : List Loc) : Eff :=
    let accs := (es.zip ls).map fun e => smAcc x store e.1 e.2
    p.issueOp x dests entry (if store then .store (x.b / 4 % 4) accs else .load (3 + k) (x.b / 4 % 4) accs)
  if x.b < 64 then
    withScratch x 4 (4 * k) (es.map fun e =>
        ⟨e.1, addr e.1, addr e.1 + e.2.2, 4 * k, ldSlice (x.p.descOf x.st), .lane x.sid e.1 (addr e.1 + e.2.2)⟩)
      fun p accs => issue p false (accs.map (·.loc))
  else
    atLane addr (Pkg.withGlobal x (4 * k) { if store then needWrite else needRead with noDev := true }
      (es.map fun e => ⟨e.1, addr e.1 + e.2.2⟩) fun p ls => issue p true ls)

/-! ### The meanings -/

/-- SMLD (R284). -/
def execSmld (d a b : Field) : State → Host.Outcome State Fault Refusal :=
  execWord 0x70 d a b (bodySmMem false)

/-- SMST (R284). -/
def execSmst (d a b : Field) : State → Host.Outcome State Fault Refusal :=
  execWord 0x71 d a b (bodySmMem true)

/-- SMMUL (R287). -/
def execSmmul (d a b : Field) : State → Host.Outcome State Fault Refusal :=
  execWord 0x72 d a b bodySmmul

/-- SMMULT (R287). -/
def execSmmult (d a b : Field) : State → Host.Outcome State Fault Refusal :=
  execWord 0x73 d a b bodySmmult

/-- SMTMUL (R287). -/
def execSmtmul (d a b : Field) : State → Host.Outcome State Fault Refusal :=
  execWord 0x74 d a b bodySmtmul

/-- SMADD (R286). -/
def execSmadd (d a b : Field) : State → Host.Outcome State Fault Refusal :=
  execWord 0x75 d a b bodySmadd

/-- SMSUB (R286). -/
def execSmsub (d a b : Field) : State → Host.Outcome State Fault Refusal :=
  execWord 0x76 d a b bodySmsub

/-- SMSCL (R286). -/
def execSmscl (d a b : Field) : State → Host.Outcome State Fault Refusal :=
  execWord 0x77 d a b bodySmscl

/-- SMTRN (R286). -/
def execSmtrn (d a b : Field) : State → Host.Outcome State Fault Refusal :=
  execWord 0x78 d a b bodySmtrn

/-- SMMV (R287). -/
def execSmmv (d a b : Field) : State → Host.Outcome State Fault Refusal :=
  execWord 0x79 d a b bodySmmv

/-- SMCHOL (R289). -/
def execSmchol (d a b : Field) : State → Host.Outcome State Fault Refusal :=
  execWord 0x7A d a b bodySmchol

/-- SMLU (R290). -/
def execSmlu (d a b : Field) : State → Host.Outcome State Fault Refusal :=
  execWord 0x7B d a b bodySmlu

/-- SMSOLV (R291). -/
def execSmsolv (d a b : Field) : State → Host.Outcome State Fault Refusal :=
  execWord 0x7C d a b bodySmsolv

/-- SMDET (R292). -/
def execSmdet (d a b : Field) : State → Host.Outcome State Fault Refusal :=
  execWord 0x7D d a b bodySmdet

/-- SMID (R286). -/
def execSmid (d a b : Field) : State → Host.Outcome State Fault Refusal :=
  execWord 0x7E d a b bodySmid

/-- SMCOPY (R286). -/
def execSmcopy (d a b : Field) : State → Host.Outcome State Fault Refusal :=
  execWord 0x7F d a b bodySmcopy

end Sys2Proof.Machine
end

