-- ==== Sys2Proof/Machine/Dispatch.lean ====
section
/-!
DEFINITION. The dispatch of an instruction or event to its meaning.
-/
namespace Sys2Proof.Machine

/-- The meaning of an instruction or event at a state. -/
def exec (i : Instr) (s : State) : Host.Outcome State Fault Refusal :=
  match i with
  | .add d a b _ _ _ => Sys2Proof.Machine.execAdd d a b s
  | .sub d a b _ _ _ => Sys2Proof.Machine.execSub d a b s
  | .mul d a b _ _ _ => Sys2Proof.Machine.execMul d a b s
  | .mulhiS d a b _ _ _ => Sys2Proof.Machine.execMulhiS d a b s
  | .mulhiN d a b _ _ _ => Sys2Proof.Machine.execMulhiN d a b s
  | .mad d a b _ _ _ => Sys2Proof.Machine.execMad d a b s
  | .addc d a b _ _ _ => Sys2Proof.Machine.execAddc d a b s
  | .subb d a b _ _ _ => Sys2Proof.Machine.execSubb d a b s
  | .minS d a b _ _ _ => Sys2Proof.Machine.execMinS d a b s
  | .minN d a b _ _ _ => Sys2Proof.Machine.execMinN d a b s
  | .maxS d a b _ _ _ => Sys2Proof.Machine.execMaxS d a b s
  | .maxN d a b _ _ _ => Sys2Proof.Machine.execMaxN d a b s
  | .abs d a b _ _ _ => Sys2Proof.Machine.execAbs d a b s
  | .neg d a b _ _ _ => Sys2Proof.Machine.execNeg d a b s
  | .and d a b _ _ _ => Sys2Proof.Machine.execAnd d a b s
  | .or d a b _ _ _ => Sys2Proof.Machine.execOr d a b s
  | .xor d a b _ _ _ => Sys2Proof.Machine.execXor d a b s
  | .andn d a b _ _ _ => Sys2Proof.Machine.execAndn d a b s
  | .not d a b _ _ _ => Sys2Proof.Machine.execNot d a b s
  | .shl d a b _ _ _ => Sys2Proof.Machine.execShl d a b s
  | .shr d a b _ _ _ => Sys2Proof.Machine.execShr d a b s
  | .sar d a b _ _ _ => Sys2Proof.Machine.execSar d a b s
  | .rol d a b _ _ _ => Sys2Proof.Machine.execRol d a b s
  | .bfxS d a b _ _ _ => Sys2Proof.Machine.execBfxS d a b s
  | .bfxN d a b _ _ _ => Sys2Proof.Machine.execBfxN d a b s
  | .bfi d a b _ _ _ => Sys2Proof.Machine.execBfi d a b s
  | .popc d a b _ _ _ => Sys2Proof.Machine.execPopc d a b s
  | .clz d a b _ _ _ => Sys2Proof.Machine.execClz d a b s
  | .ctz d a b _ _ _ => Sys2Proof.Machine.execCtz d a b s
  | .brev d a b _ _ _ => Sys2Proof.Machine.execBrev d a b s
  | .permb d a b _ _ _ => Sys2Proof.Machine.execPermb d a b s
  | .sel d a b _ _ _ => Sys2Proof.Machine.execSel d a b s
  | .mov d a b _ _ _ => Sys2Proof.Machine.execMov d a b s
  | .cmpEq d a b _ _ _ => Sys2Proof.Machine.execCmpEq d a b s
  | .cmpNe d a b _ _ _ => Sys2Proof.Machine.execCmpNe d a b s
  | .cmpLtS d a b _ _ _ => Sys2Proof.Machine.execCmpLtS d a b s
  | .cmpLeS d a b _ _ _ => Sys2Proof.Machine.execCmpLeS d a b s
  | .cmpLtN d a b _ _ _ => Sys2Proof.Machine.execCmpLtN d a b s
  | .cmpLeN d a b _ _ _ => Sys2Proof.Machine.execCmpLeN d a b s
  | .addw d a b _ _ _ => Sys2Proof.Machine.execAddw d a b s
  | .subw d a b _ _ _ => Sys2Proof.Machine.execSubw d a b s
  | .mulwS d a b _ _ _ => Sys2Proof.Machine.execMulwS d a b s
  | .mulwN d a b _ _ _ => Sys2Proof.Machine.execMulwN d a b s
  | .madwN d a b _ _ _ => Sys2Proof.Machine.execMadwN d a b s
  | .fadd d a b _ _ _ => Sys2Proof.Machine.execFadd d a b s
  | .fsub d a b _ _ _ => Sys2Proof.Machine.execFsub d a b s
  | .fmul d a b _ _ _ => Sys2Proof.Machine.execFmul d a b s
  | .ffma d a b _ _ _ => Sys2Proof.Machine.execFfma d a b s
  | .fmin d a b _ _ _ => Sys2Proof.Machine.execFmin d a b s
  | .fmax d a b _ _ _ => Sys2Proof.Machine.execFmax d a b s
  | .fcmpEq d a b _ _ _ => Sys2Proof.Machine.execFcmpEq d a b s
  | .fcmpLt d a b _ _ _ => Sys2Proof.Machine.execFcmpLt d a b s
  | .fcmpLe d a b _ _ _ => Sys2Proof.Machine.execFcmpLe d a b s
  | .fcmpUo d a b _ _ _ => Sys2Proof.Machine.execFcmpUo d a b s
  | .frnd d a b _ _ _ => Sys2Proof.Machine.execFrnd d a b s
  | .ffrc d a b _ _ _ => Sys2Proof.Machine.execFfrc d a b s
  | .fclass d a b _ _ _ => Sys2Proof.Machine.execFclass d a b s
  | .fldexp d a b _ _ _ => Sys2Proof.Machine.execFldexp d a b s
  | .cvti d a b _ _ _ => Sys2Proof.Machine.execCvti d a b s
  | .cvtf d a b _ _ _ => Sys2Proof.Machine.execCvtf d a b s
  | .cvth d a b _ _ _ => Sys2Proof.Machine.execCvth d a b s
  | .cvtw d a b _ _ _ => Sys2Proof.Machine.execCvtw d a b s
  | .hadd2 d a b _ _ _ => Sys2Proof.Machine.execHadd2 d a b s
  | .hmul2 d a b _ _ _ => Sys2Proof.Machine.execHmul2 d a b s
  | .hfma2 d a b _ _ _ => Sys2Proof.Machine.execHfma2 d a b s
  | .hmin2 d a b _ _ _ => Sys2Proof.Machine.execHmin2 d a b s
  | .hmax2 d a b _ _ _ => Sys2Proof.Machine.execHmax2 d a b s
  | .dadd d a b _ _ _ => Sys2Proof.Machine.execDadd d a b s
  | .dmul d a b _ _ _ => Sys2Proof.Machine.execDmul d a b s
  | .dfma d a b _ _ _ => Sys2Proof.Machine.execDfma d a b s
  | .dmin d a b _ _ _ => Sys2Proof.Machine.execDmin d a b s
  | .dmax d a b _ _ _ => Sys2Proof.Machine.execDmax d a b s
  | .dcmpEq d a b _ _ _ => Sys2Proof.Machine.execDcmpEq d a b s
  | .dcmpLt d a b _ _ _ => Sys2Proof.Machine.execDcmpLt d a b s
  | .dcvt d a b _ _ _ => Sys2Proof.Machine.execDcvt d a b s
  | .drnd d a b _ _ _ => Sys2Proof.Machine.execDrnd d a b s
  | .frcp d a b _ _ _ => Sys2Proof.Machine.execFrcp d a b s
  | .frsq d a b _ _ _ => Sys2Proof.Machine.execFrsq d a b s
  | .fsqrt d a b _ _ _ => Sys2Proof.Machine.execFsqrt d a b s
  | .fexp2 d a b _ _ _ => Sys2Proof.Machine.execFexp2 d a b s
  | .flog2 d a b _ _ _ => Sys2Proof.Machine.execFlog2 d a b s
  | .fsin d a b _ _ _ => Sys2Proof.Machine.execFsin d a b s
  | .fcos d a b _ _ _ => Sys2Proof.Machine.execFcos d a b s
  | .ftanh d a b _ _ _ => Sys2Proof.Machine.execFtanh d a b s
  | .fdiv d a b _ _ _ => Sys2Proof.Machine.execFdiv d a b s
  | .act d a b _ _ _ => Sys2Proof.Machine.execAct d a b s
  | .actld d a b _ _ _ => Sys2Proof.Machine.execActld d a b s
  | .drcp d a b _ _ _ => Sys2Proof.Machine.execDrcp d a b s
  | .dsqrt d a b _ _ _ => Sys2Proof.Machine.execDsqrt d a b s
  | .ddiv d a b _ _ _ => Sys2Proof.Machine.execDdiv d a b s
  | .shfl d a b _ _ _ => Sys2Proof.Machine.execShfl d a b s
  | .shflup d a b _ _ _ => Sys2Proof.Machine.execShflup d a b s
  | .shfldn d a b _ _ _ => Sys2Proof.Machine.execShfldn d a b s
  | .shflx d a b _ _ _ => Sys2Proof.Machine.execShflx d a b s
  | .vote d a b _ _ _ => Sys2Proof.Machine.execVote d a b s
  | .vany d a b _ _ _ => Sys2Proof.Machine.execVany d a b s
  | .vall d a b _ _ _ => Sys2Proof.Machine.execVall d a b s
  | .redadd d a b _ _ _ => Sys2Proof.Machine.execRedadd d a b s
  | .redfadd d a b _ _ _ => Sys2Proof.Machine.execRedfadd d a b s
  | .redmin d a b _ _ _ => Sys2Proof.Machine.execRedmin d a b s
  | .redmax d a b _ _ _ => Sys2Proof.Machine.execRedmax d a b s
  | .scanadd d a b _ _ _ => Sys2Proof.Machine.execScanadd d a b s
  | .firstl d a b _ _ _ => Sys2Proof.Machine.execFirstl d a b s
  | .dvdecl d a b _ _ _ => Sys2Proof.Machine.execDvdecl d a b s
  | .dvpub d a b _ _ _ => Sys2Proof.Machine.execDvpub d a b s
  | .dvend d a b _ _ _ => Sys2Proof.Machine.execDvend d a b s
  | .smld d a b _ _ _ => Sys2Proof.Machine.execSmld d a b s
  | .smst d a b _ _ _ => Sys2Proof.Machine.execSmst d a b s
  | .smmul d a b _ _ _ => Sys2Proof.Machine.execSmmul d a b s
  | .smmult d a b _ _ _ => Sys2Proof.Machine.execSmmult d a b s
  | .smtmul d a b _ _ _ => Sys2Proof.Machine.execSmtmul d a b s
  | .smadd d a b _ _ _ => Sys2Proof.Machine.execSmadd d a b s
  | .smsub d a b _ _ _ => Sys2Proof.Machine.execSmsub d a b s
  | .smscl d a b _ _ _ => Sys2Proof.Machine.execSmscl d a b s
  | .smtrn d a b _ _ _ => Sys2Proof.Machine.execSmtrn d a b s
  | .smmv d a b _ _ _ => Sys2Proof.Machine.execSmmv d a b s
  | .smchol d a b _ _ _ => Sys2Proof.Machine.execSmchol d a b s
  | .smlu d a b _ _ _ => Sys2Proof.Machine.execSmlu d a b s
  | .smsolv d a b _ _ _ => Sys2Proof.Machine.execSmsolv d a b s
  | .smdet d a b _ _ _ => Sys2Proof.Machine.execSmdet d a b s
  | .smid d a b _ _ _ => Sys2Proof.Machine.execSmid d a b s
  | .smcopy d a b _ _ _ => Sys2Proof.Machine.execSmcopy d a b s
  | .ldp d a b _ _ _ => Sys2Proof.Machine.execLdp d a b s
  | .stp d a b _ _ _ => Sys2Proof.Machine.execStp d a b s
  | .ldk d a b _ _ _ => Sys2Proof.Machine.execLdk d a b s
  | .stk d a b _ _ _ => Sys2Proof.Machine.execStk d a b s
  | .ldq d a b _ _ _ => Sys2Proof.Machine.execLdq d a b s
  | .stq d a b _ _ _ => Sys2Proof.Machine.execStq d a b s
  | .ldd d a b _ _ _ => Sys2Proof.Machine.execLdd d a b s
  | .std d a b _ _ _ => Sys2Proof.Machine.execStd d a b s
  | .ld d a b _ _ _ => Sys2Proof.Machine.execLd d a b s
  | .st d a b _ _ _ => Sys2Proof.Machine.execSt d a b s
  | .ldkt d a b _ _ _ => Sys2Proof.Machine.execLdkt d a b s
  | .stkt d a b _ _ _ => Sys2Proof.Machine.execStkt d a b s
  | .pfm d a b _ _ _ => Sys2Proof.Machine.execPfm d a b s
  | .llock d a b _ _ _ => Sys2Proof.Machine.execLlock d a b s
  | .lunlk d a b _ _ _ => Sys2Proof.Machine.execLunlk d a b s
  | .lqry d a b _ _ _ => Sys2Proof.Machine.execLqry d a b s
  | .rld d a b _ _ _ => Sys2Proof.Machine.execRld d a b s
  | .rst d a b _ _ _ => Sys2Proof.Machine.execRst d a b s
  | .atom d a b _ _ _ => Sys2Proof.Machine.execAtom d a b s
  | .atomk d a b _ _ _ => Sys2Proof.Machine.execAtomk d a b s
  | .atomq d a b _ _ _ => Sys2Proof.Machine.execAtomq d a b s
  | .acas d a b _ _ _ => Sys2Proof.Machine.execAcas d a b s
  | .acas64 d a b _ _ _ => Sys2Proof.Machine.execAcas64 d a b s
  | .acas128 d a b _ _ _ => Sys2Proof.Machine.execAcas128 d a b s
  | .ratom d a b _ _ _ => Sys2Proof.Machine.execRatom d a b s
  | .rcas d a b _ _ _ => Sys2Proof.Machine.execRcas d a b s
  | .acq d a b _ _ _ => Sys2Proof.Machine.execAcq d a b s
  | .rel d a b _ _ _ => Sys2Proof.Machine.execRel d a b s
  | .fence d a b _ _ _ => Sys2Proof.Machine.execFence d a b s
  | .tfence d a b _ _ _ => Sys2Proof.Machine.execTfence d a b s
  | .ifence d a b _ _ _ => Sys2Proof.Machine.execIfence d a b s
  | .shld d a b _ _ _ => Sys2Proof.Machine.execShld d a b s
  | .shst d a b _ _ _ => Sys2Proof.Machine.execShst d a b s
  | .shset d a b _ _ _ => Sys2Proof.Machine.execShset d a b s
  | .shget d a b _ _ _ => Sys2Proof.Machine.execShget d a b s
  | .shidx d a b _ _ _ => Sys2Proof.Machine.execShidx d a b s
  | .swadd d a b _ _ _ => Sys2Proof.Machine.execSwadd d a b s
  | .swmul d a b _ _ _ => Sys2Proof.Machine.execSwmul d a b s
  | .swfma d a b _ _ _ => Sys2Proof.Machine.execSwfma d a b s
  | .swmax d a b _ _ _ => Sys2Proof.Machine.execSwmax d a b s
  | .swcvt d a b _ _ _ => Sys2Proof.Machine.execSwcvt d a b s
  | .swact d a b _ _ _ => Sys2Proof.Machine.execSwact d a b s
  | .swcpy d a b _ _ _ => Sys2Proof.Machine.execSwcpy d a b s
  | .swred d a b _ _ _ => Sys2Proof.Machine.execSwred d a b s
  | .swtrn d a b _ _ _ => Sys2Proof.Machine.execSwtrn d a b s
  | .cpq d a b _ _ _ => Sys2Proof.Machine.execCpq d a b s
  | .xfq d a b _ _ _ => Sys2Proof.Machine.execXfq d a b s
  | .waitseq d a b _ _ _ => Sys2Proof.Machine.execWaitseq d a b s
  | .pollq d a b _ _ _ => Sys2Proof.Machine.execPollq d a b s
  | .xsend d a b _ _ _ => Sys2Proof.Machine.execXsend d a b s
  | .xputv d a b _ _ _ => Sys2Proof.Machine.execXputv d a b s
  | .xredv d a b _ _ _ => Sys2Proof.Machine.execXredv d a b s
  | .lcset d a b _ _ _ => Sys2Proof.Machine.execLcset d a b s
  | .lcwait d a b _ _ _ => Sys2Proof.Machine.execLcwait d a b s
  | .lcrd d a b _ _ _ => Sys2Proof.Machine.execLcrd d a b s
  | .publ d a b _ _ _ => Sys2Proof.Machine.execPubl d a b s
  | .spawn d a b _ _ _ => Sys2Proof.Machine.execSpawn d a b s
  | .scarf d a b _ _ _ => Sys2Proof.Machine.execScarf d a b s
  | .trig d a b _ _ _ => Sys2Proof.Machine.execTrig d a b s
  | .waitdep d a b _ _ _ => Sys2Proof.Machine.execWaitdep d a b s
  | .bra d a b _ _ _ => Sys2Proof.Machine.execBra d a b s
  | .brz d a b _ _ _ => Sys2Proof.Machine.execBrz d a b s
  | .brnz d a b _ _ _ => Sys2Proof.Machine.execBrnz d a b s
  | .brnone d a b _ _ _ => Sys2Proof.Machine.execBrnone d a b s
  | .call d a b _ _ _ => Sys2Proof.Machine.execCall d a b s
  | .ret d a b _ _ _ => Sys2Proof.Machine.execRet d a b s
  | .exit d a b _ _ _ => Sys2Proof.Machine.execExit d a b s
  | .bar d a b _ _ _ => Sys2Proof.Machine.execBar d a b s
  | .barq d a b _ _ _ => Sys2Proof.Machine.execBarq d a b s
  | .setm d a b _ _ _ => Sys2Proof.Machine.execSetm d a b s
  | .getm d a b _ _ _ => Sys2Proof.Machine.execGetm d a b s
  | .trap d a b _ _ _ => Sys2Proof.Machine.execTrap d a b s
  | .trapPark d a _ _ _ => Sys2Proof.Machine.execTrapPark d a s
  | .rte d a b _ _ _ => Sys2Proof.Machine.execRte d a b s
  | .sread d a b _ _ _ => Sys2Proof.Machine.execSread d a b s
  | .swrite d a b _ _ _ => Sys2Proof.Machine.execSwrite d a b s
  | .swriteInvalidateStart d a _ _ _ => Sys2Proof.Machine.execSwriteInvalidateStart d a s
  | .nop d a b _ _ _ => Sys2Proof.Machine.execNop d a b s
  | .mma d a b _ _ _ => Sys2Proof.Machine.execMma d a b s
  | .mmaz d a b _ _ _ => Sys2Proof.Machine.execMmaz d a b s
  | .mmac d a b _ _ _ => Sys2Proof.Machine.execMmac d a b s
  | .accz d a b _ _ _ => Sys2Proof.Machine.execAccz d a b s
  | .accld d a b _ _ _ => Sys2Proof.Machine.execAccld d a b s
  | .accst d a b _ _ _ => Sys2Proof.Machine.execAccst d a b s
  | .accrd d a b _ _ _ => Sys2Proof.Machine.execAccrd d a b s
  | .accwr d a b _ _ _ => Sys2Proof.Machine.execAccwr d a b s
  | .accwait d a b _ _ _ => Sys2Proof.Machine.execAccwait d a b s
  | .mstat d a b _ _ _ => Sys2Proof.Machine.execMstat d a b s
  | .packageReset flash => Sys2Proof.Machine.execPackageReset flash s
  | .pcieLinkTrain rootPort rate width => Sys2Proof.Machine.execPcieLinkTrain rootPort rate width s
  | .fabricLinkTrain port yardPort => Sys2Proof.Machine.execFabricLinkTrain port yardPort s
  | .clauseIssue core => Sys2Proof.Machine.execClauseIssue core s
  | .agingCounterExpiry sid => Sys2Proof.Machine.execAgingCounterExpiry sid s
  | .yieldExpiry sid => Sys2Proof.Machine.execYieldExpiry sid s
  | .memoryOpComplete sid op => Sys2Proof.Machine.execMemoryOpComplete sid op s
  | .flagBOpComplete sid op => Sys2Proof.Machine.execFlagBOpComplete sid op s
  | .strandEnd sid => Sys2Proof.Machine.execStrandEnd sid s
  | .treeCompletion tree => Sys2Proof.Machine.execTreeCompletion tree s
  | .bentDispatch launch cluster cores => Sys2Proof.Machine.execBentDispatch launch cluster cores s
  | .clusterStart cluster => Sys2Proof.Machine.execClusterStart cluster s
  | .childAccept ctx => Sys2Proof.Machine.execChildAccept ctx s
  | .triggerAdd sid op => Sys2Proof.Machine.execTriggerAdd sid op s
  | .waitdepResume sid => Sys2Proof.Machine.execWaitdepResume sid s
  | .waitseqResume sid => Sys2Proof.Machine.execWaitseqResume sid s
  | .lcwaitResume sid => Sys2Proof.Machine.execLcwaitResume sid s
  | .pollqResume sid => Sys2Proof.Machine.execPollqResume sid s
  | .presenceResume sid => Sys2Proof.Machine.execPresenceResume sid s
  | .ottEntryRetry sid => Sys2Proof.Machine.execOttEntryRetry sid s
  | .spawnQueueResume sid => Sys2Proof.Machine.execSpawnQueueResume sid s
  | .actldParkEnd sid => Sys2Proof.Machine.execActldParkEnd sid s
  | .dovetailReadResume sid => Sys2Proof.Machine.execDovetailReadResume sid s
  | .dvpubParkResume sid => Sys2Proof.Machine.execDvpubParkResume sid s
  | .pageWalk ctx va forWrite => Sys2Proof.Machine.execPageWalk ctx va forWrite s
  | .elasticFaultResolve ctx page frames => Sys2Proof.Machine.execElasticFaultResolve ctx page frames s
  | .invalidationComplete req => Sys2Proof.Machine.execInvalidationComplete req s
  | .codebookRegionSet die index value => Sys2Proof.Machine.execCodebookRegionSet die index value s
  | .twinSwap ctx index => Sys2Proof.Machine.execTwinSwap ctx index s
  | .engineEntryAccept chain => Sys2Proof.Machine.execEngineEntryAccept chain s
  | .chainWatchPoll ctx chain => Sys2Proof.Machine.execChainWatchPoll ctx chain s
  | .copyLineDelivered entry => Sys2Proof.Machine.execCopyLineDelivered entry s
  | .entryComplete entry => Sys2Proof.Machine.execEntryComplete entry s
  | .fabricPacketSend entry => Sys2Proof.Machine.execFabricPacketSend entry s
  | .write p => Sys2Proof.Machine.execWrite p s
  | .reduce p => Sys2Proof.Machine.execReduce p s
  | .read p => Sys2Proof.Machine.execRead p s
  | .atomic p => Sys2Proof.Machine.execAtomic p s
  | .cas p => Sys2Proof.Machine.execCas p s
  | .readResponse p => Sys2Proof.Machine.execReadResponse p s
  | .atomicResponse p => Sys2Proof.Machine.execAtomicResponse p s
  | .landingAck p => Sys2Proof.Machine.execLandingAck p s
  | .nackRetry p => Sys2Proof.Machine.execNackRetry p s
  | .nackStale p => Sys2Proof.Machine.execNackStale p s
  | .nackFail p => Sys2Proof.Machine.execNackFail p s
  | .faultHoldPerform vf => Sys2Proof.Machine.execFaultHoldPerform vf s
  | .retryResend tag => Sys2Proof.Machine.execRetryResend tag s
  | .remoteTimeout tag => Sys2Proof.Machine.execRemoteTimeout tag s
  | .linkDown port => Sys2Proof.Machine.execLinkDown port s
  | .planeRetrain port => Sys2Proof.Machine.execPlaneRetrain port s
  | .ptpEvent port stamp msg => Sys2Proof.Machine.execPtpEvent port stamp msg s
  | .ptpMeasurement offset => Sys2Proof.Machine.execPtpMeasurement offset s
  | .managementMessage p => Sys2Proof.Machine.execManagementMessage p s
  | .framerAnnounce priority yardPort => Sys2Proof.Machine.execFramerAnnounce priority yardPort s
  | .framerTakeover yardPort => Sys2Proof.Machine.execFramerTakeover yardPort s
  | .raisingTable packet => Sys2Proof.Machine.execRaisingTable packet s
  | .raisingRepublishRequest yardPort => Sys2Proof.Machine.execRaisingRepublishRequest yardPort s
  | .outOfTurnRequest r => Sys2Proof.Machine.execOutOfTurnRequest r s
  | .raisingHalt seq => Sys2Proof.Machine.execRaisingHalt seq s
  | .outOfTurnHalt seq => Sys2Proof.Machine.execOutOfTurnHalt seq s
  | .outOfTurnResume seq => Sys2Proof.Machine.execOutOfTurnResume seq s
  | .runLimitExpiry tree => Sys2Proof.Machine.execRunLimitExpiry tree s
  | .drainWindowEnd vf => Sys2Proof.Machine.execDrainWindowEnd vf s
  | .raisingRestore cluster => Sys2Proof.Machine.execRaisingRestore cluster s
  | .amiahRingPoll ctx ring => Sys2Proof.Machine.execAmiahRingPoll ctx ring s
  | .launchPacket ctx ring => Sys2Proof.Machine.execLaunchPacket ctx ring s
  | .ringWaitPacket ctx ring => Sys2Proof.Machine.execRingWaitPacket ctx ring s
  | .ringWaitSatisfied ctx ring => Sys2Proof.Machine.execRingWaitSatisfied ctx ring s
  | .ringWritePacket ctx ring => Sys2Proof.Machine.execRingWritePacket ctx ring s
  | .fencePacket ctx ring => Sys2Proof.Machine.execFencePacket ctx ring s
  | .fencePacketDone ctx ring => Sys2Proof.Machine.execFencePacketDone ctx ring s
  | .leasePacket ctx ring => Sys2Proof.Machine.execLeasePacket ctx ring s
  | .leaseReplace ctx ring => Sys2Proof.Machine.execLeaseReplace ctx ring s
  | .padPacket ctx ring => Sys2Proof.Machine.execPadPacket ctx ring s
  | .create cmd record ctx twinFrame saveFrame => Sys2Proof.Machine.execCreate cmd record ctx twinFrame saveFrame s
  | .destroy cmd ctx => Sys2Proof.Machine.execDestroy cmd ctx s
  | .resumeStrand cmd ctx slot => Sys2Proof.Machine.execResumeStrand cmd ctx slot s
  | .killStrand cmd ctx slot => Sys2Proof.Machine.execKillStrand cmd ctx slot s
  | .killTree cmd ctx seedSeq => Sys2Proof.Machine.execKillTree cmd ctx seedSeq s
  | .ringRestart cmd ctx ring => Sys2Proof.Machine.execRingRestart cmd ctx ring s
  | .gangSet cmd ctx => Sys2Proof.Machine.execGangSet cmd ctx s
  | .twinSet cmd ctx index descriptor => Sys2Proof.Machine.execTwinSet cmd ctx index descriptor s
  | .chainWatch cmd ctx va => Sys2Proof.Machine.execChainWatch cmd ctx va s
  | .chainUnwatch cmd ctx va => Sys2Proof.Machine.execChainUnwatch cmd ctx va s
  | .dirtyOn cmd vf bitmap => Sys2Proof.Machine.execDirtyOn cmd vf bitmap s
  | .dirtyRound cmd vf snapshot => Sys2Proof.Machine.execDirtyRound cmd vf snapshot s
  | .stopVf cmd vf => Sys2Proof.Machine.execStopVf cmd vf s
  | .exportImage cmd vf image bytes => Sys2Proof.Machine.execExportImage cmd vf image bytes s
  | .importImage cmd image vf keys => Sys2Proof.Machine.execImportImage cmd image vf keys s
  | .startVf cmd vf => Sys2Proof.Machine.execStartVf cmd vf s
  | .dirtyOff cmd vf => Sys2Proof.Machine.execDirtyOff cmd vf s
  | .devwinSet cmd vf list => Sys2Proof.Machine.execDevwinSet cmd vf list s
  | .attest cmd vf nonce report => Sys2Proof.Machine.execAttest cmd vf nonce report s
  | .energyInterval charges => Sys2Proof.Machine.execEnergyInterval charges s
  | .energyExhausted ctx charge => Sys2Proof.Machine.execEnergyExhausted ctx charge s
  | .powerMeterSample package functions => Sys2Proof.Machine.execPowerMeterSample package functions s
  | .returnToNominal ceiling => Sys2Proof.Machine.execReturnToNominal ceiling s
  | .slopeWindow cluster ready => Sys2Proof.Machine.execSlopeWindow cluster ready s
  | .hbmTempReading temps => Sys2Proof.Machine.execHbmTempReading temps s
  | .matrixOpStart bent seq => Sys2Proof.Machine.execMatrixOpStart bent seq s
  | .matrixOpComplete bent seq => Sys2Proof.Machine.execMatrixOpComplete bent seq s
  | .sweepGroup sid op => Sys2Proof.Machine.execSweepGroup sid op s
  | .setSlopeStep cluster step => Sys2Proof.Machine.execSetSlopeStep cluster step s
  | .setPowerLimits package functions => Sys2Proof.Machine.execSetPowerLimits package functions s
  | .setAccountingInterval ns => Sys2Proof.Machine.execSetAccountingInterval ns s
  | .setFramingPriority priority => Sys2Proof.Machine.execSetFramingPriority priority s
  | .setShares vf fabric hbm => Sys2Proof.Machine.execSetShares vf fabric hbm s
  | .pldmFirmwareStage image => Sys2Proof.Machine.execPldmFirmwareStage image s
  | .spdmAttestation vf nonce => Sys2Proof.Machine.execSpdmAttestation vf nonce s
  | .errorCountRead unit => Sys2Proof.Machine.execErrorCountRead unit s
  | .registerWrite reg value => Sys2Proof.Machine.execRegisterWrite reg value s
  | .applicationCoreAccess a => Sys2Proof.Machine.execApplicationCoreAccess a s
  | .frameReclaim frame => Sys2Proof.Machine.execFrameReclaim frame s
  | .scheduledRaisingPublish yardPort e => Sys2Proof.Machine.execScheduledRaisingPublish yardPort e s

end Sys2Proof.Machine
end

