-- ==== Sys2Proof/Machine/Turn.lean ====
section
/-!
DEFINITION. What one step does: time passes, a raising whose time has come is acted on, else a turn of the schedule is
performed. The environment sets turns in the agenda; with none, a turn is derived from the state (the schedule of the
package is otherwise free, R6, R48, R169, R239).
-/
namespace Sys2Proof.Machine

namespace Pkg

/-- Time passes before a turn: nanoseconds, each cluster at its clock in MHz. Lines may leave L2 and the L1s (R96, R417). -/
def tick (p : Pkg) (ns : Nat) (clock : Nat → Nat) : Pkg :=
  ({ p.passTime ns clock with fresh := p.fresh + 1 }).evictSome.dropL1

/-- The earliest raising entry whose time has come. -/
def dueRaising (p : Pkg) : Option (BitVec 256) := leastBy rtTime (p.raisings.filter fun e => rtTime e ≤ p.time)

/-- A strand meets an uncorrectable error outside HBM: its tree ends with MEMORY_ERROR, and the error is reported (R266, R415). -/
def meetError (p : Pkg) (sid : Nat) : Pkg :=
  match p.strand? sid with
  | some st => if p.isResident sid then (p.say (.errorEvent sid)).endTree (p.treeKeyOf st) 7 else p
  | none => p

end Pkg

/-- Does an instruction have a code word (R162)? -/
def isWord (i : Instr) : Bool := i.parts.isSome

/-- Time passes in a state, the environment having the clusters' clocks at `mhz` (R21). -/
def State.advance (s : State) (ns : Nat) (mhz : AMap Nat) : State := { s with pkg := s.pkg.tick ns (s.clockOf mhz) }

/-- At the end of a step every cache holds no more than it has room for (R14, R102, R103). -/
def State.fitCaches (s : State) : State := { s with pkg := s.pkg.replaceL2.replaceL1 }

/-- The raising on which a booted package has to act now (R378, R384). -/
def State.dueRaising (s : State) : Option (BitVec 256) := if s.operational then s.pkg.dueRaising else none

/-- The state in which a strand's next instruction is executed: the strand is the one that runs, and its cluster meters the
instruction's energy (R371, R402). How much it is is a free value, none for an attempt that leaves the strand in place. -/
def State.running (s : State) (sid : Nat) (st : Strand) : State :=
  let op := wordOpcode (st.words.getD st.slot 0)
  { s with pkg := { s.pkg.meter (sidCluster sid) (Config.instrEnergy s.pkg.fresh op) with cur := some sid } }

/-- A strand executes the next instruction of its clause: the word there is decoded, and a word that is no instruction
traps (R180). An exhausted context's strand parks instead (R403). -/
def State.runStrand (s : State) (sid : Nat) : Host.Outcome State Fault Refusal :=
  match s.pkg.strand? sid with
  | none => .next s
  | some st =>
    if !s.pkg.mayRun sid st then .next s
    else if s.pkg.isExhausted (sidCtx sid) then .next { s with pkg := s.pkg.energyPark sid }
    else
      match decode (Pkg.nextBytes st) with
      | .ok (i, _) => exec i (s.running sid st)
      | .error _ => .next { s with pkg := s.pkg.illegalWord sid st }

/-- A host command at the head of its queue is executed; the queue moves past it once its status is written (R372). -/
def State.runCommand (s : State) (cmd : Nat) (f : State → Host.Outcome State Fault Refusal) : Host.Outcome State Fault Refusal :=
  match f { s with pkg := s.pkg.hostBegin cmd } with
  | .next t => .next { t with pkg := t.pkg.hostEnd cmd }
  | o => o

/-- An event happens: a host command from its queue, anything else as it is. The event of a code word is none: such a word is
executed only where a strand fetches it. -/
def State.event (s : State) (i : Instr) : Host.Outcome State Fault Refusal :=
  if isWord i || !s.pkg.hostAdmits i || (!s.operational && (Pkg.hostCommand i).isSome) then .next s
  else
    match Pkg.hostCommand i with
    | some (cmd, _) => s.runCommand cmd (exec i)
    | none => exec i s

/-- May an external host act: is the port an endpoint whose link is trained (R413)? -/
def State.externalMay (s : State) (external : Bool) : Bool := !external || (!s.plat.rootPort && s.plat.pcie.isSome)

/-- Perform a turn. -/
def State.perform (s : State) (a : Act) : Host.Outcome State Fault Refusal :=
  match a with
  | .event i => s.event i
  | .run sid => s.runStrand sid
  | .setDrain vf ns => execPkg (fun p => p.setDrain vf ns) s
  | .assignKey vf key => execPkg (fun p => p.assignKey vf key) s
  | .ownFrame key frame => execPkg (fun p => p.ownFrame key frame) s
  | .unknownCommand cmd =>
    if s.operational && s.pkg.hostHead == some cmd then s.runCommand cmd (execPkg fun p => p.unknownCommand cmd) else .next s
  | .collective cid ring peers => execPkg (fun p => p.collective cid ring peers) s
  | .upset pa => .next { s with pkg := { s.pkg with badLines := s.pkg.badLines ++ [pa / 128] } }
  | .upsetAt l => .next { s with pkg := { s.pkg with badSpots := s.pkg.badSpots ++ [l] } }
  | .strandError sid => .next { s with pkg := s.pkg.meetError sid }
  | .corrected unit => .next (s.countCorrected unit)
  | .stepReport port inStep => execPkg (fun p => p.stepReport port inStep) s
  | .urgentOver r => execPkg (fun p => p.endUrgent r) s
  | .hostRing external d => if s.externalMay external then execPkg (fun p => p.setHostRing d) s else .next s
  | .hostWrite external a b => if s.externalMay external then execPkg (fun p => p.hostWrite external a b) s else .next s
  | .setStrap rootPort => .next { s with plat := { s.plat with strap := rootPort } }

/-- Does an outcome leave a strand exactly as it was? -/
def State.leaves (s : State) (sid : Nat) (o : Host.Outcome State Fault Refusal) : Bool :=
  match o with
  | .next t => decide (t.pkg.strand? sid = s.pkg.strand? sid)
  | _ => true

/-- Would a strand's next instruction leave it where it stands? -/
def State.stalls (s : State) (sid : Nat) : Bool := s.leaves sid (s.runStrand sid)

/-- A parked strand looks whether its park is over, by the event of its kind (R51). -/
def State.parkTurn (s : State) (sid : Nat) : Host.Outcome State Fault Refusal :=
  match (s.pkg.strand? sid).bind (·.park) with
  | some (.presence _) => execPresenceResume sid s
  | some (.dovetail _) => execDovetailReadResume sid s
  | some (.publish5 _) => execDvpubParkResume sid s
  | some (.lcwait _) => execLcwaitResume sid s
  | some (.waitseq ..) => execWaitseqResume sid s
  | some (.pollq ..) => execPollqResume sid s
  | some .waitdep => execWaitdepResume sid s
  | some .table => execOttEntryRetry sid s
  | some .spawnQueue => execSpawnQueueResume sid s
  | some (.actSlot _) => execActldParkEnd sid s
  | _ => .next s

/-- Complete an outstanding operation, by the event of its kind. -/
def State.completeTurn (s : State) (sid : Nat) (o : Op) : Host.Outcome State Fault Refusal :=
  match o.kind with
  | .regs .. | .tileRead .. | .tileWrite .. | .actLoad .. => execFlagBOpComplete sid o.id s
  | .sweep _ => execSweepGroup sid o.id s
  | .trigger => execTriggerAdd sid o.id s
  | .publish t => execTwinSwap (sidCtx sid) t s
  | _ => execMemoryOpComplete sid o.id s

/-- Act on a raising entry, by the event of its kind. -/
def State.raiseTurn (s : State) (e : BitVec 256) : Host.Outcome State Fault Refusal :=
  match rtKind e with
  | 0 => execRaisingHalt (rtSequence e) s
  | 1 => execOutOfTurnHalt (rtSequence e) s
  | _ => execOutOfTurnResume (rtSequence e) s

/-- The turn of a state in which no strand can run: a park that is over; the oldest outstanding operation of a strand that can
go on; a request that waits to be sent; the end of a strand, of a yield or of a tree. -/
def State.idleTurn (s : State) : Host.Outcome State Fault Refusal :=
  let p := s.pkg
  match p.strands.find? fun e => e.2.park.isSome && !s.leaves e.1 (s.parkTurn e.1) with
  | some e => s.parkTurn e.1
  | none =>
    let ops := (p.strands.flatMap fun e => e.2.ops.map fun o => (e.1, o)).filter fun x => !s.leaves x.1 (s.completeTurn x.1 x.2)
    match leastBy (fun x : Nat × Op => x.2.id) ops with
    | some (sid, o) => s.completeTurn sid o
    | none =>
      match p.sent.find? (·.queued), p.strands.find? (fun e => e.2.finished && !e.2.ended), p.strands.find? (·.2.yieldUntil.isSome) with
      | some q, _, _ => execRetryResend q.tag s
      | none, some e, _ => execStrandEnd e.1 s
      | none, none, some e => execYieldExpiry e.1 s
      | none, none, none => execTreeCompletion ((p.trees.find? fun t => t.2.counter == 0).map (·.1) |>.getD 0) s

/-- The turn of a state without an agenda: the strand that runs, unless it stalls; a ready strand's clause; else what an
idle package does. -/
def State.ownTurn (s : State) : Host.Outcome State Fault Refusal :=
  let p := s.pkg
  let runs (sid : Nat) : Bool := ((p.strand? sid).map (p.mayRun sid)).getD false && !s.stalls sid
  match (p.cur.toList ++ p.strands.keys).find? runs with
  | some sid => s.runStrand sid
  | none =>
    match p.strands.find? fun e => p.isReady e.1 e.2 with
    | some e => execClauseIssue (sidCk e.1 % 1024) s
    | none => s.idleTurn

/-! ### A word as the next instruction -/

/-- Is an opcode one of the truss strand's alone (R309 to R312)? -/
def trussOnly (op : Nat) : Bool := [0xE0, 0xE1, 0xE2, 0xE3, 0xE4, 0xE5, 0xE8, 0xE9].contains op

/-- The launch of a word placed by hand: one strand of 96 items, 100 registers, every allocation at its limit. -/
def placedDesc : BitVec 512 :=
  BitVec.ofNat 512 (0x1000 + 0x2000 * 2 ^ 64 + 96 * 2 ^ 256 + 25 * 2 ^ 304 + 170 * 2 ^ 320 + 4096 * 2 ^ 328 + 2048 * 2 ^ 344
    + 1 * 2 ^ 368)

/-- The lease of a word placed by hand: the whole address space, pinned. -/
def placedLease : List LeaseRange := [⟨0, 2 ^ 39 - 1, false⟩]

/-- A strand in its clause, about to execute a word. -/
def placedStrand (w : Word) (truss : Bool) : Strand :=
  { Pkg.startStrand 1 3 0 0 placedDesc truss (if truss then 1 else BitVec.allOnes 96) 0x1000 with
    words := [encodeHeader 1 0 0 0 false, w, encodeTrailer 0], executing := true, slot := 1 }

/-- The package with context 0 resident on cluster 0, one strand about to execute a word, and no raising due. -/
def placedPkg (p : Pkg) (w : Word) : Pkg :=
  let truss := trussOnly (wordOpcode w)
  let sid := if truss then 9216 else 0
  let crews : AMap Crew := [(0, { core := 0, firstSn := 0, sids := [0] })]
  let bent : Bent :=
    { ctx := 0, launch := 1, index := 0, cluster := 0, crews := crews, truss := if truss then some 9216 else none }
  { p with
    cur := some sid
    raisings := p.raisings.filter fun e => p.time < rtTime e
    nextId := 4
    strands := [(sid, placedStrand w truss)]
    bents := [(3, bent)]
    launches := [(1, { ctx := 0, tree := 2, desc := placedDesc, lease := placedLease, leaseId := 1, nextBent := 1, liveBents := 1 })]
    trees := [(2, { ctx := 0, seedSeq := 0, counter := 1, record := 0, args := 0, lease := placedLease })]
    ctxs := [(0, { record := 0, vf := 0, twinPa := 0, saveArea := 0, leases := [(1, placedLease)] })]
    clusters := [(0, { occupant := some 0, started := true })]
    vfs := [(0, { resident := some 0 })] }

end Sys2Proof.Machine
end

