-- ==== Sys2Proof/Machine/Step.lean ====
section
/-!
DEFINITION. One step of the package: a raising whose time has come, else the next turn of its agenda, or the turn derived
from its state.
-/
namespace Sys2Proof.Machine

/-- The end of a step: its caches are within their sizes. -/
def endStep (o : Host.Outcome State Fault Refusal) : Host.Outcome State Fault Refusal :=
  match o with
  | .next t => .next t.fitCaches
  | o => o

/-- A turn of a state in which its time has passed: a raising that is due goes before it, and the turn waits (R378). -/
def takeTurn (now : State) (turn : Option Turn) : Host.Outcome State Fault Refusal :=
  match now.dueRaising with
  | some e => { now with agenda := (turn.map fun (t : Turn) => { t with ns := 0 }).toList ++ now.agenda }.raiseTurn e
  | none =>
    match turn with
    | some t => now.perform t.act
    | none => now.ownTurn

/-- One step: time passes, then a turn is taken. -/
def step (s : State) : Host.Outcome State Fault Refusal :=
  match s.agenda with
  | t :: rest => endStep (takeTurn ({ s with agenda := rest }.advance t.ns t.mhz) (some t))
  | [] => endStep (takeTurn (s.advance (Config.elapsed s.pkg.fresh) []) none)

/-- The state with an instruction word placed as the next instruction of a running strand of a booted package, and a turn
of that strand as the whole agenda: what a host's CREATE, a launch ring and the dispatch of the launch set up. -/
def State.withFetchWord (s : State) (nbits w : Nat) : State :=
  let word : Word := BitVec.ofNat 32 (w % 2 ^ nbits)
  { s with
    agenda := [{ ns := 0, mhz := [], act := .run (if trussOnly (wordOpcode word) then 9216 else 0) }]
    pkg := placedPkg s.pkg word
    plat := { s.plat with booted := 4 } }

end Sys2Proof.Machine
end

