-- ==== Sys2Proof/Safety.lean ====
section
/-!
DEFINITION. What the claims call a safe run: the limits that management and the governors keep (R21, R327, R371, R396,
R399, R400, R405, R406), the canonical form of the byte stores, and the terms in which the claims speak of a step.
-/
namespace Sys2Proof.Machine

/-! ### The limits -/

/-- A slope register holds a legal step, and a window, the present one among them, has at most 64 steps (R396, R399). -/
def Slope.Legal (x : Slope) : Prop :=
  1 ≤ x.step ∧ x.step ≤ 64 ∧ 1 ≤ x.active ∧ x.active ≤ 64 ∧ x.last ≤ 64 ∧ x.steps ≤ 64

/-- The shares of a resource, summed over the eight virtual functions, in 64ths. -/
def shareTotal (share : Nat → Nat) : Nat := Pkg.total ((List.range 8).map share)

/-- The limits of R21 (clock), R327 and R405 (shares), R371 (interval), R396 and R399 (slope), R400 (power) and R406
(thermal levels). -/
structure State.PowerLegal (s : State) : Prop where
  slopes : ∀ e ∈ s.pkg.slopes, e.2.Legal
  packageLimit : 1200 ≤ s.power.packageLimit ∧ s.power.packageLimit ≤ 2400
  functionLimits : ∀ e ∈ s.power.functionLimits, 100 ≤ e.2 ∧ e.2 ≤ 2400
  ceiling : 950 ≤ s.power.ceiling ∧ s.power.ceiling ≤ 1300
  functionClocks : ∀ e ∈ s.power.functionClocks, 950 ≤ e.2 ∧ e.2 ≤ 1300
  stepCeilings : ∀ e ∈ s.pkg.stepCeilings, 8 ≤ e.2 ∧ e.2 ≤ 64
  levels : ∀ e ∈ s.power.levels, e.2 ≤ 2
  interval : 100000 ≤ s.power.interval ∧ s.power.interval ≤ 10000000
  fabricShares : shareTotal s.fabricShare ≤ 64
  hbmShares : ∀ stack, stack < 12 → shareTotal (fun vf => s.hbmShare vf stack) ≤ 64

/-! ### The terms of the claims -/

/-- The strand that the package runs is `sid`, with state `st`. -/
structure State.Runs (s : State) (sid : Nat) (st : Strand) : Prop where
  cur : s.pkg.cur = some sid
  strand : s.pkg.strand? sid = some st

/-- An instruction word with opcode `op` and fields `d`, `a`, `b` passes the checks of R179 and meets no interlock
(R170, R239, R301), no failure to observe (R256) and no dovetail value that has yet to come (R65); `x` is what it
executes with. -/
structure State.Admits (s : State) (op : Nat) (d a b : Field) (x : Pkg.Exe) : Prop where
  runs : s.Runs x.sid x.st
  gate : s.pkg.gate x.sid x.st op d.toNat a.toNat b.toNat = .ok x

/-- A state whose strand `sid` has become `st` and which is otherwise `s`. -/
def State.withStrand (s : State) (sid : Nat) (st : Strand) : State := { s with pkg := s.pkg.setStrand sid st }

/-- A strand after an instruction word whose effect left it as `st`: DX is set in the lanes of `x` whose dovetail read
was satisfied by an end (R65), and the strand goes past the word (R166, R168, R172). -/
def Pkg.past (p : Pkg) (x : Pkg.Exe) (st : Strand) : Strand :=
  Pkg.passInstr (Pkg.markDx x.st x.dx st) (p.cycleOf (sidCluster x.sid))

/-- The state after a word that has left its strand as `st` and nothing else changed. -/
def State.after (s : State) (x : Pkg.Exe) (st : Strand) : State := s.withStrand x.sid (s.pkg.past x st)

/-- The state after a word whose effect left the package as `p`: its strand goes past the word. -/
def State.onward (s : State) (x : Pkg.Exe) (p : Pkg) : State := { s with pkg := p.updStrand x.sid (p.past x) }

/-- A package in which the strand of `x` has issued an operation and gone past its word. -/
def Pkg.issued (p : Pkg) (x : Pkg.Exe) (flag : Nat) (dests : List Nat) (entry : Bool) (kind : OpKind) : Pkg :=
  Pkg.updStrand { p with nextId := p.nextId + 1 } x.sid fun st =>
    p.past x { st with
      ops := st.ops ++ [{ id := p.nextId, flag := flag, dests := dests, entry := entry, kind := kind }] }

/-- The form `i` with opcode `op` and fields `d`, `a`, `b` computes each lane by itself with `f` (R178): wherever its word
is admitted, it answers the same state but for the strand, in which the results of `f` are written and which has gone
past the word. -/
def LaneForm (i : Instr) (op : Nat) (d a b : Field) (f : LaneIn → LaneOut) : Prop :=
  ∀ (s : State) (x : Pkg.Exe), s.Admits op d a b x →
    exec i s = .next (s.after x (x.putResults (x.results f)))

/-- The flag-B form `i` computes each lane by itself with `f`: wherever its word is admitted, it issues one operation on
the clause's flag B that holds the results and the flags of the lanes until it completes (R169, R239). -/
def LaterForm (i : Instr) (op : Nat) (d a b : Field) (f : LaneIn → LaneOut) : Prop :=
  ∀ (s : State) (x : Pkg.Exe), s.Admits op d a b x →
    exec i s = .next { s with
      pkg := s.pkg.issued x (x.st.flagOf true) (codesFrom x.d x.form.d.regs) false
        (.regs (x.laterWrites (if 125 ≤ x.d then [x.st.low] else x.st.onLanes) fun j => (x.results f j).val)
          (x.st.onLanes.map fun j => (j, (x.results f j).flags)) []) }

/-- A 32-bit result of a lane, and the C that goes with it. -/
def gives (g : LaneIn → Word) (i : LaneIn) : LaneOut := { val := (g i).setWidth 64 }
def givesC (g : LaneIn → Word) (c : LaneIn → Bool) (i : LaneIn) : LaneOut := { val := (g i).setWidth 64, carry := some (c i) }
/-- A 64-bit result of a lane, and the C that goes with it. -/
def gives64 (g : LaneIn → DWord) (i : LaneIn) : LaneOut := { val := g i }
def gives64C (g : LaneIn → DWord) (c : LaneIn → Bool) (i : LaneIn) : LaneOut := { val := g i, carry := some (c i) }
/-- 1 or 0. -/
def givesBool (g : LaneIn → Bool) : LaneIn → LaneOut := gives fun i => if g i then 1 else 0

/-- The state after a small-matrix form whose On lanes compute `f`: an operation on flag B holds their elements, flags and
first offending columns, and the register writes `more`, until it completes (R285). -/
def State.smIssued (s : State) (x : Pkg.Exe) (f : Nat → SmOut) (more : List (Nat × Nat × Word)) : State :=
  { s with
    pkg := s.pkg.issued x (x.st.flagOf true) (x.form.writes (modeSizes x.st.mode) x.d x.a x.b) false
      (.regs ((x.st.onLanes.flatMap fun j => smWrites x x.d j (f j).vals) ++ more)
        (x.st.onLanes.filterMap fun j => if (f j).flags = 0 then none else some (j, BitVec.ofNat 32 (f j).flags))
        (x.st.onLanes.filterMap fun j => (f j).col.map fun c => (j, BitVec.ofNat 32 c))) }

/-- The accesses of an admitted word to a scratchpad space pass the checks of R101: every lane names a legal target, each
access is aligned to `n`, lies in its allocation and finds its lines present. -/
structure ScratchOk (x : Pkg.Exe) (space n : Nat) (map : Nat → Nat) (accs : List SAcc) : Prop where
  formed : x.st.onLanes.map (scratchAcc x space n map) = accs.map some
  aligned : ∀ t ∈ accs, t.formed % n = 0
  inside : ∀ t ∈ accs, t.off + t.bytes ≤ t.size
  present : ∀ t ∈ accs, x.p.isPresentAt t.loc t.bytes = true

/-- The global accesses of an admitted word pass the checks of R154: each is aligned to `n`, and the translation of all of
them leaves the package as `p` (R142, R143) and gives the locations `ls`. -/
structure GlobalOk (x : Pkg.Exe) (n : Nat) (need : Need) (ws : List Want) (p : Pkg) (ls : List Loc) : Prop where
  aligned : ∀ w ∈ ws, w.va % n = 0
  checked : x.p.checkGlobal (.lane x.sid) (sidCtx x.sid) (x.p.leaseOf x.st) need ws = (p, .ok ls)

/-- The package has booted, so its units answer (R408). -/
def State.Booted (s : State) : Prop := s.plat.booted = 4

/-- A byte store in canonical form. -/
def Mem.Canonical (m : Mem) : Prop := m.wf = true

end Sys2Proof.Machine
end

