-- ==== Sys2Proof/Certificates/Slice0/Obligations.lean ====
section
/-!
DEFINITION. The statements for the provers.
-/
open Sys2Proof Sys2Proof.Machine

/-! ### Integer and address forms -/

/-- R211: the 32-bit arithmetic forms. Every result is taken modulo 2^32; ADD, SUB, ADDC, SUBB and NEG give C as the
table says, and the others leave it. -/
def Obligations.IntegerArithmetic : Prop :=
  ∀ (d a b : Field) (x y z : Bool),
    LaneForm (.add d a b x y z) 0x00 d a b
      (givesC (fun i => BitVec.ofNat 32 (i.xw.toNat + i.yw.toNat)) fun i => 2 ^ 32 ≤ i.xw.toNat + i.yw.toNat) ∧
    LaneForm (.sub d a b x y z) 0x01 d a b
      (givesC (fun i => BitVec.ofInt 32 ((i.xw.toNat : Int) - i.yw.toNat)) fun i => i.xw.toNat < i.yw.toNat) ∧
    LaneForm (.mul d a b x y z) 0x02 d a b (gives fun i => BitVec.ofNat 32 (i.xw.toNat * i.yw.toNat)) ∧
    LaneForm (.mulhiS d a b x y z) 0x03 d a b (gives fun i => BitVec.ofInt 32 (i.xw.toInt * i.yw.toInt / 2 ^ 32)) ∧
    LaneForm (.mulhiN d a b x y z) 0x04 d a b (gives fun i => BitVec.ofNat 32 (i.xw.toNat * i.yw.toNat / 2 ^ 32)) ∧
    LaneForm (.mad d a b x y z) 0x05 d a b
      (gives fun i => BitVec.ofNat 32 (i.xw.toNat * i.yw.toNat + i.zw.toNat)) ∧
    LaneForm (.addc d a b x y z) 0x06 d a b
      (givesC (fun i => BitVec.ofNat 32 (i.xw.toNat + i.yw.toNat + i.c.toNat))
        fun i => 2 ^ 32 ≤ i.xw.toNat + i.yw.toNat + i.c.toNat) ∧
    LaneForm (.subb d a b x y z) 0x07 d a b
      (givesC (fun i => BitVec.ofInt 32 ((i.xw.toNat : Int) - i.yw.toNat - i.c.toNat))
        fun i => (i.xw.toNat : Int) - i.yw.toNat - i.c.toNat < 0) ∧
    LaneForm (.minS d a b x y z) 0x08 d a b (gives fun i => if i.xw.toInt ≤ i.yw.toInt then i.xw else i.yw) ∧
    LaneForm (.minN d a b x y z) 0x09 d a b (gives fun i => if i.xw.toNat ≤ i.yw.toNat then i.xw else i.yw) ∧
    LaneForm (.maxS d a b x y z) 0x0A d a b (gives fun i => if i.xw.toInt ≥ i.yw.toInt then i.xw else i.yw) ∧
    LaneForm (.maxN d a b x y z) 0x0B d a b (gives fun i => if i.xw.toNat ≥ i.yw.toNat then i.xw else i.yw) ∧
    LaneForm (.abs d a b x y z) 0x0C d a b
      (gives fun i => if i.xw.toInt < 0 then BitVec.ofInt 32 (-i.xw.toInt) else i.xw) ∧
    LaneForm (.neg d a b x y z) 0x0D d a b
      (givesC (fun i => BitVec.ofInt 32 (-(i.xw.toNat : Int))) fun i => i.xw.toNat ≠ 0)

/-- R212: the logical, shift and rotate forms; a shift amount is the whole word of b.

R213 to R217: bit fields, counts, byte permutation, selection, move and comparison. A field descriptor has its
position at [4:0] and its width at [13:8], cut at bit 31. -/
def Obligations.LogicAndFields : Prop :=
   (∀ (d a b : Field) (x y z : Bool),
      LaneForm (.and d a b x y z) 0x0E d a b (gives fun i => i.xw &&& i.yw) ∧
      LaneForm (.or d a b x y z) 0x0F d a b (gives fun i => i.xw ||| i.yw) ∧
      LaneForm (.xor d a b x y z) 0x10 d a b (gives fun i => i.xw ^^^ i.yw) ∧
      LaneForm (.andn d a b x y z) 0x11 d a b (gives fun i => i.xw &&& ~~~i.yw) ∧
      LaneForm (.not d a b x y z) 0x12 d a b (gives fun i => ~~~i.xw) ∧
      LaneForm (.shl d a b x y z) 0x13 d a b (gives fun i => BitVec.ofNat 32 (i.xw.toNat * 2 ^ i.yw.toNat)) ∧
      LaneForm (.shr d a b x y z) 0x14 d a b (gives fun i => BitVec.ofNat 32 (i.xw.toNat / 2 ^ i.yw.toNat)) ∧
      LaneForm (.sar d a b x y z) 0x15 d a b (gives fun i => BitVec.ofInt 32 (i.xw.toInt / 2 ^ i.yw.toNat)) ∧
      LaneForm (.rol d a b x y z) 0x16 d a b
        (gives fun i => BitVec.ofNat 32
          (i.xw.toNat * 2 ^ (i.yw.toNat % 32) + i.xw.toNat / 2 ^ (32 - i.yw.toNat % 32)))) ∧
   (∀ (d a b : Field) (x y z : Bool),
      LaneForm (.bfxS d a b x y z) 0x17 d a b
        (gives fun i =>
          let p := i.yw.toNat % 32
          let w := min (i.yw.toNat / 256 % 64) (32 - p)
          BitVec.ofInt 32 (signedOf w (i.xw.toNat / 2 ^ p))) ∧
      LaneForm (.bfxN d a b x y z) 0x18 d a b
        (gives fun i =>
          let p := i.yw.toNat % 32
          let w := min (i.yw.toNat / 256 % 64) (32 - p)
          BitVec.ofNat 32 (i.xw.toNat / 2 ^ p % 2 ^ w)) ∧
      LaneForm (.bfi d a b x y z) 0x19 d a b
        (gives fun i =>
          let p := i.yw.toNat % 32
          let w := min (i.yw.toNat / 256 % 64) (32 - p)
          BitVec.ofNat 32 (i.zw.toNat % 2 ^ p + i.xw.toNat % 2 ^ w * 2 ^ p + i.zw.toNat / 2 ^ (p + w) * 2 ^ (p + w))) ∧
      LaneForm (.popc d a b x y z) 0x1A d a b (gives fun i => BitVec.ofNat 32 (popCount i.xw)) ∧
      LaneForm (.clz d a b x y z) 0x1B d a b (gives fun i => BitVec.ofNat 32 (leadingZeros i.xw)) ∧
      LaneForm (.ctz d a b x y z) 0x1C d a b (gives fun i => BitVec.ofNat 32 (trailingZeros i.xw)) ∧
      LaneForm (.brev d a b x y z) 0x1D d a b (gives fun i => i.xw.reverse) ∧
      LaneForm (.permb d a b x y z) 0x1E d a b
        (gives fun i =>
          let byte (k : Nat) : Byte := permByte i.xw i.zw (i.yw.toNat / 16 ^ k % 16)
          byte 3 ++ byte 2 ++ byte 1 ++ byte 0) ∧
      LaneForm (.sel d a b x y z) 0x1F d a b (gives fun i => if i.xw = 0 then i.zw else i.yw) ∧
      LaneForm (.mov d a b x y z) 0x20 d a b (gives fun i => i.xw) ∧
      LaneForm (.cmpEq d a b x y z) 0x21 d a b (givesBool fun i => i.xw.toNat = i.yw.toNat) ∧
      LaneForm (.cmpNe d a b x y z) 0x22 d a b (givesBool fun i => i.xw.toNat ≠ i.yw.toNat) ∧
      LaneForm (.cmpLtS d a b x y z) 0x23 d a b (givesBool fun i => i.xw.toInt < i.yw.toInt) ∧
      LaneForm (.cmpLeS d a b x y z) 0x24 d a b (givesBool fun i => i.xw.toInt ≤ i.yw.toInt) ∧
      LaneForm (.cmpLtN d a b x y z) 0x25 d a b (givesBool fun i => i.xw.toNat < i.yw.toNat) ∧
      LaneForm (.cmpLeN d a b x y z) 0x26 d a b (givesBool fun i => i.xw.toNat ≤ i.yw.toNat))

/-- R218: the pair forms. ADDW, SUBW and MADW.N give C; the multiplications leave it. -/
def Obligations.WideInteger : Prop :=
  ∀ (d a b : Field) (x y z : Bool),
    LaneForm (.addw d a b x y z) 0x27 d a b
      (gives64C (fun i => BitVec.ofNat 64 (i.x.toNat + i.y.toNat)) fun i => 2 ^ 64 ≤ i.x.toNat + i.y.toNat) ∧
    LaneForm (.subw d a b x y z) 0x28 d a b
      (gives64C (fun i => BitVec.ofInt 64 ((i.x.toNat : Int) - i.y.toNat)) fun i => i.x.toNat < i.y.toNat) ∧
    LaneForm (.mulwS d a b x y z) 0x29 d a b (gives64 fun i => BitVec.ofInt 64 (i.xw.toInt * i.yw.toInt)) ∧
    LaneForm (.mulwN d a b x y z) 0x2A d a b (gives64 fun i => BitVec.ofNat 64 (i.xw.toNat * i.yw.toNat)) ∧
    LaneForm (.madwN d a b x y z) 0x2B d a b
      (gives64C (fun i => BitVec.ofNat 64 (i.xw.toNat * i.yw.toNat + i.z.toNat))
        fun i => 2 ^ 64 ≤ i.xw.toNat * i.yw.toNat + i.z.toNat)

/-! ### Registers, operands and lanes -/

/-- R27, R164, R178: a register write reaches only the lanes that take part; em takes the value of Low() whatever lanes
take part, and keeps no bit of an absent lane; the bits of cf that do not exist stay 0.

R26, R34, R164, R220: what the register codes other than dv read in a lane; ix, ln and sn read 0 in a truss strand.

The model's own choices in it: log entry 44. -/
def Obligations.RegisterReadsAndWrites : Prop :=
   (∀ (st : Strand) (c : Nat) (on : Nat → Bool) (f : Nat → Word) (j : Nat), j < 96 →
      (c < 100 → ∀ n, (st.put c on f).reg n j = if n = c ∧ on j then f j else st.reg n j) ∧
      (100 ≤ c → c < 108 → ∀ fresh n, 100 ≤ n → n < 108 →
        (st.put c on f).get fresh n j = if n = c ∧ on j then f j else st.get fresh n j) ∧
      (c = 123 → (st.put c on f).cfAt j = if on j then f j &&& cfMask else st.cfAt j) ∧
      (∀ w, w < 3 → c = 125 + w →
        (st.put c on f).em.getLsbD j =
          (st.present.getLsbD j && if j / 32 = w then (f st.low).getLsbD (j % 32) else st.em.getLsbD j)) ∧
      ((108 ≤ c ∧ c < 123 ∨ c = 124) → st.put c on f = st)) ∧
   (∀ (st : Strand) (fresh j : Nat), j < 96 →
      (∀ n, n < 100 → st.get fresh n j = st.reg n j) ∧
      (∀ m, m < 7 → st.get fresh (112 + m) j = st.literal m) ∧
      st.get fresh 119 j = 0 ∧
      (st.truss = false → st.get fresh 120 j = BitVec.ofNat 32 (st.sn * 96 + j) ∧ st.get fresh 121 j = BitVec.ofNat 32 j ∧
        st.get fresh 122 j = BitVec.ofNat 32 st.sn) ∧
      (st.truss = true → ∀ c, 120 ≤ c → c ≤ 122 → st.get fresh c j = 0) ∧
      st.get fresh 123 j = st.cfAt j ∧
      (∀ w k, w < 3 → k < 32 → (st.get fresh (125 + w) j).getLsbD k = st.em.getLsbD (32 * w + k)))

/-- R177, R178, R210, R219: the results of a form that computes each lane by itself land in the lanes with On(j), and in no
other: in the register or the pair d, in the temporary d or a pair of temporaries, or in cf, which then takes the word of the
result and no separate C; a mask word of em takes the result of Low(). The flags are ORed into cf in the lanes with On(j), and
C is written there by the forms that produce it, also where d is a mask word. -/
def Obligations.LaneResults : Prop :=
  ∀ (x : Pkg.Exe) (f : LaneIn → LaneOut) (j : Nat), j < 96 → x.ripple = [] →
    let r (j : Nat) : LaneOut := f (x.input x.env j)
    let n := x.form.d.regs
    let t := x.putResults (x.results f)
    ((n = 1 ∨ n = 2) → x.d + n ≤ 100 →
      (∀ m, t.reg m j = if x.d ≤ m ∧ m < x.d + n ∧ x.st.isOn j then (r j).val.extractLsb' (32 * (m - x.d)) 32
        else x.st.reg m j) ∧ t.em = x.st.em ∧ t.t = x.st.t) ∧
    ((n = 1 ∨ n = 2) → 100 ≤ x.d → x.d + n ≤ 108 →
      (∀ fresh m, 100 ≤ m → m < 108 → t.get fresh m j =
        if x.d ≤ m ∧ m < x.d + n ∧ x.st.isOn j then (r j).val.extractLsb' (32 * (m - x.d)) 32 else x.st.get fresh m j) ∧
      t.v = x.st.v ∧ t.em = x.st.em) ∧
    (n = 1 → x.d = 123 →
      t.cfAt j = (if x.st.isOn j then ((r j).val.setWidth 32 ||| (r j).flags) &&& cfMask else x.st.cfAt j) ∧
      t.v = x.st.v ∧ t.em = x.st.em ∧ t.t = x.st.t) ∧
    (∀ w, w < 3 → n = 1 → x.d = 125 + w →
      t.em.getLsbD j = (x.st.present.getLsbD j &&
        if j / 32 = w then (r x.st.low).val.getLsbD (j % 32) else x.st.em.getLsbD j) ∧ t.v = x.st.v ∧ t.t = x.st.t) ∧
    (¬ x.st.isOn j → t.cfAt j = x.st.cfAt j) ∧
    (x.d + n ≤ 100 ∨ n = 1 ∧ x.d ≠ 123 ∨ n = 2 ∧ 100 ≤ x.d ∧ x.d + 2 ≤ 108 →
      ((∀ i, (f i).carry = none) → x.st.isOn j → t.cfAt j = (x.st.cfAt j ||| (r j).flags) &&& cfMask) ∧
      (∀ c : LaneIn → Bool, (∀ i, (f i).carry = some (c i) ∧ (f i).flags = 0) → x.st.isOn j →
        x.st.cfAt j &&& cfMask = x.st.cfAt j →
        t.cfAt j = (x.st.cfAt j &&& ~~~cfC) ||| (if c (x.input x.env j) then cfC else 0))) ∧
    t.present = x.st.present ∧ t.mode = x.st.mode

/-- R61, R65: what dv_c delivers in a lane, by the cases of the rule: the value at the distance in the same strand, the
captured default in the first strand, a published round of the strand before, or that strand's final values.

R62: in a ripple, a lane at or above the distance reads lane j - k's value of the source register after the
instruction has acted there, and a lane below it reads what the channel delivers. -/
def Obligations.DovetailReads : Prop :=
   (∀ (p : Pkg) (st : Strand) (c j : Nat),
      (p.channel st c = none → p.readDv st c j = .misuse) ∧
      ∀ ch, p.channel st c = some ch →
        (ch.dist ≤ j → p.readDv st c j = .value (st.reg ch.vs (j - ch.dist)) false) ∧
        (j < ch.dist → st.sn = 0 → p.readDv st c j = .value (ch.defaults.get j 0) false) ∧
        (j < ch.dist → st.sn ≠ 0 →
          let before := p.dove st.launch (st.sn - 1)
          (before.chans.get? c = none → p.readDv st c j = if before.ended then .misuse else .wait) ∧
          ∀ pc, before.chans.get? c = some pc →
            ((pc.vs ≠ ch.vs ∨ pc.dist ≠ ch.dist ∨ pc.self ≠ ch.self) → p.readDv st c j = .misuse) ∧
            (pc.vs = ch.vs → pc.dist = ch.dist → pc.self = ch.self →
              (∀ r, pc.rounds.get? (ch.count + 1) = some r → p.readDv st c j = .value (r.getD j 0) false) ∧
              (pc.rounds.get? (ch.count + 1) = none →
                p.readDv st c j = if pc.ended || before.ended then .value (pc.final.getD j 0) true else .wait)))) ∧
   (∀ (x : Pkg.Exe) (f : LaneIn → LaneOut) (c k j : Nat), x.ripple = [(c, k)] → 0 < k → x.d < 100 →
      x.form.d.regs = 1 → j < 96 → x.st.isOn j →
      let t := x.putResults (x.results f)
      t.reg x.d j = (f (x.input { x.env with
        dv := fun c' i => if c' = c ∧ k ≤ i then t.reg x.d (i - k) else x.env.dv c' i } j)).val.setWidth 32)

/-! ### The checks before an instruction, and traps -/

/-- R179: a word whose form exists on its core, whose privilege and operands are in order, that names no dovetail
channel, and that waits for no earlier operation and observes no failure of one, is admitted with the operands of its
word.

R58 to R60, R62, R64, R65, R67, R179, R181: the first condition in the order Illegal Instruction, Privilege, Illegal Operand,
Dovetail Misuse is the trap that any instruction word raises, naming the lanes with On(j). A dv operand of DVDECL and a
ripple of a form that may not ripple are Illegal Operand. Dovetail Misuse is a dv operand or a dovetail form in a launch
without the flag; in one with it, a second DVDECL of a channel, a DVPUB, a DVEND or a read of an undeclared channel, and a
boundary read of a channel that the strand before declared otherwise.

R180: exactly the opcodes that the opcode map assigns are instructions; a strand that meets another one below 0xF0 takes
the Illegal Instruction trap, cause 0x01, and nothing else happens.

The model's own choices in it: log entry 87. -/
def Obligations.Checks : Prop :=
   (∀ (s : State) (sid : Nat) (st : Strand) (op : Nat) (d a b : Field) (f : Form),
      s.Runs sid st → formOf op b.toNat (modeElem st.mode) st.truss = some f →
      (if st.truss then f.truss else f.vector) = true → (privileged op b.toNat = true → st.handler = true) →
      legalOperands f op d.toNat a.toNat b.toNat st.nregs st.litCount st.mode = true →
      Pkg.dvSources f d.toNat a.toNat b.toNat = [] → Pkg.dvNamed op b.toNat = none →
      s.pkg.interlocked sid st f op d.toNat a.toNat b.toNat [] false = false →
      Pkg.observedFailure st f op d.toNat a.toNat b.toNat [] false = none →
      ∃ x : Pkg.Exe, s.Admits op d a b x ∧ x.sid = sid ∧ x.st = st ∧ x.form = f ∧ x.d = d.toNat ∧ x.a = a.toNat ∧
        x.b = b.toNat ∧ x.ripple = [] ∧ x.dx = []) ∧
   (∀ (i : Instr) (s : State) (sid : Nat) (st : Strand) (op : Nat) (d a b : Field) (r0 r1 r2 : Bool),
      i.parts = some (op, d, a, b, r0, r1, r2) → s.Runs sid st →
      let form := formOf op b.toNat (modeElem st.mode) st.truss
      let traps (cause extra : Nat) : Prop :=
        exec i s = .next { s with pkg := s.pkg.takeTrap sid { cause := cause, lanes := st.onLanes, extra0 := extra } st.slot }
      (form = none → traps 0x01 0) ∧
      (∀ f, form = some f → (if st.truss then f.truss else f.vector) = false → traps 0x01 0) ∧
      (∀ f, form = some f → (if st.truss then f.truss else f.vector) = true → privileged op b.toNat = true →
        st.handler = false → traps 0x04 0) ∧
      (∀ f, form = some f → (if st.truss then f.truss else f.vector) = true →
        (privileged op b.toNat = true → st.handler = true) →
        legalOperands f op d.toNat a.toNat b.toNat st.nregs st.litCount st.mode = false → traps 0x03 0) ∧
      (∀ f, form = some f → (if st.truss then f.truss else f.vector) = true →
        (privileged op b.toNat = true → st.handler = true) →
        legalOperands f op d.toNat a.toNat b.toNat st.nregs st.litCount st.mode = true →
        let sources := Pkg.dvSources f d.toNat a.toNat b.toNat
        let flagged := ldDovetail (s.pkg.descOf st)
        (op = 0x6D → 108 ≤ a.toNat → a.toNat < 112 → traps 0x03 0) ∧
        (∀ c rest ch, flagged = true → sources = c :: rest → s.pkg.channel st c = some ch → ch.self = true →
          ch.vs ∈ f.writes (modeSizes st.mode) d.toNat a.toNat b.toNat →
          op ∉ [0x00, 0x05, 0x08, 0x0A, 0x1F, 0x30, 0x33, 0x34, 0x35] → traps 0x03 0) ∧
        ((st.truss = false ∨ op ∉ [0x82, 0x83, 0xA1]) →
          (∀ c rest, flagged = false → sources = c :: rest → op ≠ 0x6D → traps 0x0D c) ∧
          (∀ c, flagged = false → sources = [] → Pkg.dvNamed op b.toNat = some c → traps 0x0D c) ∧
          (flagged = true → op = 0x6D → sources = [] →
            ((s.pkg.dove st.launch st.sn).chans.get? (b.toNat / 32)).isSome = true → traps 0x0D (b.toNat / 32)) ∧
          (flagged = true → op = 0x6E ∨ op = 0x6F → s.pkg.channel st b.toNat = none → traps 0x0D b.toNat) ∧
          (∀ c, flagged = true → Pkg.dvNamed op b.toNat = none → sources = [c] → s.pkg.channel st c = none → traps 0x0D c) ∧
          (∀ c js j ch, flagged = true → Pkg.dvNamed op b.toNat = none → sources = [c] →
            s.pkg.channel st c = some ch → ch.self = false →
            Pkg.dvNeeds st f op d.toNat a.toNat b.toNat = [(c, js)] → j ∈ js → s.pkg.readDv st c j = .misuse →
            traps 0x0D c)))) ∧
   (let reserved (op : Nat) : Prop :=
      op ∈ [0x2C, 0x2D, 0x2E, 0x2F, 0x5E, 0x5F, 0xAD, 0xAE, 0xAF, 0xBE, 0xBF, 0xCF] ∨ (0x92 ≤ op ∧ op ≤ 0x9F) ∨
        (0xEA ≤ op ∧ op ≤ 0xEF)
    (∀ w : Word, (∃ i, decode (wordBytes w) = .ok (i, [])) ↔ ¬ reserved (wordOpcode w) ∧ wordOpcode w < 0xF0) ∧
    (∀ (s : State) (sid : Nat) (st : Strand), s.pkg.strand? sid = some st → s.pkg.mayRun sid st = true →
      s.pkg.isExhausted (sidCtx sid) = false → reserved (wordOpcode (st.words.getD st.slot 0)) →
      s.perform (.run sid) =
        .next { s with pkg := s.pkg.takeTrap sid { cause := 0x01, lanes := st.onLanes } st.slot }))

/-- R52, R205, R206: a trap writes the trap record, its lanes as a mask, and saves the frame; the handler begins at its entry with the
registers unchanged, guard enable cleared and em unchanged.

R53: a fault raised in the handler does not enter it again: the launch tree ends with status 4, HANDLER_FAULT, no
strand of the tree is left, every other strand is as before, and memory is unchanged, but for the rows that an ACCST of the
tree had stored, which stay stored (R134).

The model's own choices in it: log entries 42 and 68. -/
def Obligations.Traps : Prop :=
   (∀ (p : Pkg) (sid : Nat) (st : Strand) (c : Ctx) (t : Trap) (slot : Nat),
      p.strand? sid = some st → st.handler = false → p.ctxs.get? (sidCtx sid) = some c →
      ∃ u : Strand, p.takeTrap sid t slot = p.setStrand sid u ∧
        u.frame = some { clause := st.clause, slot := st.slot, temps := st.t, mode := st.mode, em := st.em } ∧
        u.handler = true ∧ u.clause = BitVec.ofNat 64 (crHandler c.record) ∧ u.slot = 0 ∧ u.executing = false ∧
        u.mode = st.mode &&& ~~~1 ∧ u.em = st.em ∧ u.present = st.present ∧ u.v = st.v ∧ u.cf = st.cf ∧ u.sh = st.sh ∧
        u.ops = st.ops ∧ u.slice = st.slice ∧
        u.trapRecord.get 0 0 = BitVec.ofNat 32 (t.cause + 256 * t.reason + 65536 * slot) ∧
        u.trapRecord.get 1 0 = st.clause.setWidth 32 ∧ u.trapRecord.get 2 0 = st.clause.extractLsb' 32 32 ∧
        (∀ w k, w < 3 → k < 32 → (u.trapRecord.get (3 + w) 0).getLsbD k = decide (32 * w + k ∈ t.lanes)) ∧
        u.trapRecord.get 6 0 = BitVec.ofNat 32 (t.lanes.headD 0) ∧
        u.trapRecord.get 7 0 = BitVec.ofNat 32 t.addr ∧ u.trapRecord.get 8 0 = BitVec.ofNat 32 (t.addr / 2 ^ 32) ∧
        u.trapRecord.get 9 0 = BitVec.ofNat 32 t.extra0 ∧ u.trapRecord.get 10 0 = BitVec.ofNat 32 t.extra1 ∧
        u.trapRecord.get 11 0 = BitVec.ofNat 32 t.extra2) ∧
   (∀ (p : Pkg) (sid : Nat) (st : Strand) (t : Trap) (tr : Tree) (slot : Nat),
      p.strand? sid = some st → st.handler = true → p.trees.get? (p.treeKeyOf st) = some tr →
      let k := p.treeKeyOf st
      let q := p.takeTrap sid t slot
      let r := p.revealBents fun b => (p.treeLaunches k).contains b.launch
      (∃ tr', q.trees.get? k = some tr' ∧ tr'.killed = true ∧ tr'.counter = 0 ∧ tr'.status = some (tr.status.getD 4)) ∧
      (∀ e, e ∈ q.strands ↔ e ∈ r.strands ∧ e.2.launch ∉ p.treeLaunches k) ∧ q.mem = r.mem ∧
      ((∀ b ∈ p.bents, b.2.launch ∈ p.treeLaunches k → b.2.hidden = []) → r.strands = p.strands ∧ r.mem = p.mem))

/-! ### Floating-point forms -/

/-- The rational value of an exact value. -/
def exactVal (x : Exact) : ℚ := (if x.neg then -1 else 1) * (x.m : ℚ) * (2 : ℚ) ^ x.e

/-- The order of numbers that are not NaNs: that of their values, with −∞ below and +∞ above every finite one (R227). -/
def numLt (f : Fmt) (x y : Nat) : Prop :=
  f.isInf x ∧ f.isNeg x ∧ ¬ (f.isInf y ∧ f.isNeg y) ∨ f.isInf y ∧ ¬ f.isNeg y ∧ ¬ (f.isInf x ∧ ¬ f.isNeg x) ∨
    f.isFinite x ∧ f.isFinite y ∧ exactVal (exactOf f x) < exactVal (exactOf f y)

/-- `z` is the integer to which a rounding mode takes the value `v`: RNE, RTZ, RDN, RUP and RNA in this order (R75). -/
def roundsTo (mode : Nat) (v : ℚ) (z : Int) : Prop :=
  match mode with
  | 0 => |z - v| ≤ 1 / 2 ∧ (|z - v| = 1 / 2 → Even z)
  | 1 => |(z : ℚ)| ≤ |v| ∧ |v - z| < 1 ∧ 0 ≤ v * z
  | 2 => (z : ℚ) ≤ v ∧ v < z + 1
  | 3 => v ≤ z ∧ (z : ℚ) < v + 1
  | _ => |z - v| ≤ 1 / 2 ∧ (|z - v| = 1 / 2 → |v| ≤ |(z : ℚ)|)

/-- Does a rounding mode take the magnitude `a` of a value to `t` or beyond, where the values of the precision next below `t` lie
`u` below it, and `t` has an even significand (R75)? -/
def reaches (mode : Nat) (neg : Bool) (a t u : ℝ) : Prop :=
  match mode with
  | 1 => t ≤ a
  | 2 => if neg then t - u < a else t ≤ a
  | 3 => if neg then t ≤ a else t - u < a
  | _ => t - u / 2 ≤ a

/-- `y` is the finite value of a format that a rounding mode picks for `v`: RNE, RTZ, RDN, RUP and RNA in this order (R75). -/
def picks (f : Fmt) (mode : Nat) (v : ℝ) (y : Nat) : Prop :=
  let val (n : Nat) : ℝ := exactVal (exactOf f n)
  let nearest := ∀ z, f.isFinite z = true → |v - val y| ≤ |v - val z|
  let tie := ∃ z, f.isFinite z = true ∧ val z ≠ val y ∧ |v - val z| = |v - val y|
  match mode with
  | 0 => nearest ∧ (tie → y % 2 = 0)
  | 1 => |val y| ≤ |v| ∧ ∀ z, f.isFinite z = true → |val z| ≤ |v| → |val z| ≤ |val y|
  | 2 => val y ≤ v ∧ ∀ z, f.isFinite z = true → val z ≤ v → val z ≤ val y
  | 3 => v ≤ val y ∧ ∀ z, f.isFinite z = true → v ≤ val z → val y ≤ val z
  | _ => nearest ∧ (tie → |v| ≤ |val y|)

/-- `r` is the rounding of the value `v`, which is not 0, to a format, with its flags. A value whose rounding, with exponents
unbounded, exceeds the largest finite one overflows: it gives what the policy and the mode say, with OF and NX (R77, R82). Any other
gives the finite value that the mode picks, with its sign (R75); NX where that is not `v`, and UF then where the rounding, with
exponents unbounded, is below the smallest normal value (R77). -/
def rounded (f : Fmt) (mode policy : Nat) (v : ℝ) (r : FRes) : Prop :=
  ∃ neg : Bool, (neg = true ↔ v < 0) ∧
    let val : ℝ := exactVal (exactOf f r.bits)
    let overflows := reaches mode neg |v| ((2 : ℝ) ^ (f.bias + 1)) ((2 : ℝ) ^ ((f.bias : ℤ) - f.frac))
    let tiny := ¬ reaches mode neg |v| ((2 : ℝ) ^ f.emin) ((2 : ℝ) ^ (f.emin - 1 - f.frac))
    let toInf := policy = 0 ∧ (mode ∉ [1, 2, 3] ∨ mode = 2 ∧ neg = true ∨ mode = 3 ∧ neg = false)
    (overflows → toInf → r = ⟨f.signed neg f.inf, flOF ||| flNX⟩) ∧
    (overflows → ¬ toInf → r = ⟨f.signed neg f.largest, flOF ||| flNX⟩) ∧
    (¬ overflows → f.isFinite r.bits = true ∧ r.bits < 2 ^ f.width ∧ f.isNeg r.bits = neg ∧ picks f mode v r.bits ∧
      (val = v → r.flags = 0) ∧ (val ≠ v → tiny → r.flags = flUF ||| flNX) ∧ (val ≠ v → ¬ tiny → r.flags = flNX))

/-- R226: the arithmetic on finite operands rounds the exact sum, difference, product or fused sum once; an exact zero
sum of unlike zeros is + except in RDN, where it is -. Rounding leaves a value of the format as it is, with no flag.

R75, R77, R82: what the rounding of any exact value gives, in each mode, with its flags, and where it overflows with the policies
IEEE and saturate; that of an exact zero is the zero of its sign. -/
def Obligations.FloatExact : Prop :=
  (∀ (f : Fmt) (mode policy : Nat) (e : Exact), f ∈ [fp64, fp32, fp16, bf16] → e.sticky = false →
    (e.m ≠ 0 → rounded f mode policy (exactVal e) (roundTo f mode e policy)) ∧
    (e.m = 0 → roundTo f mode e policy = ⟨f.signed e.neg 0, 0⟩)) ∧
  ∀ (f : Fmt) (mode x y z : Nat), f ∈ [fp64, fp32, fp16, bf16] → f.isFinite x → f.isFinite y → f.isFinite z →
    let v (n : Nat) : ℚ := exactVal (exactOf f n)
    (∃ e : Exact, fAdd f mode x y = roundTo f mode e ∧ e.sticky = false ∧ exactVal e = v x + v y ∧
      (exactVal e = 0 → e.neg = if f.isZero x ∧ f.isZero y ∧ f.isNeg x = f.isNeg y then f.isNeg x else mode == 2)) ∧
    (∃ e : Exact, fSub f mode x y = roundTo f mode e ∧ e.sticky = false ∧ exactVal e = v x - v y) ∧
    (∃ e : Exact, fMul f mode x y = roundTo f mode e ∧ e.sticky = false ∧ exactVal e = v x * v y ∧
      e.neg = (f.isNeg x != f.isNeg y)) ∧
    (∃ e : Exact, fFma f mode x y z = roundTo f mode e ∧ e.sticky = false ∧ exactVal e = v x * v y + v z) ∧
    (∀ k : Int, -4096 ≤ k → k ≤ 4096 → f.isZero x = false →
      ∃ e : Exact, fLdexp f mode x k = roundTo f mode e ∧ e.sticky = false ∧ exactVal e = v x * 2 ^ k) ∧
    (x < 2 ^ f.width → roundTo f mode (exactOf f x) = ⟨x, 0⟩)

/-- R78, R226: a NaN operand of the arithmetic forms gives the quiet form of the first NaN in the order a, b, d, and a
signalling one sets NV.

R78, R238: the special values of the special functions, for every operand of each class of the table, in every rounding mode and,
for the quotient and the root, in both formats; a NaN gives its quiet form. -/
def Obligations.FloatSpecialValues : Prop :=
   (∀ (f : Fmt) (mode x y z : Nat), f ∈ [fp64, fp32, fp16, bf16] →
      (f.isNaN x → ∀ r, r ∈ [fAdd f mode x y, fSub f mode x y, fMul f mode x y, fDiv f mode x y, fFma f mode x y z] →
        r.bits = f.quiet x ∧ (f.isSNaN x → r.flags &&& flNV = flNV)) ∧
      (f.isNaN x = false → f.isNaN y →
        ∀ r, r ∈ [fAdd f mode x y, fSub f mode x y, fMul f mode x y, fDiv f mode x y, fFma f mode x y z] →
          r.bits = f.quiet y ∧ (f.isSNaN y → r.flags &&& flNV = flNV)) ∧
      (f.isNaN x = false → f.isNaN y = false → f.isNaN z →
        (fFma f mode x y z).bits = f.quiet z ∧ (f.isSNaN z → (fFma f mode x y z).flags &&& flNV = flNV))) ∧
   (∀ (f : Fmt) (mode x y : Nat), f ∈ [fp64, fp32] → x < 2 ^ f.width → y < 2 ^ f.width →
      let neg := f.isNeg x != f.isNeg y
      (f.isFinite x → ¬ f.isZero x → f.isZero y → fDiv f mode x y = ⟨f.signed neg f.inf, flDZ⟩) ∧
      (f.isZero x ∧ f.isZero y ∨ f.isInf x ∧ f.isInf y → fDiv f mode x y = ⟨f.canon, flNV⟩) ∧
      (f.isFinite x → f.isInf y → fDiv f mode x y = ⟨f.signed neg 0, 0⟩) ∧
      (f.isZero x → ¬ f.isZero y → ¬ f.isNaN y → fDiv f mode x y = ⟨f.signed neg 0, 0⟩) ∧
      (f.isInf x → f.isFinite y → fDiv f mode x y = ⟨f.signed neg f.inf, 0⟩) ∧
      (f.isZero x → fSqrt f mode x = ⟨x, 0⟩) ∧ (f.isInf x → ¬ f.isNeg x → fSqrt f mode x = ⟨x, 0⟩) ∧
      (f.isNeg x → ¬ f.isZero x → ¬ f.isNaN x → fSqrt f mode x = ⟨f.canon, flNV⟩) ∧
      (f.isNaN x → fSqrt f mode x = ⟨f.quiet x, if f.isSNaN x then flNV else 0⟩)) ∧
   (∀ (mode x : Nat), x < 2 ^ 32 →
      let f := fp32
      let neg := f.isNeg x
      let below := f.isNeg x ∧ ¬ f.isZero x ∧ ¬ f.isNaN x
      (f.isZero x → fRsqrt f mode x = ⟨f.signed neg f.inf, flDZ⟩ ∧ fLog2 mode x = ⟨f.signed true f.inf, flDZ⟩ ∧
        fSinCos false mode x = ⟨x, 0⟩ ∧ fSinCos true mode x = ⟨0x3F800000, 0⟩ ∧ fTanh mode x = ⟨x, 0⟩) ∧
      (f.isInf x → fExp2 mode x = ⟨if neg then 0 else f.inf, 0⟩ ∧
        (∀ cosine, fSinCos cosine mode x = ⟨f.canon, flNV⟩) ∧ fTanh mode x = ⟨f.signed neg 0x3F800000, 0⟩ ∧
        (¬ neg → fRsqrt f mode x = ⟨0, 0⟩ ∧ fLog2 mode x = ⟨f.inf, 0⟩)) ∧
      (below → fRsqrt f mode x = ⟨f.canon, flNV⟩ ∧ fLog2 mode x = ⟨f.canon, flNV⟩) ∧
      (∀ n : ℤ, -149 ≤ n → n ≤ 127 → f.isFinite x → exactVal (exactOf f x) = n →
        let r := fExp2 mode x
        f.isFinite r.bits = true ∧ exactVal (exactOf f r.bits) = (2 : ℚ) ^ n ∧ r.bits < 2 ^ 31 ∧ r.flags = 0) ∧
      fLog2 mode 0x3F800000 = ⟨0, 0⟩ ∧
      (f.isNaN x → ∀ r ∈ [fRsqrt f mode x, fExp2 mode x, fLog2 mode x, fSinCos false mode x, fSinCos true mode x, fTanh mode x],
        r = ⟨f.quiet x, if f.isSNaN x then flNV else 0⟩))

/-- R226 to R228: the arithmetic, minimum, maximum and comparison forms, with FP32 words or FP64 pairs, in the mode's
rounding.

R227, R228: of two numbers the minimum is the lower and the maximum the higher, −0 below +0; a NaN gives way to a number, two
NaNs give the quiet form of the first, and a signalling one sets NV. The comparisons give 1 or 0 by the order of the values;
a NaN makes all but the unordered one 0, and sets NV, in EQ and UO only where it signals. -/
def Obligations.FloatForms : Prop :=
  (∀ (f : Fmt) (x y : Nat), f ∈ [fp64, fp32, fp16, bf16] →
    let nan := f.isNaN x = true ∨ f.isNaN y = true
    let snan := f.isSNaN x = true ∨ f.isSNaN y = true
    let low := fMinMax f false x y
    let high := fMinMax f true x y
    (¬ nan → low.flags = 0 ∧ high.flags = 0 ∧ (numLt f x y → low.bits = x ∧ high.bits = y) ∧
      (numLt f y x → low.bits = y ∧ high.bits = x) ∧
      (f.isZero x → f.isZero y → f.isNeg x → ¬ f.isNeg y → low.bits = x ∧ high.bits = y) ∧
      (f.isZero x → f.isZero y → ¬ f.isNeg x → f.isNeg y → low.bits = y ∧ high.bits = x) ∧
      (¬ numLt f x y → ¬ numLt f y x → f.isNeg x = f.isNeg y → low.bits = x ∧ high.bits = x)) ∧
    (nan → ∀ r ∈ [low, high], (r.flags = if f.isSNaN x ∨ f.isSNaN y then flNV else 0) ∧
      (f.isNaN x = false → r.bits = x) ∧ (f.isNaN y = false → r.bits = y) ∧
      (f.isNaN x → f.isNaN y → r.bits = f.quiet x)) ∧
    (¬ nan → (∀ rel, (fCmp f rel x y).flags = 0) ∧ ((fCmp f .eq x y).bits = 1 ↔ ¬ numLt f x y ∧ ¬ numLt f y x) ∧
      ((fCmp f .lt x y).bits = 1 ↔ numLt f x y) ∧ ((fCmp f .le x y).bits = 1 ↔ ¬ numLt f y x) ∧ (fCmp f .uo x y).bits = 0) ∧
    (nan → (fCmp f .eq x y).bits = 0 ∧ (fCmp f .lt x y).bits = 0 ∧ (fCmp f .le x y).bits = 0 ∧ (fCmp f .uo x y).bits = 1 ∧
      (fCmp f .lt x y).flags = flNV ∧ (fCmp f .le x y).flags = flNV ∧
      (snan → (fCmp f .eq x y).flags = flNV ∧ (fCmp f .uo x y).flags = flNV) ∧
      (¬ snan → (fCmp f .eq x y).flags = 0 ∧ (fCmp f .uo x y).flags = 0)) ∧
    ∀ rel, (fCmp f rel x y).bits = 0 ∨ (fCmp f rel x y).bits = 1) ∧
  ∀ (d a b : Field) (x y z : Bool),
    LaneForm (.fadd d a b x y z) 0x30 d a b (fun i => (fAdd fp32 (modeRound i.mode) i.xw.toNat i.yw.toNat).out) ∧
    LaneForm (.fsub d a b x y z) 0x31 d a b (fun i => (fSub fp32 (modeRound i.mode) i.xw.toNat i.yw.toNat).out) ∧
    LaneForm (.fmul d a b x y z) 0x32 d a b (fun i => (fMul fp32 (modeRound i.mode) i.xw.toNat i.yw.toNat).out) ∧
    LaneForm (.ffma d a b x y z) 0x33 d a b (fun i => (fFma fp32 (modeRound i.mode) i.xw.toNat i.yw.toNat i.zw.toNat).out) ∧
    LaneForm (.fldexp d a b x y z) 0x3D d a b (fun i => (fLdexp fp32 (modeRound i.mode) i.xw.toNat i.yw.toInt).out) ∧
    LaneForm (.dadd d a b x y z) 0x47 d a b (fun i => (fAdd fp64 (modeRound i.mode) i.x.toNat i.y.toNat).out64) ∧
    LaneForm (.dmul d a b x y z) 0x48 d a b (fun i => (fMul fp64 (modeRound i.mode) i.x.toNat i.y.toNat).out64) ∧
    LaneForm (.dfma d a b x y z) 0x49 d a b (fun i => (fFma fp64 (modeRound i.mode) i.x.toNat i.y.toNat i.z.toNat).out64) ∧
    LaneForm (.fmin d a b x y z) 0x34 d a b (fun i => (fMinMax fp32 false i.xw.toNat i.yw.toNat).out) ∧
    LaneForm (.fmax d a b x y z) 0x35 d a b (fun i => (fMinMax fp32 true i.xw.toNat i.yw.toNat).out) ∧
    LaneForm (.dmin d a b x y z) 0x4A d a b (fun i => (fMinMax fp64 false i.x.toNat i.y.toNat).out64) ∧
    LaneForm (.dmax d a b x y z) 0x4B d a b (fun i => (fMinMax fp64 true i.x.toNat i.y.toNat).out64) ∧
    LaneForm (.fcmpEq d a b x y z) 0x36 d a b (fun i => (fCmp fp32 .eq i.xw.toNat i.yw.toNat).out) ∧
    LaneForm (.fcmpLt d a b x y z) 0x37 d a b (fun i => (fCmp fp32 .lt i.xw.toNat i.yw.toNat).out) ∧
    LaneForm (.fcmpLe d a b x y z) 0x38 d a b (fun i => (fCmp fp32 .le i.xw.toNat i.yw.toNat).out) ∧
    LaneForm (.fcmpUo d a b x y z) 0x39 d a b (fun i => (fCmp fp32 .uo i.xw.toNat i.yw.toNat).out) ∧
    LaneForm (.dcmpEq d a b x y z) 0x4C d a b (fun i => (fCmp fp64 .eq i.x.toNat i.y.toNat).out) ∧
    LaneForm (.dcmpLt d a b x y z) 0x4D d a b (fun i => (fCmp fp64 .lt i.x.toNat i.y.toNat).out)

/-- R229 to R231: rounding to an integral value, the fraction, the class mask and the conversions between FP32 and the
integers. #n is the b field.

R232 to R235: CVTH packs or widens a half, CVTW and DCVT convert 64-bit and FP64 values, and the packed forms act on
the two halves apart. #n is the b field.

R79, R81, R229, R230: the values of the conversions. A finite number rounds to the integral value of the mode, keeps its sign
and sets no flag; its fraction is what truncation cuts off; its class is by its value; another format rounds its exact value
once, and a wider one holds it; an integer type takes the rounded value, or its nearest bound with NV, and NX where the
value was not integral. NaNs and infinities go as the rules say.

R237 to R239: the special-function forms issue on flag B, and their results and flags land when they complete. The quotient, the
root and the reciprocal root of finite operands, the last two of a positive one, are the exact values rounded once; of the other
functions the results are those that the model's functions compute.

The model's own choices in it: log entry 9. -/
def Obligations.FloatConversionsAndSpecialForms : Prop :=
   (∀ (f : Fmt) (x : Nat), f ∈ [fp64, fp32, fp16, bf16] → x < 2 ^ f.width →
      let v (n : Nat) : ℚ := exactVal (exactOf f n)
      (f.isFinite x →
        (∀ mode, mode ≤ 4 → ∃ z : Int, roundsTo mode (v x) z ∧ v (fRound f mode x).bits = z ∧
          f.isNeg (fRound f mode x).bits = f.isNeg x ∧ (fRound f mode x).flags = 0 ∧ (v x = z → (fRound f mode x).bits = x)) ∧
        (∃ z : Int, roundsTo 1 (v x) z ∧ v (fFrac f x).bits = v x - z ∧ f.isNeg (fFrac f x).bits = f.isNeg x ∧
          (fFrac f x).flags = 0) ∧
        (v x = 0 → fClass f x = if f.isNeg x then 8 else 16) ∧
        (v x ≠ 0 → |v x| < 2 ^ f.emin → fClass f x = if f.isNeg x then 4 else 32) ∧
        (2 ^ f.emin ≤ |v x| → fClass f x = if f.isNeg x then 2 else 64) ∧
        (∀ (t : IntTy) mode, t ∈ [⟨8, false⟩, ⟨8, true⟩, ⟨16, false⟩, ⟨16, true⟩, ⟨32, false⟩, ⟨32, true⟩, ⟨64, false⟩, ⟨64, true⟩] →
          mode ≤ 4 → ∃ z : Int, roundsTo mode (v x) z ∧ fToInt f t mode x =
            if z < t.lo then (t.lo, flNV) else if t.hi < z then (t.hi, flNV) else (z, if v x = z then 0 else flNX)) ∧
        (∀ (dst : Fmt) mode policy, ∃ e : Exact, fConv f dst mode policy x = roundTo dst mode e policy ∧ e.sticky = false ∧
          exactVal e = v x ∧ e.neg = f.isNeg x) ∧
        (∀ (dst : Fmt) mode policy, (f, dst) ∈ [(fp32, fp64), (fp16, fp32), (bf16, fp32)] →
          exactVal (exactOf dst (fConv f dst mode policy x).bits) = v x ∧ (fConv f dst mode policy x).flags = 0 ∧
          dst.isFinite (fConv f dst mode policy x).bits ∧ dst.isNeg (fConv f dst mode policy x).bits = f.isNeg x)) ∧
      (f.isInf x → (∀ mode, fRound f mode x = ⟨x, 0⟩) ∧ fFrac f x = ⟨f.canon, flNV⟩ ∧
        fClass f x = (if f.isNeg x then 1 else 128) ∧
        (∀ (t : IntTy) mode, fToInt f t mode x = (if f.isNeg x then t.lo else t.hi, flNV)) ∧
        ∀ (dst : Fmt) mode policy, fConv f dst mode policy x = ⟨dst.signed (f.isNeg x) dst.inf, 0⟩) ∧
      (f.isNaN x → let nv := if f.isSNaN x then flNV else 0
        (∀ mode, fRound f mode x = ⟨f.quiet x, nv⟩) ∧ fFrac f x = ⟨f.quiet x, nv⟩ ∧
        fClass f x = (if f.isSNaN x then 256 else 512) ∧ (∀ (t : IntTy) mode, fToInt f t mode x = (0, flNV)) ∧
        ∀ (dst : Fmt) mode policy, dst ∈ [fp64, fp32, fp16, bf16] → let r := fConv f dst mode policy x
          dst.isNaN r.bits ∧ dst.isSNaN r.bits = f.isSNaN x ∧ dst.isNeg r.bits = f.isNeg x ∧ r.flags = nv) ∧
      ∀ (mode policy : Nat) (n : Int), ∃ e : Exact, intToF f mode n policy = roundTo f mode e policy ∧ e.sticky = false ∧
        exactVal e = n) ∧
   (∀ (f : Fmt) (mode x y : Nat), f ∈ [fp64, fp32] → f.isFinite x → f.isFinite y → ¬ f.isZero x → ¬ f.isZero y →
      let v (n : Nat) : ℝ := exactVal (exactOf f n)
      rounded f mode 0 (v x / v y) (fDiv f mode x y) ∧
      (¬ f.isNeg x → rounded f mode 0 (Real.sqrt (v x)) (fSqrt f mode x) ∧
        rounded f mode 0 (1 / Real.sqrt (v x)) (fRsqrt f mode x))) ∧
   (∀ (d a b : Field) (x y z : Bool),
      LaneForm (.frnd d a b x y z) 0x3A d a b (fun i => (fRound fp32 (if i.n = 5 then modeRound i.mode else i.n) i.xw.toNat).out) ∧
      LaneForm (.drnd d a b x y z) 0x4F d a b (fun i => (fRound fp64 (if i.n = 5 then modeRound i.mode else i.n) i.x.toNat).out64) ∧
      LaneForm (.ffrc d a b x y z) 0x3B d a b (fun i => (fFrac fp32 i.xw.toNat).out) ∧
      LaneForm (.fclass d a b x y z) 0x3C d a b (fun i => out32 (BitVec.ofNat 32
          (match i.n with
            | 0 => fClass fp32 i.xw.toNat
            | 1 => fClass fp16 (i.xw.toNat % 65536)
            | 2 => fClass bf16 (i.xw.toNat % 65536)
            | _ => fClass fp64 i.x.toNat))) ∧
      LaneForm (.cvti d a b x y z) 0x3E d a b (fun i =>
        outInt 32 (fToInt fp32 (([⟨8, false⟩, ⟨8, true⟩, ⟨16, false⟩, ⟨16, true⟩, ⟨32, false⟩, ⟨32, true⟩] : List IntTy).getD i.n ⟨32, true⟩) (modeRound i.mode) i.xw.toNat)) ∧
      LaneForm (.cvtf d a b x y z) 0x3F d a b (fun i =>
        (intToF fp32 (modeRound i.mode) ((([⟨8, false⟩, ⟨8, true⟩, ⟨16, false⟩, ⟨16, true⟩, ⟨32, false⟩, ⟨32, true⟩] : List IntTy).getD i.n ⟨32, true⟩).view i.xw.toNat)).out)) ∧
   (∀ (d a b : Field) (x y z : Bool),
      LaneForm (.cvth d a b x y z) 0x40 d a b (fun i =>
        let r := fConv fp32 (if i.n % 4 < 2 then fp16 else bf16) (modeRound i.mode) (min (modePolicy i.mode) 1) i.xw.toNat
        if i.n < 4 then
          out32 (BitVec.ofNat 32 (if i.n % 2 = 0 then i.zw.toNat / 65536 * 65536 + r.bits
            else r.bits * 65536 + i.zw.toNat % 65536)) (BitVec.ofNat 32 r.flags)
        else
          (fConv (if i.n % 4 < 2 then fp16 else bf16) fp32 (modeRound i.mode) 0
            (if i.n % 2 = 0 then i.xw.toNat % 65536 else i.xw.toNat / 65536)).out) ∧
      LaneForm (.cvtw d a b x y z) 0x41 d a b (fun i =>
        match i.n with
        | 0 => outInt 64 (fToInt fp64 ⟨64, true⟩ (modeRound i.mode) i.x.toNat)
        | 1 => outInt 64 (fToInt fp64 ⟨64, false⟩ (modeRound i.mode) i.x.toNat)
        | 2 => (intToF fp64 (modeRound i.mode) i.x.toInt).out64
        | 3 => (intToF fp64 (modeRound i.mode) i.x.toNat).out64
        | 4 => (intToF fp32 (modeRound i.mode) i.x.toInt).out
        | 5 => (intToF fp32 (modeRound i.mode) i.x.toNat).out
        | 6 => outInt 64 (fToInt fp32 ⟨64, true⟩ (modeRound i.mode) i.xw.toNat)
        | _ => outInt 64 (fToInt fp32 ⟨64, false⟩ (modeRound i.mode) i.xw.toNat)) ∧
      LaneForm (.dcvt d a b x y z) 0x4E d a b (fun i =>
        match i.n with
        | 0 => (fConv fp32 fp64 (modeRound i.mode) 0 i.xw.toNat).out64
        | 1 => (fConv fp64 fp32 (modeRound i.mode) (min (modePolicy i.mode) 1) i.x.toNat).out
        | 2 => outInt 32 (fToInt fp64 ⟨32, true⟩ (modeRound i.mode) i.x.toNat)
        | 3 => outInt 32 (fToInt fp64 ⟨32, false⟩ (modeRound i.mode) i.x.toNat)
        | 4 => (intToF fp64 (modeRound i.mode) i.xw.toInt).out64
        | _ => (intToF fp64 (modeRound i.mode) i.xw.toNat).out64) ∧
      LaneForm (.hadd2 d a b x y z) 0x42 d a b (fun i => packed i fun e x y _ => fAdd e (modeRound i.mode) x y) ∧
      LaneForm (.hmul2 d a b x y z) 0x43 d a b (fun i => packed i fun e x y _ => fMul e (modeRound i.mode) x y) ∧
      LaneForm (.hfma2 d a b x y z) 0x44 d a b (fun i => packed i fun e x y z => fFma e (modeRound i.mode) x y z) ∧
      LaneForm (.hmin2 d a b x y z) 0x45 d a b (fun i => packed i fun e x y _ => fMinMax e false x y) ∧
      LaneForm (.hmax2 d a b x y z) 0x46 d a b (fun i => packed i fun e x y _ => fMinMax e true x y)) ∧
   (∀ (d a b : Field) (x y z : Bool),
      LaterForm (.frcp d a b x y z) 0x50 d a b (fun i => (fDiv fp32 (modeRound i.mode) 0x3F800000 i.xw.toNat).out) ∧
      LaterForm (.frsq d a b x y z) 0x51 d a b (fun i => (fRsqrt fp32 (modeRound i.mode) i.xw.toNat).out) ∧
      LaterForm (.fsqrt d a b x y z) 0x52 d a b (fun i => (fSqrt fp32 (modeRound i.mode) i.xw.toNat).out) ∧
      LaterForm (.fexp2 d a b x y z) 0x53 d a b (fun i => (fExp2 (modeRound i.mode) i.xw.toNat).out) ∧
      LaterForm (.flog2 d a b x y z) 0x54 d a b (fun i => (fLog2 (modeRound i.mode) i.xw.toNat).out) ∧
      LaterForm (.fsin d a b x y z) 0x55 d a b (fun i => (fSinCos false (modeRound i.mode) i.xw.toNat).out) ∧
      LaterForm (.fcos d a b x y z) 0x56 d a b (fun i => (fSinCos true (modeRound i.mode) i.xw.toNat).out) ∧
      LaterForm (.ftanh d a b x y z) 0x57 d a b (fun i => (fTanh (modeRound i.mode) i.xw.toNat).out) ∧
      LaterForm (.fdiv d a b x y z) 0x58 d a b (fun i => (fDiv fp32 (modeRound i.mode) i.xw.toNat i.yw.toNat).out) ∧
      LaterForm (.drcp d a b x y z) 0x5B d a b (fun i => (fDiv fp64 (modeRound i.mode) 0x3FF0000000000000 i.x.toNat).out64) ∧
      LaterForm (.dsqrt d a b x y z) 0x5C d a b (fun i => (fSqrt fp64 (modeRound i.mode) i.x.toNat).out64) ∧
      LaterForm (.ddiv d a b x y z) 0x5D d a b (fun i => (fDiv fp64 (modeRound i.mode) i.x.toNat i.y.toNat).out64))

/-- R241 to R243: ACT evaluates the slot of the mode's activation-slot field as it stands at issue and lands on flag B.
R242: an invalid slot gives the canonical NaN with NV and a NaN operand its quiet form; a position u within 0 to 256 gives,
with one rounding, the point that lies its fraction of the way between the knots around it; beyond them a clamped slot gives
its end knot, and a linear one the first or last segment carried on. No flag but NV and OF is set.
ACTLD, whose record passes the checks of a global load and whose slot no other strand of the core selects, issues the
load of the record on flag B, with an entry of the outstanding-transaction table. -/
def Obligations.Activation : Prop :=
  (∀ (sl : ActSlot) (x : Nat),
    let v (n : Nat) : ℚ := exactVal (exactOf fp32 n)
    let u := (fMul fp32 0 (fSub fp32 0 x sl.lo.toNat).bits sl.inv.toNat).bits
    let k (i : Nat) : Nat := (sl.knots.getD i 0).toNat
    let rise (i : Nat) : Nat := (fSub fp32 0 (k (i + 1)) (k i)).bits
    let r := actEval (some sl) x
    let point (i : Nat) (part : ℚ) (base : Nat) : Prop := fp32.isFinite (rise i) → fp32.isFinite base →
      ∃ e : Exact, r.bits = (roundTo fp32 0 e).bits ∧ exactVal e = v (rise i) * part + v base
    actEval none x = ⟨fp32.canon, flNV⟩ ∧ r.flags &&& (flNV ||| flOF) = r.flags ∧
    (fp32.isNaN x → r = ⟨fp32.quiet x, if fp32.isSNaN x then flNV else 0⟩) ∧
    (fp32.isNaN x = false → fp32.isFinite u →
      (0 ≤ v u → v u ≤ 256 → ∀ i : Nat, i ≤ 255 → (i : ℚ) ≤ v u → (v u < i + 1 ∨ i = 255) → point i (v u - i) (k i)) ∧
      (v u < 0 → (sl.linear = false → r.bits = k 0) ∧ (sl.linear = true → point 0 (v u) (k 0))) ∧
      (256 < v u → (sl.linear = false → r.bits = k 256) ∧
        (sl.linear = true → point 255 (v (fSub fp32 0 u 0x43800000).bits) (k 256))))) ∧
  ∀ (d a b : Field) (r0 r1 r2 : Bool) (s : State) (x : Pkg.Exe),
    (s.Admits 0x59 d a b x →
      exec (.act d a b r0 r1 r2) s = .next { s with
        pkg := s.pkg.issued x (x.st.flagOf true) (codesFrom x.d x.form.d.regs) false
          (.regs
            (x.laterWrites (if 125 ≤ x.d then [x.st.low] else x.st.onLanes)
              fun j => (x.results (fun i => (actEval (s.pkg.actSlot x.sid x.st) i.xw.toNat).out) j).val)
            (x.st.onLanes.map
              fun j => (j, (x.results (fun i => (actEval (s.pkg.actSlot x.sid x.st) i.xw.toNat).out) j).flags)) []) }) ∧
    (∀ p ls, s.Admits 0x5A d a b x → (x.env.uniform64 x.a).toNat % 16 = 0 →
      s.pkg.checkGlobal (.lane x.sid) (sidCtx x.sid) (s.pkg.leaseOf x.st) needRead
        ((List.range 66).map fun k => ⟨x.st.low, (x.env.uniform64 x.a).toNat + 16 * k⟩) = (p, .ok ls) →
      (x.st.truss = true ∨ p.slotSelected x.sid x.b = false) →
      (modeActSlot x.st.mode ≠ x.b ∨ x.st.ops.any (fun o => Pkg.opSetsCf o.kind) = false) →
      p.canEnter x.sid x.st = true →
      exec (.actld d a b r0 r1 r2) s = .next { s with pkg := p.issued x (x.st.flagOf true) [] true (.actLoad x.b ls) })

/-! ### Lane exchange, votes, reductions and dovetailing -/

/-- R271: a shuffle reads, in each lane, the lane of its sub-group at the position that its form computes from the lane's
position and b; a position outside the sub-group or of an absent lane gives the lane's own value and sets OOR.

R272: the votes write one value to every present lane: VOTE a mask word of the lanes with On(j) whose bit 0 of a is
set, VANY and VALL 1 or 0, FIRSTL the lowest such lane or 96. -/
def Obligations.ShufflesAndVotes : Prop :=
   (∀ (d a b : Field) (r0 r1 r2 : Bool) (s : State) (x : Pkg.Exe),
      let g := modeShuffle x.st.mode
      let y (j : Nat) : Int := (x.env.get x.b j).toNat
      let shuffled (q : Nat → Int) : State :=
        let source (j : Nat) : Option Nat :=
          if 0 ≤ q j ∧ q j < g ∧ x.st.isPresent (j - j % g + (q j).toNat) then some (j - j % g + (q j).toNat) else none
        let st := x.st.put x.d x.st.isOn fun j => x.env.get x.a ((source j).getD j)
        s.after x (if x.d = 123 then st else st.orFlags x.st.isOn fun j => if source j = none then cfOOR else 0)
      (s.Admits 0x60 d a b x → exec (.shfl d a b r0 r1 r2) s = .next (shuffled y)) ∧
      (s.Admits 0x61 d a b x → exec (.shflup d a b r0 r1 r2) s = .next (shuffled fun j => (j % g : Nat) - y j)) ∧
      (s.Admits 0x62 d a b x → exec (.shfldn d a b r0 r1 r2) s = .next (shuffled fun j => (j % g : Nat) + y j)) ∧
      (s.Admits 0x63 d a b x →
        exec (.shflx d a b r0 r1 r2) s = .next (shuffled fun j => ((j % g) ^^^ (y j).toNat : Nat)))) ∧
   (∀ (d a b : Field) (r0 r1 r2 : Bool) (s : State) (x : Pkg.Exe),
      let test (j : Nat) : Bool := x.st.isOn j && (x.env.get x.a j).getLsbD 0
      let writes (v : Word) : State := s.after x (x.putAll 1 (v.setWidth 64))
      (s.Admits 0x64 d a b x →
        ∃ v, exec (.vote d a b r0 r1 r2) s = .next (writes v) ∧ ∀ k, k < 32 → v.getLsbD k = test (32 * b.toNat + k)) ∧
      (s.Admits 0x65 d a b x →
        ∃ v, exec (.vany d a b r0 r1 r2) s = .next (writes v) ∧
          ((∃ j, j < 96 ∧ test j) → v = 1) ∧ ((∀ j, j < 96 → test j = false) → v = 0)) ∧
      (s.Admits 0x66 d a b x →
        ∃ v, exec (.vall d a b r0 r1 r2) s = .next (writes v) ∧
          ((∀ j, j < 96 → x.st.isOn j → test j) → v = 1) ∧ ((∃ j, j < 96 ∧ x.st.isOn j ∧ test j = false) → v = 0)) ∧
      (s.Admits 0x6C d a b x →
        ∃ n, exec (.firstl d a b r0 r1 r2) s = .next (writes (BitVec.ofNat 32 n)) ∧ n ≤ 96 ∧ (n < 96 → test n) ∧
          ∀ j, j < n → test j = false))

/-- A node of the tree of R91: the sum of its operands; one with one operand missing passes the other. -/
def joined (mode : Nat) (x y : Option FRes) : Option FRes :=
  match x, y with
  | some a, some b => some (fAdd fp32 mode a.bits b.bits)
  | some a, none | none, some a => some ⟨a.bits, 0⟩
  | none, none => none

/-- Node m of a level of the tree of R91 over operands by position, of which some may be missing. -/
def sumAt (mode : Nat) (v : Nat → Option Nat) : Nat → Nat → Option FRes
  | 0, m => (v m).map fun x => ⟨x, 0⟩
  | l + 1, m => joined mode (sumAt mode v l (2 * m)) (sumAt mode v l (2 * m + 1))

/-- The sum of 96 operands by the tree of R91: (b0 + b1) + b2, where beat j is node j of level 5. -/
def sumAll (mode : Nat) (v : Nat → Option Nat) : Option FRes :=
  joined mode (joined mode (sumAt mode v 5 0) (sumAt mode v 5 1)) (sumAt mode v 5 2)

/-- Does a node of the tree of R91 set a flag? -/
def sumSets (mode : Nat) (v : Nat → Option Nat) (k : Nat) : Prop :=
  (∃ l m r, l ≤ 5 ∧ m < 96 / 2 ^ l ∧ sumAt mode v l m = some r ∧ r.flags.testBit k = true) ∨
    (∃ r, joined mode (sumAt mode v 5 0) (sumAt mode v 5 1) = some r ∧ r.flags.testBit k = true) ∨
    ∃ r, sumAll mode v = some r ∧ r.flags.testBit k = true

/-- maximumNumber of a running value and the first k of further ones (R227, R306). -/
def maxUpTo (start : Option Nat) (v : Nat → Nat) : Nat → Option FRes
  | 0 => start.map fun x => ⟨x, 0⟩
  | k + 1 =>
    match maxUpTo start v k with
    | some m => some (fMinMax fp32 true m.bits (v k))
    | none => some ⟨v k, 0⟩

/-- R91, R273, R274: the reductions and the scan issue on flag B. REDADD sums modulo 2^32, REDMIN and REDMAX pick an extreme
value of a contributing lane, REDFADD adds in the fixed tree, with the flags of every node, and SCANADD gives each
contributing lane its inclusive or exclusive running sum. -/
def Obligations.Reductions : Prop :=
  ∀ (d a b : Field) (r0 r1 r2 : Bool) (s : State) (x : Pkg.Exe),
    let value (j : Nat) : Word := x.env.get x.a j
    let on := x.st.onLanes
    let lands (v : Word) (flags : List (Nat × Word)) : State :=
      { s with
        pkg := s.pkg.issued x (x.st.flagOf true) [x.d] false
          (.regs ((if 125 ≤ x.d then [x.st.low] else x.st.presentLanes).map fun j => (x.d, j, v)) flags []) }
    let extreme (isMax : Bool) (v : Word) (flags : List (Nat × Word)) : Prop := ∀ first rest, on.map value = first :: rest →
      let r := rest.foldl (fun acc w => (fMinMax fp32 isMax acc w.toNat).bits) first.toNat
      v = BitVec.ofNat 32 (if fp32.isNaN r then fp32.quiet r else r) ∧
      flags = if (on.map value).any (fun w => fp32.isSNaN w.toNat) then on.map (fun j => (j, BitVec.ofNat 32 flNV)) else []
    (s.Admits 0x67 d a b x →
      exec (.redadd d a b r0 r1 r2) s = .next (lands (BitVec.ofNat 32 (Pkg.total (on.map fun j => (value j).toNat))) [])) ∧
    (s.Admits 0x68 d a b x →
      let v (j : Nat) : Option Nat := if x.st.isOn j then some (value j).toNat else none
      let mode := modeRound x.st.mode
      ∃ fl : Nat, (∀ k, fl.testBit k = true ↔ sumSets mode v k) ∧
        exec (.redfadd d a b r0 r1 r2) s = .next (lands (BitVec.ofNat 32 (((sumAll mode v).map (·.bits)).getD 0))
          (if fl = 0 then [] else on.map fun j => (j, BitVec.ofNat 32 fl)))) ∧
    (s.Admits 0x69 d a b x →
      ∃ v flags, exec (.redmin d a b r0 r1 r2) s = .next (lands v flags) ∧
        (b = 0 → flags = [] ∧ (on = [] → v = 0x7FFFFFFF) ∧ (on ≠ [] → v ∈ on.map value) ∧
          ∀ j ∈ on, v.toInt ≤ (value j).toInt) ∧
        (b = 1 → flags = [] ∧ (on = [] → v = 0xFFFFFFFF) ∧ (on ≠ [] → v ∈ on.map value) ∧
          ∀ j ∈ on, v.toNat ≤ (value j).toNat) ∧
        (b = 2 → on = [] → v = 0x7F800000 ∧ flags = []) ∧ (b = 2 → extreme false v flags)) ∧
    (s.Admits 0x6A d a b x →
      ∃ v flags, exec (.redmax d a b r0 r1 r2) s = .next (lands v flags) ∧
        (b = 0 → flags = [] ∧ (on = [] → v = 0x80000000) ∧ (on ≠ [] → v ∈ on.map value) ∧
          ∀ j ∈ on, (value j).toInt ≤ v.toInt) ∧
        (b = 1 → flags = [] ∧ (on = [] → v = 0) ∧ (on ≠ [] → v ∈ on.map value) ∧
          ∀ j ∈ on, (value j).toNat ≤ v.toNat) ∧
        (b = 2 → on = [] → v = 0xFF800000 ∧ flags = []) ∧ (b = 2 → extreme true v flags)) ∧
    (s.Admits 0x6B d a b x →
      exec (.scanadd d a b r0 r1 r2) s = .next { s with
        pkg := s.pkg.issued x (x.st.flagOf true) [x.d] false
          (.regs
            ((if 125 ≤ x.d then [x.st.low] else on).map fun j => (x.d, j, if x.st.isOn j then BitVec.ofNat 32 (Pkg.total
              ((on.filter fun i => if b = 1 then i < j else i ≤ j).map fun i => (value i).toNat)) else 0)) [] []) })

/-- R59, R64, R66, R67, R275, R276: DVDECL declares its channel with the defaults of every lane, DVPUB publishes a round
unless it would make a fifth unconsumed one, where it parks, and DVEND ends the channel with the final values.

The model's own choices in it: log entry 69. -/
def Obligations.DovetailForms : Prop :=
  ∀ (d a b : Field) (r0 r1 r2 : Bool) (s : State) (x : Pkg.Exe) (l : Launch), s.pkg.launches.get? x.st.launch = some l →
    (s.Admits 0x6D d a b x →
      ∃ p, exec (.dvdecl d a b r0 r1 r2) s = .next (s.onward x p) ∧ p.mem = s.pkg.mem ∧ p.strands = s.pkg.strands ∧
        (∀ launch sn c, (launch, sn, c) ≠ (x.st.launch, x.st.sn, b.toNat / 32) →
          (p.dove launch sn).chans.get? c = (s.pkg.dove launch sn).chans.get? c) ∧
        (p.dove x.st.launch x.st.sn).chans.get? (b.toNat / 32) =
          some { vs := d.toNat, dist := b.toNat % 16 + 1, self := b.getLsbD 4,
                 defaults := lanes fun j => x.env.get a.toNat j }) ∧
    (s.Admits 0x6E d a b x → s.pkg.bufferFull x.st b.toNat = true →
      exec (.dvpub d a b r0 r1 r2) s =
        .next { s with pkg := s.pkg.updStrand x.sid fun st => { st with park := some (.publish5 b.toNat) } }) ∧
    (∀ ch, s.Admits 0x6E d a b x → s.pkg.bufferFull x.st b.toNat = false → s.pkg.channel x.st b.toNat = some ch →
      ∃ p ch', exec (.dvpub d a b r0 r1 r2) s = .next (s.onward x p) ∧ p.mem = s.pkg.mem ∧ p.strands = s.pkg.strands ∧
        (p.dove x.st.launch x.st.sn).chans.get? b.toNat = some ch' ∧ ch'.count = ch.count + 1 ∧
        (s.pkg.consumes x.st b.toNat = true →
          (∀ nx, (s.pkg.dove x.st.launch (x.st.sn + 1)).chans.get? b.toNat = some nx → nx.count < ch.count + 1) →
          ch'.rounds.get? (ch.count + 1) =
            some ((List.range ch.dist).map fun m => x.st.reg ch.vs (96 - ch.dist + m)))) ∧
    (∀ ch, s.Admits 0x6F d a b x → s.pkg.channel x.st b.toNat = some ch →
      ∃ p ch', exec (.dvend d a b r0 r1 r2) s = .next (s.onward x p) ∧ p.mem = s.pkg.mem ∧ p.strands = s.pkg.strands ∧
        (p.dove x.st.launch x.st.sn).chans.get? b.toNat = some ch' ∧ ch'.ended = true ∧
        ch'.final = (List.range ch.dist).map fun m => x.st.reg ch.vs (96 - ch.dist + m))

/-! ### Memory, atomics and fences -/

/-- R249 to R252: a scratchpad or lane-slice load or store whose accesses pass the checks of R101 issues one operation on
flag A with the accesses of the lanes with On(j), in lane order: a load's destination is d and its registers, a store's
data are read from d now.

R101: the offset checks in their order. A misaligned lane raises Misaligned, cause 0x05, with the first such lane's
offset; where none is misaligned, an access beyond its allocation raises Allocation Bound, cause 0x0E, with the space code
and the size; where both checks pass, an absent line parks the strand.

R252: the swizzle modes 1 and 2 map the offsets of a row one to one, keep the row and the byte within the word, and
mode 0 is the identity.

The model's own choices in it: log entry 43. -/
def Obligations.ScratchpadAccesses : Prop :=
   (∀ (d a b : Field) (r0 r1 r2 : Bool) (s : State) (x : Pkg.Exe) (accs : List SAcc),
      let w := b.toNat / 16
      let n := widthBytes w
      let swz := swizzle (b.toNat % 4) n
      let load (space : Nat) : State :=
        { s with
          pkg := s.pkg.issued x (x.st.flagOf false) (codesFrom x.d (widthRegs w)) (space == 1)
            (.load w 0 (accs.map fun t => { lane := t.lane, reg := landReg x t.lane, loc := t.loc, bytes := n })) }
      let store (space : Nat) : State :=
        { s with
          pkg := s.pkg.issued x (x.st.flagOf false) [] (space == 1)
            (.store 0 (accs.map fun t =>
              { lane := t.lane, reg := 128, loc := t.loc, bytes := n, data := storeData x x.d (widthRegs w) n t.lane })) }
      let ok (op space : Nat) : Prop :=
        s.Admits op d a b x ∧ ScratchOk x space n swz accs ∧ (space = 1 → s.pkg.canEnter x.sid x.st = true)
      (ok 0x80 4 → exec (.ldp d a b r0 r1 r2) s = .next (load 4)) ∧
      (ok 0x81 4 → exec (.stp d a b r0 r1 r2) s = .next (store 4)) ∧
      (ok 0x82 3 → exec (.ldk d a b r0 r1 r2) s = .next (load 3)) ∧
      (ok 0x83 3 → exec (.stk d a b r0 r1 r2) s = .next (store 3)) ∧
      (ok 0x84 2 → exec (.ldq d a b r0 r1 r2) s = .next (load 2)) ∧
      (ok 0x85 2 → exec (.stq d a b r0 r1 r2) s = .next (store 2)) ∧
      (ok 0x86 1 → exec (.ldd d a b r0 r1 r2) s = .next (load 1)) ∧
      (ok 0x87 1 → exec (.std d a b r0 r1 r2) s = .next (store 1)) ∧
      (ok 0x8A 3 → exec (.ldkt d a b r0 r1 r2) s = .next (load 3)) ∧
      (ok 0x8B 3 → exec (.stkt d a b r0 r1 r2) s = .next (store 3))) ∧
   (∀ (x : Pkg.Exe) (space n : Nat) (accs : List SAcc) (k : Pkg → List SAcc → Eff),
      (∀ t rest, accs.filter (fun t => t.formed % n != 0) = t :: rest →
        withScratch x space n accs k =
          .trap x.p { cause := 0x05, lanes := (t :: rest).map (·.lane), addr := t.formed }) ∧
      (∀ t rest, (∀ t ∈ accs, t.formed % n = 0) → accs.filter (fun t => decide (t.size < t.off + t.bytes)) = t :: rest →
        withScratch x space n accs k =
          .trap x.p { cause := 0x0E, lanes := (t :: rest).map (·.lane), addr := t.formed, extra0 := space, extra1 := t.size }) ∧
      ((∀ t ∈ accs, t.formed % n = 0 ∧ t.off + t.bytes ≤ t.size) → (∃ t ∈ accs, x.p.isPresentAt t.loc t.bytes = false) →
        ∃ need, withScratch x space n accs k = .park x.p (.presence need))) ∧
   (∀ (m w o o' : Nat), w ∈ [1, 2, 4, 8, 16] → m ∈ [1, 2] →
      let row := if m = 1 then 128 else 256
      swizzle 0 w o = o ∧ swizzle m w o / row = o / row ∧ swizzle m w o % 4 = o % 4 ∧
      (swizzle m w o = swizzle m w o' → o = o'))

/-- A frame of HBM or of an alias window passes the frame-key check under a leaf's key: the frame's entry is valid and holds that
key, which is assigned to the function (R147). -/
def frameKeyed (p : Pkg) (vf key frame : Nat) : Prop :=
  let entry := (p.frameKeys.get frame 0).toNat
  (frame * 65536 < hbmTop ∨ isAliasPa (frame * 65536) = true) ∧ entry.testBit 15 = true ∧ bits entry 9 0 = key ∧
    p.keyVf.get? key = some vf

/-- R249, R251, R253, R254, R260: the global forms whose accesses pass the checks of R154 issue one operation on flag A: LD
and ST with an entry of the outstanding-transaction table, PFM for the lanes whose checks pass, and the pinning forms.

R257 to R260: the atomic forms whose accesses pass their checks, among which, for a global form, that none reaches a
device range, issue one operation on flag A with each lane's operand.

R154, R157, R158, R177: the outcome where the checks fail, in their order. Misaligned names the misaligned lanes; an address outside
the lease ends the tree with status 3; Key Alias or Permission names the faulting lanes, with the cause of the lowest, in which Key
Alias goes first; an elastic fault parks the strand.

R141, R145, R147, R152: what a walk finds where no cached translation serves: a translation fault is Permission with reason 1 or 2, or
elastic; Key Alias, with the leaf's key and the frame's entry, where a frame fails the frame-key check; reason 6 of a twin leaf;
reasons 3 to 5 for the first permission that the leaf lacks.

The model's own choices in it: log entries 43, 70, 97 and 101. -/
def Obligations.GlobalAndAtomicForms : Prop :=
   (∀ (d a b : Field) (r0 r1 r2 : Bool) (s : State) (x : Pkg.Exe) (p : Pkg) (ls : List Loc),
      let w := b.toNat / 16
      let n := widthBytes w
      let acc (e : Nat × Loc) : LaneAcc := { lane := e.1, reg := landReg x e.1, loc := e.2, bytes := n }
      let line (e : Nat × Loc) : LaneAcc := { lane := e.1, reg := landReg x e.1, loc := e.2, bytes := 1 }
      let st (e : Nat × Loc) : LaneAcc :=
        { lane := e.1, reg := 128, loc := e.2, bytes := n, data := storeData x x.d (widthRegs w) n e.1 }
      let lanes := x.st.onLanes.zip ls
      let issue (p : Pkg) (dests : List Nat) (entry : Bool) (k : OpKind) : State :=
        { s with pkg := p.issued x (x.st.flagOf false) dests entry k }
      (s.Admits 0x88 d a b x → GlobalOk x n needRead (globalWants x) p ls → (w = 6 → deviceLanes x = []) →
        p.canEnter x.sid x.st = true →
        exec (.ld d a b r0 r1 r2) s =
          .next (issue p (codesFrom x.d (widthRegs w)) true (.load w (b.toNat / 4 % 4) (lanes.map acc)))) ∧
      (s.Admits 0x89 d a b x → GlobalOk x n needWrite (globalWants x) p ls → (w = 6 → deviceLanes x = []) →
        p.canEnter x.sid x.st = true →
        exec (.st d a b r0 r1 r2) s = .next (issue p [] true (.store (b.toNat / 4 % 4) (lanes.map st)))) ∧
      (s.Admits 0x8C d a b x →
        let q := prefetchLanes x.sid (s.pkg.leaseOf x.st) s.pkg (globalWants x)
        q.1.canEnter x.sid x.st = true →
        exec (.pfm d a b r0 r1 r2) s = .next (issue q.1 [] true (.prefetch (b.toNat / 4 % 4)
          (q.2.map fun e => { lane := e.1, reg := 128, loc := e.2, bytes := 4 })))) ∧
      (s.Admits 0x8D d a b x → GlobalOk x 1 needRead (globalWants x) p ls → p.canEnter x.sid x.st = true →
        exec (.llock d a b r0 r1 r2) s = .next (issue p [x.d] true (.lock (lanes.map line)))) ∧
      (s.Admits 0x8E d a b x → GlobalOk x 1 needRead (globalWants x) p ls → p.canEnter x.sid x.st = true →
        exec (.lunlk d a b r0 r1 r2) s = .next (issue p [] true (.unlock (lanes.map line)))) ∧
      (s.Admits 0x8F d a b x → GlobalOk x 1 needRead (globalWants x) p ls →
        exec (.lqry d a b r0 r1 r2) s = .next (issue p [x.d, x.d + 1] false (.query (lanes.map line))))) ∧
   (∀ (d a b : Field) (r0 r1 r2 : Bool) (s : State) (x : Pkg.Exe) (p : Pkg) (ls : List Loc) (accs : List SAcc),
      let n := if b.toNat < 64 then 4 else 8
      let lanes := x.st.onLanes.zip ls
      let issue (p : Pkg) (regs : Nat) (entry : Bool) (k : OpKind) : State :=
        { s with pkg := p.issued x (x.st.flagOf false) (codesFrom x.d regs) entry k }
      let atom (l : List (Nat × Loc)) : OpKind :=
        .atomic (b.toNat % 64) (n == 8) (l.map fun e =>
          { lane := e.1, reg := landReg x e.1, loc := e.2, bytes := n, data := storeData x x.d (n / 4) n e.1 })
      let cas (m : Nat) : OpKind :=
        .cas (lanes.map fun e =>
          { lane := e.1, reg := landReg x e.1, loc := e.2, bytes := m, data := storeData x x.d (m / 4) m e.1,
            compare := storeData x x.b (m / 4) m e.1 })
      let ok (op m : Nat) : Prop :=
        s.Admits op d a b x ∧ GlobalOk x m needAtomic (globalWants x) p ls ∧ p.canEnter x.sid x.st = true
      (ok 0xA0 n → exec (.atom d a b r0 r1 r2) s = .next (issue p (n / 4) true (atom lanes))) ∧
      (s.Admits 0xA1 d a b x → ScratchOk x 3 n id accs →
        exec (.atomk d a b r0 r1 r2) s = .next (issue s.pkg (n / 4) false (atom (accs.map fun t => (t.lane, t.loc))))) ∧
      (s.Admits 0xA2 d a b x → ScratchOk x 2 n id accs →
        exec (.atomq d a b r0 r1 r2) s = .next (issue s.pkg (n / 4) false (atom (accs.map fun t => (t.lane, t.loc))))) ∧
      (ok 0xA3 4 → exec (.acas d a b r0 r1 r2) s = .next (issue p 1 true (cas 4))) ∧
      (ok 0xA4 8 → exec (.acas64 d a b r0 r1 r2) s = .next (issue p 2 true (cas 8))) ∧
      (ok 0xA5 16 → exec (.acas128 d a b r0 r1 r2) s = .next (issue p 4 true (cas 16)))) ∧
   (∀ (d a b : Field) (r0 r1 r2 : Bool) (s : State) (x : Pkg.Exe) (i : Instr) (op n : Nat) (need : Need),
      let w := widthBytes (b.toNat / 16)
      let atom := if b.toNat < 64 then 4 else 8
      (i, op, n, need) ∈ [(Instr.ld d a b r0 r1 r2, 0x88, w, needRead), (.st d a b r0 r1 r2, 0x89, w, needWrite),
        (.llock d a b r0 r1 r2, 0x8D, 1, needRead), (.lunlk d a b r0 r1 r2, 0x8E, 1, needRead),
        (.lqry d a b r0 r1 r2, 0x8F, 1, needRead), (.atom d a b r0 r1 r2, 0xA0, atom, needAtomic),
        (.acas d a b r0 r1 r2, 0xA3, 4, needAtomic), (.acas64 d a b r0 r1 r2, 0xA4, 8, needAtomic),
        (.acas128 d a b r0 r1 r2, 0xA5, 16, needAtomic)] →
      s.Admits op d a b x → (op = 0x88 ∨ op = 0x89 → b.toNat / 16 = 6 → deviceLanes x = []) →
      let ws := globalWants x
      let lease := s.pkg.leaseOf x.st
      let leased (w : Want) : Bool := (s.pkg.twinTable (sidCtx x.sid) w.va).isSome || (leaseRange? lease w.va).isSome
      let all := s.pkg.translateAll (.lane x.sid) (sidCtx x.sid) lease need ws
      let aliased (e : Want × Trans) : Bool := match e.2 with | .keyAlias .. => true | _ => false
      let bad := all.2.filter fun e => match e.2 with | .ok _ | .elastic _ => false | _ => true
      let traps (p : Pkg) (t : Trap) : Prop := exec i s = .next { s with pkg := p.takeTrap x.sid t x.st.slot }
      let lanes := (bad.map (·.1.lane)).eraseDups
      (∀ w rest, ws.filter (fun w => w.va % n != 0) = w :: rest →
        traps s.pkg { cause := 0x05, lanes := (w :: rest).map (·.lane), addr := w.va }) ∧
      ((∀ w ∈ ws, w.va % n = 0) → (∀ w, ws.find? (fun w => !leased w) = some w →
        exec i s = .next { s with pkg := s.pkg.endOutside (s.pkg.treeKeyOf x.st) w.va })) ∧
      ((∀ w ∈ ws, w.va % n = 0 ∧ leased w = true) →
        (∀ w t rest, bad = (w, t) :: rest →
          (∀ v key entry, bad.find? (fun e => e.1.lane == w.lane && aliased e) = some (v, .keyAlias key entry) →
            traps all.1 { cause := 0x08, lanes := lanes, addr := v.va, extra0 := key, extra1 := entry }) ∧
          (∀ r, t = .permission r → (∀ e ∈ bad, e.1.lane = w.lane → aliased e = false) →
            traps all.1 { cause := 0x07, reason := r, lanes := lanes, addr := w.va })) ∧
        (∀ w va, bad = [] → all.2.find? (fun e => match e.2 with | .elastic _ => true | _ => false) = some (w, .elastic va) →
          exec i s = .next { s with
            pkg := all.1.updStrand x.sid fun st => { st with park := some (.elastic w.lane va false) } }))) ∧
   (∀ (p : Pkg) (port : TlbHome) (cid va : Nat) (lease : List LeaseRange) (need : Need) (c : Ctx) (r : LeaseRange),
      p.ctxs.get? cid = some c → p.twinTable cid va = none → leaseRange? lease va = some r →
      p.cached port cid c.vf (va / 65536) = none → p.walkBad (crRoot c.record) va = false →
      let t := (p.translate port cid lease va need).2
      let q := p.readWalk (crRoot c.record) va
      let found := walkTree q (crRoot c.record) va
      (found = .invalid → t = if r.elastic then .elastic va else .permission 1) ∧
      (found = .malformed → t = if r.elastic then .elastic va else .permission 2) ∧
      (∀ addr e, found = .leaf addr e →
        let pa := leafFrame e * 65536 + va % 65536
        let entry (frame : Nat) : Nat := (q.frameKeys.get frame 0).toNat
        let key := leafKey e
        let lacks : Option Nat := if need.read && !e.testBit 2 then some 3 else if need.write && !e.testBit 3 then some 4
          else if need.exec && !e.testBit 4 then some 5 else none
        (leafKind e ≠ 3 →
          let passes := if isDevicePa pa then key = 0 ∧ ∃ w ∈ (q.vfs.get c.vf {}).devWin,
              w.1 ≤ leafFrame e * 65536 ∧ leafFrame e * 65536 < w.1 + w.2 * 65536
            else frameKeyed q c.vf key (leafFrame e)
          (¬ passes → t = .keyAlias key (entry (leafFrame e))) ∧
          (∀ n, passes → lacks = some n → t = .permission n) ∧
          (passes → lacks = none → isDevicePa pa = false → t = .ok (.hbm pa)) ∧
          (passes → lacks = none → isDevicePa pa = true → t = if need.noDev then .permission 4 else .ok (.dev pa))) ∧
        (leafKind e = 3 →
          let d := q.twinDesc cid (leafTwin e)
          let other := sidePa d pa true / 65536
          let serves := twEnabled d = true ∧ twContext d = cid ∧ twBase d ≤ va ∧ va < twBase d + twLength d
          (¬ frameKeyed q c.vf key (leafFrame e) → t = .keyAlias key (entry (leafFrame e))) ∧
          (frameKeyed q c.vf key (leafFrame e) → ¬ frameKeyed q c.vf key other → t = .keyAlias key (entry other)) ∧
          (frameKeyed q c.vf key (leafFrame e) → frameKeyed q c.vf key other →
            (¬ serves → t = .permission 6) ∧ (∀ n, serves → lacks = some n → t = .permission n) ∧
            (serves → lacks = none → t = .ok (.twin cid (leafTwin e) pa))))))

/-- R258: the value that memory takes, for every operation code, on 32 and 64 bits. -/
def Obligations.AtomicValues : Prop :=
  ∀ (w x y : Nat), w ∈ [32, 64] → x < 2 ^ w → y < 2 ^ w →
    Pkg.atomicValue 0 w x y = (x + y) % 2 ^ w ∧
    (Pkg.atomicValue 1 w x y + y) % 2 ^ w = x ∧ Pkg.atomicValue 1 w x y < 2 ^ w ∧
    (signedOf w (Pkg.atomicValue 2 w x y) = min (signedOf w x) (signedOf w y)) ∧ Pkg.atomicValue 3 w x y = min x y ∧
    (signedOf w (Pkg.atomicValue 4 w x y) = max (signedOf w x) (signedOf w y)) ∧ Pkg.atomicValue 5 w x y = max x y ∧
    (∀ k, (Pkg.atomicValue 6 w x y).testBit k = (x.testBit k && y.testBit k)) ∧
    (∀ k, (Pkg.atomicValue 7 w x y).testBit k = (x.testBit k || y.testBit k)) ∧
    (∀ k, (Pkg.atomicValue 8 w x y).testBit k = (x.testBit k != y.testBit k)) ∧
    Pkg.atomicValue 9 w x y = y ∧
    Pkg.atomicValue 10 w x y = (fAdd (if w = 64 then fp64 else fp32) 0 x y).bits ∧
    Pkg.atomicValue 11 w x y = (if x ≥ y then 0 else x + 1) ∧
    Pkg.atomicValue 12 w x y = (if x = 0 ∨ x > y then y else x - 1)

/-- R261 to R264: a fence completes once the accesses it waits for are performed: ACQ the earlier loads, REL and FENCE
every earlier access and transfer, TFENCE and IFENCE the earlier stores. It stops in place while one is outstanding. ACQ
and FENCE discard from the core's L1 every word that the core does not own. -/
def Obligations.Fences : Prop :=
  ∀ (d a b : Field) (r0 r1 r2 : Bool) (s : State) (x : Pkg.Exe),
    (s.Admits 0xA8 d a b x → Pkg.loadsDone x.st = true →
      exec (.acq d a b r0 r1 r2) s = .next (s.onward x (s.pkg.discardL1 (sidCore x.sid)))) ∧
    (s.Admits 0xA9 d a b x → Pkg.quiet x.st = true → exec (.rel d a b r0 r1 r2) s = .next (s.onward x s.pkg)) ∧
    (s.Admits 0xAA d a b x → Pkg.quiet x.st = true →
      exec (.fence d a b r0 r1 r2) s = .next (s.onward x (s.pkg.discardL1 (sidCore x.sid)))) ∧
    (s.Admits 0xAB d a b x → Pkg.storesDone x.st = true →
      exec (.tfence d a b r0 r1 r2) s = .next (s.onward x s.pkg)) ∧
    (s.Admits 0xAC d a b x → Pkg.storesDone x.st = true →
      exec (.ifence d a b r0 r1 r2) s = .next (s.onward x s.pkg)) ∧
    (s.Admits 0xA8 d a b x → Pkg.loadsDone x.st = false → exec (.acq d a b r0 r1 r2) s = .next s) ∧
    (s.Admits 0xA9 d a b x → Pkg.quiet x.st = false → exec (.rel d a b r0 r1 r2) s = .next s) ∧
    (s.Admits 0xAA d a b x → Pkg.quiet x.st = false → exec (.fence d a b r0 r1 r2) s = .next s) ∧
    (s.Admits 0xAB d a b x → Pkg.storesDone x.st = false → exec (.tfence d a b r0 r1 r2) s = .next s) ∧
    (s.Admits 0xAC d a b x → Pkg.storesDone x.st = false → exec (.ifence d a b r0 r1 r2) s = .next s) ∧
    (∀ c w v, sidCore x.sid = some c → (s.pkg.l1.get c []).get? w = some v →
      (((s.pkg.discardL1 (some c)).l1.get c []).any (·.1 == w) → s.pkg.owner.get? w = some c)) ∧
    (s.pkg.discardL1 (sidCore x.sid)).mem = s.pkg.mem

/-- The byte at `a` lies in no block of codes that is in a race with a store of `n` bytes at `pa` (R97). -/
def noRace (p : Pkg) (pa n a : Nat) : Prop :=
  ∀ e ∈ p.codeBefore, pa < 32 * e.1 + 32 → 32 * e.1 < pa + n → a < 32 * e.1 ∨ 32 * e.1 + e.2.length ≤ a

/-- A location in a scratchpad or lane slice that exists, its bytes in canonical form. -/
def padHeld (p : Pkg) (l : Loc) : Prop :=
  match l with
  | .lane s _ _ => ∃ st, p.strand? s = some st ∧ st.slice.Canonical
  | .core b c _ => ∃ x, p.crew? b c = some x ∧ x.kspad.Canonical
  | .clus b _ => ∃ x, p.bents.get? b = some x ∧ ∀ k, (x.qspad.get k []).Canonical
  | .die c _ => ∃ x, p.ctxs.get? c = some x ∧ x.dspad.Canonical
  | _ => False

/-- R97, R121, R251: a store of bytes to package HBM outside the codebook windows changes exactly the bytes it stores to,
beside those of a block of codes that a write-back in a race with it has written; a store to a scratchpad or lane slice
leaves package HBM unchanged.

R98, R121, R251: what a store has written to a lane slice, a core scratchpad, cluster-shared memory or a die-scratchpad
share is read back, and every other byte of every space reads as before.

R102, R104, R251: a load of one lane from package HBM, of a vector strand or a truss strand, writes the zero- or sign-extended
bytes to its register: each byte as the core's L1 holds it, where it holds one and the policy is not to go past it, else as
memory does; memory is unchanged. -/
def Obligations.StoresAndLoads : Prop :=
   (∀ (p : Pkg) (who : Option Nat) (engine : Bool) (data : List Byte) (a : Nat), p.mem.Canonical →
      (∀ pa, isAliasPa pa = false →
        noRace p pa data.length a →
        (p.writeLoc who engine (.hbm pa) data).mem.read a =
          if h : pa ≤ a ∧ a < pa + data.length then data[a - pa] else p.mem.read a) ∧
      (∀ l, p.hbmPa? l = none → (p.writeLoc who engine l data).mem.read a = p.mem.read a) ∧
      (p.writeLoc who engine (.hbm a) data).mem.Canonical ∧
      (p.writeLoc who engine (.hbm a) data).hostMem = p.hostMem) ∧
   (∀ (p : Pkg) (who : Option Nat) (engine : Bool) (l m : Loc) (data : List Byte),
      let inSlice (l : Loc) (n : Nat) : Prop := match l with | .lane _ _ o => o + n ≤ 4096 | _ => True
      padHeld p l → inSlice l data.length → inSlice m 1 →
      let q := p.writeLoc who engine l data
      (q.readHome l data.length).2 = data ∧ (l.overlaps data.length m 1 = false → (q.readHome m 1).2 = (p.readHome m 1).2)) ∧
   (∀ (p : Pkg) (sid : Nat) (st : Strand) (w c j pa policy : Nat), p.strand? sid = some st → c < 100 → j < 96 → w < 5 →
      isAliasPa pa = false →
      let bytes := (List.range (widthBytes w)).map fun i =>
        match if policy = 2 then none else (sidCore sid).bind fun k => p.l1Word k ((pa + i) / 4) with
        | some x => (wordBytes x).getD ((pa + i) % 4) 0
        | none => p.mem.read (pa + i)
      let q := p.doLoads sid w policy [{ lane := j, reg := c, loc := .hbm pa, bytes := widthBytes w }]
      q.mem = p.mem ∧
      ∃ u, q.strand? sid = some u ∧
        (∀ i, i < 96 → ∀ n, n < 100 → (n, i) ≠ (c, j) → u.reg n i = st.reg n i) ∧
        u.reg c j = (if w = 1 then BitVec.ofInt 32 (signedOf 8 (leNat bytes)) else
          if w = 3 then BitVec.ofInt 32 (signedOf 16 (leNat bytes)) else BitVec.ofNat 32 (leNat bytes)))

/-- R169, R239, R251, R253, R257, R259: the completion of an outstanding operation of a strand that executes on its cluster:
the operation is performed and leaves the strand's list, and its flag clears when no other operation holds it.

R109, R110, R254, R300, R353: LUNLK unpins the lines it names that its context has pinned, and no other; LQRY answers the quota,
whether the line is pinned, and how many are; SHLD fills its shape register with the 64 bytes, SHST stores them; LCRD answers
the counter.

R345: CPQ and XFQ answer all ones under a bad descriptor and 0 under a full chain, and else raise the tail, write the entry with
its sequence to its slot, and answer it, and the chain's engine knows the poster. R355: SPAWN appends the child to the
queue and adds 1 to the tree's counter, or records an invalid descriptor.

R175, R239, R241, R288, R315: the flag-B operations land: their values and flags, and in a lane where SG and NP were both clear the
first offending column of a factorisation; ACCRD's values in its registers, ACCWR's in the row of its tile alone, and ACTLD's
record in its slot. The swap of PUBL is in MemorySystem.

The model's own choices in it: log entries 7 and 33. -/
def Obligations.OperationsComplete : Prop :=
  ∀ (s : State) (sid id : Nat) (st : Strand) (o : Op), s.Booted → s.pkg.strand? sid = some st →
    st.ops.find? (fun o => o.id == id) = some o → s.pkg.isResident sid = true →
    let completes (p : Pkg) : Prop :=
      exec (.memoryOpComplete sid id) s = .next { s with pkg := p.dropOp sid id }
    let left := st.ops.filter fun x => x.id != id
    let answered (u : Strand) (reg v : Nat) : Prop := ∀ j, j < 96 → st.isPresent j →
      u.reg reg j = BitVec.ofNat 32 v ∧ u.reg (reg + 1) j = BitVec.ofNat 32 (v / 2 ^ 32)
    (s.pkg.opReady sid st o = true → (opReads s.pkg sid st o.kind).all (fun y => !s.pkg.badIn y.1 y.2) = true → o.id = id →
      (∀ w policy accs, o.kind = .load w policy accs → completes (s.pkg.doLoads sid w policy accs)) ∧
      (∀ policy accs, o.kind = .store policy accs → completes (s.pkg.doStores sid policy accs)) ∧
      (∀ code wide accs, o.kind = .atomic code wide accs → completes (s.pkg.doAtomics sid code wide accs)) ∧
      (∀ accs, o.kind = .cas accs → completes (s.pkg.doCas sid accs)) ∧
      (∀ policy accs, o.kind = .prefetch policy accs → completes (s.pkg.doPrefetch sid policy accs)) ∧
      (∀ accs, o.kind = .lock accs → completes (s.pkg.doLocks sid [] accs)) ∧
      (∀ accs, o.kind = .unlock accs → ∃ t : State, exec (.memoryOpComplete sid id) s = .next t ∧ t.pkg.mem = s.pkg.mem ∧
        t.pkg.strand? sid = some { st with ops := left } ∧
        ∀ line, t.pkg.pinned.get? line =
          if s.pkg.pinned.get? line = some (sidCtx sid) ∧ ∃ x ∈ accs, s.pkg.lineOf x.loc = some line then none
          else s.pkg.pinned.get? line) ∧
      (∀ accs c, o.kind = .query accs → (accs.map (·.lane)).Nodup → s.pkg.ctxs.get? (sidCtx sid) = some c →
        ∃ (t : State) (u : Strand), exec (.memoryOpComplete sid id) s = .next t ∧ t.pkg.mem = s.pkg.mem ∧
          t.pkg.pinned = s.pkg.pinned ∧ t.pkg.strand? sid = some u ∧ u.ops = left ∧
          ∀ x ∈ accs, x.lane < 96 → x.reg + 2 ≤ 100 →
            u.reg x.reg x.lane = BitVec.ofNat 32 (crLockQuota c.record % 2 ^ 31 +
              if ((s.pkg.lineOf x.loc).bind s.pkg.pinned.get?) = some (sidCtx sid) then 2 ^ 31 else 0) ∧
            u.reg (x.reg + 1) x.lane = BitVec.ofNat 32 (s.pkg.pinned.filter fun e => e.2 == sidCtx sid).length) ∧
      (∀ sh l, o.kind = .shapeLoad sh l → ∃ (t : State) (u : Strand), exec (.memoryOpComplete sid id) s = .next t ∧
        t.pkg.mem = s.pkg.mem ∧ t.pkg.strand? sid = some u ∧ u.ops = left ∧ u.v = st.v ∧
        u.shape sh = BitVec.ofNat 512 (leNat (s.pkg.readLoc (sidCore sid) 0 l 64).2) ∧ ∀ n, n ≠ sh → u.shape n = st.shape n) ∧
      (∀ l data, o.kind = .shapeStore l data → completes (s.pkg.writeLoc (sidCore sid) false l data)) ∧
      (∀ reg l, o.kind = .counterRead reg l → reg + 2 ≤ 100 → ∃ (t : State) (u : Strand),
        exec (.memoryOpComplete sid id) s = .next t ∧ t.pkg.mem = s.pkg.mem ∧ t.pkg.strand? sid = some u ∧ u.ops = left ∧
        answered u reg (leNat (s.pkg.readHome l 8).2)) ∧
      (∀ fabric reg desc entry p1 l r, o.kind = .post fabric reg desc entry none → reg + 2 ≤ 100 →
        s.pkg.checkGlobal (.lane sid) (sidCtx sid) (s.pkg.leaseOf st) needAtomic [⟨st.low, desc.toNat⟩] = (p1, .ok (l :: r)) →
        p1.isBad l = false →
        let p2 := ((p1.dropLoc (sidCore sid) l 64).readHome l 64).1
        let d := leNat (p1.readHome l 64).2
        let n := cdTail d + 1
        let key := Pkg.chainKey (sidCtx sid) desc.toNat
        p2.strand? sid = some st →
        (cdBad d fabric = true → ∃ (t : State) (u : Strand), exec (.memoryOpComplete sid id) s = .next t ∧
          t.pkg.mem = p2.mem ∧ t.pkg.strand? sid = some u ∧ u.ops = left ∧ answered u reg (2 ^ 64 - 1)) ∧
        (cdBad d fabric = false → 2 ^ cdLog d ≤ cdTail d - cdCompleted d → ∃ (t : State) (u : Strand),
          exec (.memoryOpComplete sid id) s = .next t ∧ t.pkg.mem = p2.mem ∧ t.pkg.strand? sid = some u ∧ u.ops = left ∧
          answered u reg 0) ∧
        (∀ p3 slot rest, cdBad d fabric = false → cdTail d - cdCompleted d < 2 ^ cdLog d → n < 2 ^ 64 - 1 →
          cdSlot d n % 64 = 0 →
          p2.checkGlobal (.lane sid) (sidCtx sid) (p2.leaseOf st) needWrite [⟨st.low, cdSlot d n⟩] = (p3, .ok (slot :: rest)) →
          p3.strand? sid = some st → st.park = none →
          ∃ (t : State) (u : Strand) (c : Chain) (who : Poster) (x : Nat), exec (.memoryOpComplete sid id) s = .next t ∧
            t.pkg.strand? sid = some u ∧ u.ops = left ∧ answered u reg n ∧ t.pkg.chains.get? key = some c ∧
            c.look = true ∧ c.halted = false ∧ c.posted.get? n = some who ∧ who.sid = sid ∧ who.tree = s.pkg.treeKeyOf st ∧
            x = leNat (entry.flatMap wordBytes) / 2 ^ 112 * 2 ^ 112 + 2 ^ 96 + n ∧
            t.pkg.mem = ((p3.writeLoc (sidCore sid) false (l.plus 16) (leBytes 8 n)).writeLoc (sidCore sid) false slot
              (leBytes 64 x)).mem)) ∧
      (∀ reg l c tree, o.kind = .spawn reg l → s.pkg.ctxs.get? (sidCtx sid) = some c → c.spawnQueue.length < 256 →
        s.pkg.isBad l = false → s.pkg.trees.get? (s.pkg.treeKeyOf st) = some tree → reg < 100 →
        let d := BitVec.ofNat 512 (leNat (s.pkg.readLoc (sidCore sid) 0 l 64).2)
        ∃ (t : State) (u : Strand), exec (.memoryOpComplete sid id) s = .next t ∧ t.pkg.mem = s.pkg.mem ∧
          t.pkg.strand? sid = some u ∧ u.ops = left ∧
          (∀ j, j < 96 → st.isPresent j → u.reg reg j = if descValid d c.leases then 0 else 1) ∧
          (descValid d c.leases = true →
            (t.pkg.ctxs.get? (sidCtx sid)).map (·.spawnQueue) =
              some (c.spawnQueue ++ [{ tree := s.pkg.treeKeyOf st, desc := d }]) ∧
            t.pkg.trees.get? (s.pkg.treeKeyOf st) = some { tree with counter := (tree.counter + 1) % 2 ^ 48 }) ∧
          (descValid d c.leases = false → (t.pkg.ctxs.get? (sidCtx sid)).map (·.spawnQueue) = some c.spawnQueue ∧
            t.pkg.trees.get? (s.pkg.treeKeyOf st) = some { tree with status := some (tree.status.getD 2) }))) ∧
    (∀ writes flags columns, o.kind = .regs writes flags columns →
      exec (.flagBOpComplete sid id) s =
        .next { s with pkg := (s.pkg.setStrand sid (st.land writes flags columns)).dropOp sid id }) ∧
    (∀ writes flags columns j, (∀ w ∈ writes, w.1 ≠ 123) → (columns.map (·.1)).Nodup → (∀ c ∈ columns, c.2.toNat < 8) → j < 96 →
      let cf := (st.land writes flags columns).cfAt j
      let clear := (st.cfAt j).getLsbD 3 = false ∧ (st.cfAt j).getLsbD 4 = false
      (∀ k, k < 15 → (k < 5 ∨ 7 < k) →
        (cf.getLsbD k = true ↔ (st.cfAt j).getLsbD k = true ∨ ∃ f ∈ flags, f.1 = j ∧ f.2.getLsbD k = true)) ∧
      ((∀ f ∈ flags, f.2.extractLsb' 5 3 = 0) →
        (∀ c, clear → (j, c) ∈ columns → cf.extractLsb' 5 3 = c.setWidth 3) ∧
        (¬ clear ∨ (∀ c, (j, c) ∉ columns) → cf.extractLsb' 5 3 = (st.cfAt j).extractLsb' 5 3))) ∧
    (∀ tile writes, o.kind = .tileRead tile writes →
      exec (.flagBOpComplete sid id) s = .next { s with pkg := (s.pkg.setStrand sid (st.land writes [] [])).dropOp sid id }) ∧
    (∀ tile row vals b, o.kind = .tileWrite tile row vals → s.pkg.bents.get? st.bent = some b → row < 64 →
      (vals.map (·.1)).Nodup → (∀ e ∈ vals, e.1 < 64) →
      ∃ (t : State) (b' : Bent), exec (.flagBOpComplete sid id) s = .next t ∧ t.pkg.mem = s.pkg.mem ∧
        t.pkg.strand? sid = some { st with ops := left } ∧ t.pkg.bents.get? st.bent = some b' ∧
        (∀ e ∈ vals, (b'.tile tile).pair row e.1 = e.2.setWidth 64) ∧
        (∀ i j, i < 64 → j < 64 → (i ≠ row ∨ ∀ e ∈ vals, e.1 ≠ j) → (b'.tile tile).pair i j = (b.tile tile).pair i j) ∧
        ∀ n, n ≠ tile → b'.tile n = b.tile n) ∧
    (∀ slot locs, o.kind = .actLoad slot locs → s.pkg.slotBefore sid slot o = false → s.pkg.opReady sid st o = true → o.id = id →
      ∃ t : State, exec (.flagBOpComplete sid id) s = .next t ∧ t.pkg.mem = s.pkg.mem ∧
        t.pkg.strand? sid = some { st with ops := left } ∧
        (locs.any s.pkg.isBad = false →
          (t.pkg.core (sidCk sid)).acts.get? slot = actSlotOf (s.pkg.readRecord sid locs).2) ∧
        (locs.any s.pkg.isBad = true → (t.pkg.core (sidCk sid)).acts.get? slot = none) ∧
        ∀ n, n ≠ slot → (t.pkg.core (sidCk sid)).acts.get? n = (s.pkg.core (sidCk sid)).acts.get? n) ∧
    (∀ q u, (q : Pkg).strand? sid = some u →
      (q.dropOp sid id).strand? sid = some { u with ops := u.ops.filter fun o => o.id != id })

/-! ### Small matrices -/

/-- The sum of products up to its term k: a plain product, then fused multiply-adds (R287). -/
def sumUpTo (f : Fmt) (mode : Nat) (term : Nat → Nat × Nat) : Nat → FRes
  | 0 => fMul f mode (term 0).1 (term 0).2
  | k + 1 => fFma f mode (term (k + 1)).1 (term (k + 1)).2 (sumUpTo f mode term k).bits

/-- `t` less the first k products: FMA(-x, y, t), in ascending order (R289, R291). -/
def minusUpTo (f : Fmt) (mode t : Nat) (term : Nat → Nat × Nat) : Nat → FRes
  | 0 => ⟨t, 0⟩
  | k + 1 => fFma f mode (negate f (term k).1) (term k).2 (minusUpTo f mode t term k).bits

/-- The product of elements 0 to k (R292). -/
def prodUpTo (f : Fmt) (mode : Nat) (u : Nat → Nat) : Nat → FRes
  | 0 => ⟨u 0, 0⟩
  | k + 1 => fMul f mode (prodUpTo f mode u k).bits (u (k + 1))

/-- `τ` is the pattern of 2^-TP, where TP is taken as 149 for FP32 when the mode holds more (R288). -/
def isTau (m : DWord) (τ : Nat) : Prop :=
  (smFmt m).isFinite τ = true ∧ τ < 2 ^ ((smFmt m).width - 1) ∧
    exactVal (exactOf (smFmt m) τ) = (2 : ℚ) ^ (-((if modeFP64 m then modeTP m else min (modeTP m) 149 : ℕ) : ℤ))

/-- The column that a factorisation names: its lowest bad one (R288). -/
def namesLowest (n : Nat) (bad : Nat → Prop) (col : Option Nat) : Prop :=
  ∀ c, col = some c ↔ c < n ∧ bad c ∧ ∀ k, k < c → ¬ bad k

/-- What `out` of SMCHOL is for a matrix: the factor column by column, its bad pivots, its flags (R285, R288, R289). -/
def choleskyOf (m : DWord) (a : List Nat) (τ : Nat) (out : SmOut) : Prop :=
  let n := modeOrder m
  let f := smFmt m
  let mode := modeRound m
  let l (r c : Nat) : Nat := out.vals.getD (n * r + c) 0
  let rest (r c k : Nat) : FRes := minusUpTo f mode (a.getD (n * r + c) 0) (fun i => (l r i, l c i)) k
  let pivot (c : Nat) : Nat := (rest c c c).bits
  let bad (c : Nat) : Prop := f.isNaN (pivot c) = false ∧ ¬ numLt f τ (pivot c)
  let root (c : Nat) (r : FRes) : Prop :=
    (bad c → r = fSqrt f mode τ) ∧ (¬ bad c → r = fSqrt f mode (pivot c))
  let quotient (r c : Nat) : FRes := fDiv f mode (rest r c c).bits (l c c)
  out.vals.length = n * n ∧ namesLowest n bad out.col ∧
    (∀ c, c < n → ∃ r, root c r ∧ l c c = r.bits) ∧
    (∀ r c, c < r → r < n → l r c = (quotient r c).bits) ∧ (∀ r c, r < c → c < n → l r c = 0) ∧
    ∀ k, out.flags.testBit k = true ↔ k = 4 ∧ (∃ c, c < n ∧ bad c) ∨
      k = 8 ∧ (∃ r c, c ≤ r ∧ r < n ∧ f.isNaN (a.getD (n * r + c) 0) = true) ∨
      (∃ r c i, i ≤ c ∧ c ≤ r ∧ r < n ∧ (rest r c i).flags.testBit k = true) ∨
      (∃ c r, c < n ∧ root c r ∧ r.flags.testBit k = true) ∨
      ∃ r c, c < r ∧ r < n ∧ (quotient r c).flags.testBit k = true

/-- What `out` of SMLU is for a matrix: `w c` is the working matrix before column c, `x c` the same after the rows are swapped,
`perm c` the permutation and `p c` the pivot row (R285, R288, R290). -/
def luOf (m : DWord) (a : List Nat) (τ : Nat) (out : SmOut) : Prop :=
  let n := modeOrder m
  let f := smFmt m
  let mode := modeRound m
  ∃ (w x : Nat → Nat → Nat → Nat) (perm : Nat → Nat → Nat) (p : Nat → Nat),
    let swapped (c r : Nat) : Nat := if r = p c then c else if r = c then p c else r
    let bad (c : Nat) : Prop := f.isFinite (x c c c) = true ∧ |exactVal (exactOf f (x c c c))| ≤ exactVal (exactOf f τ)
    let quotient (c r : Nat) : FRes := fDiv f mode (x c r c) (w (c + 1) c c)
    let update (c r q : Nat) : FRes := fFma f mode (negate f (w (c + 1) r c)) (x c c q) (x c r q)
    (∀ r q, w 0 r q = a.getD (n * r + q) 0) ∧ (∀ i, perm 0 i = i) ∧
    (∀ c, c < n →
      let number (r : Nat) : Prop := c ≤ r ∧ r < n ∧ f.isNaN (w c r c) = false
      ((∀ r, ¬ number r) → p c = c) ∧
      ((∃ r, number r) → number (p c) ∧ ∀ r, number r → f.mag (w c r c) ≤ f.mag (w c (p c) c) ∧
        (r < p c → f.mag (w c r c) < f.mag (w c (p c) c))) ∧
      (∀ r q, x c r q = w c (swapped c r) q) ∧ (∀ i, perm (c + 1) i = perm c (swapped c i)) ∧
      (bad c → w (c + 1) c c = if f.isZero (x c c c) then τ else f.signed (f.isNeg (x c c c)) τ) ∧
      (¬ bad c → w (c + 1) c c = x c c c) ∧
      (∀ r q, r < c ∨ q < c ∨ r = c ∧ c < q → w (c + 1) r q = x c r q) ∧
      (∀ r, c < r → r < n → w (c + 1) r c = (quotient c r).bits) ∧
      (∀ r q, c < r → r < n → c < q → q < n → w (c + 1) r q = (update c r q).bits)) ∧
    out.vals.length = n * n ∧ (∀ r q, r < n → q < n → out.vals.getD (n * r + q) 0 = w n r q) ∧
    (∀ i, i < n → bits out.pivot (3 * i + 2) (3 * i) = perm n i) ∧ out.pivot < 2 ^ (3 * n) ∧
    namesLowest n bad out.col ∧
    ∀ k, out.flags.testBit k = true ↔ k = 3 ∧ (∃ c, c < n ∧ bad c) ∨
      k = 8 ∧ (∃ i, i < n * n ∧ f.isNaN (a.getD i 0) = true) ∨
      (∃ c r, c < r ∧ r < n ∧ (quotient c r).flags.testBit k = true) ∨
      ∃ c r q, c < r ∧ r < n ∧ c < q ∧ q < n ∧ (update c r q).flags.testBit k = true

/-- What `out` of SMSOLV is: `y` and `x` are the results of the two substitutions (R285, R291). -/
def solutionOf (m : DWord) (a d : List Nat) (pivot : Option Nat) (out : SmOut) : Prop :=
  let n := modeOrder m
  let f := smFmt m
  let mode := modeRound m
  let at' (r c : Nat) : Nat := a.getD (n * r + c) 0
  ∃ y x : Nat → Nat,
    let start (i : Nat) : Nat := match pivot with | none => d.getD i 0 | some w => d.getD (bits w (3 * i + 2) (3 * i)) 0
    let upper (i k : Nat) : Nat := match pivot with | none => at' k i | some _ => at' i k
    let down (i k : Nat) : FRes := minusUpTo f mode (start i) (fun k => (at' i k, y k)) k
    let back (i k : Nat) : FRes := minusUpTo f mode (y i) (fun k => (upper i (i + 1 + k), x (i + 1 + k))) k
    let divided (i : Nat) : FRes := fDiv f mode (down i i).bits (at' i i)
    let last (i : Nat) : FRes := fDiv f mode (back i (n - 1 - i)).bits (at' i i)
    (∀ i, i < n → y i = if pivot = none then (divided i).bits else (down i i).bits) ∧ (∀ i, i < n → x i = (last i).bits) ∧
    out.vals = (List.range n).map x ∧ out.col = none ∧
    ∀ k, out.flags.testBit k = true ↔
      k = 8 ∧ ((∃ v ∈ d, f.isNaN v = true) ∨ ∃ r c, r < n ∧ c < n ∧ (pivot = none → c ≤ r) ∧ f.isNaN (at' r c) = true) ∨
      ∃ i, i < n ∧ ((∃ j, j ≤ i ∧ (down i j).flags.testBit k = true) ∨ (∃ j, j < n - i ∧ (back i j).flags.testBit k = true) ∨
        pivot = none ∧ (divided i).flags.testBit k = true ∨ (last i).flags.testBit k = true)

/-- What `out` of SMDET is: the product of the diagonal, squared for Cholesky factors, and for LU factors with the sign of the
permutation (R292). -/
def determinantOf (m : DWord) (a : List Nat) (pivot : Option Nat) (out : SmOut) : Prop :=
  let n := modeOrder m
  let f := smFmt m
  let mode := modeRound m
  let g (k : Nat) : FRes := prodUpTo f mode (fun i => a.getD (n * i + i) 0) k
  let square : FRes := fMul f mode (g (n - 1)).bits (g (n - 1)).bits
  out.col = none ∧ (pivot = none → out.vals = [square.bits]) ∧
    (∀ (w : Nat) (σ : Equiv.Perm (Fin n)), pivot = some w → (∀ i, (σ i).val = bits w (3 * i.val + 2) (3 * i.val)) →
      (Equiv.Perm.sign σ = 1 → out.vals = [(g (n - 1)).bits]) ∧
      (Equiv.Perm.sign σ = -1 → out.vals = [negate f (g (n - 1)).bits])) ∧
    ∀ k, out.flags.testBit k = true ↔ (∃ i, i < n ∧ (g i).flags.testBit k = true) ∨ pivot = none ∧ square.flags.testBit k = true

/-- R285 to R287: the element-wise forms and the products of small matrices. Elements are numbered in row-major order; a
product is summed in ascending order, a plain product and then fused multiply-adds, and the flags are those of every step. The
forms that copy bit patterns set none. -/
def Obligations.SmallMatrixProducts : Prop :=
  ∀ (d a b : Field) (r0 r1 r2 : Bool) (s : State) (x : Pkg.Exe),
    let n := modeOrder x.st.mode
    let k := smRegs x.st.mode
    let f := smFmt x.st.mode
    let r := modeRound x.st.mode
    let A (j i : Nat) : Nat := x.env.getN k (x.a + k * i) j
    let B (j i : Nat) : Nat := x.env.getN k (x.b + k * i) j
    let gives (i : Instr) (vals : Nat → List Nat) (flag : Nat → Nat → Prop) : Prop :=
      ∃ g : Nat → SmOut, exec i s = .next (s.smIssued x g []) ∧
        ∀ j, (g j).vals = vals j ∧ (g j).col = none ∧ ∀ k, (g j).flags.testBit k = true ↔ flag j k
    let grid (cols : Nat) (e : Nat → Nat → Nat → Nat) (j : Nat) : List Nat :=
      (List.range n).flatMap fun row => (List.range cols).map fun col => e j row col
    let products (i : Instr) (cols : Nat) (term : Nat → Nat → Nat → Nat → Nat × Nat) : Prop :=
      let sum (j row col : Nat) (k : Nat) : FRes := sumUpTo f r (term j row col) k
      gives i (grid cols fun j row col => (sum j row col (n - 1)).bits)
        fun j k => ∃ row col m, row < n ∧ col < cols ∧ m < n ∧ (sum j row col m).flags.testBit k = true
    let elements (i : Instr) (e : Nat → Nat → FRes) : Prop :=
      gives i (fun j => (List.range (n * n)).map fun m => (e j m).bits)
        fun j k => ∃ m, m < n * n ∧ (e j m).flags.testBit k = true
    let copies (i : Instr) (vals : Nat → List Nat) : Prop := gives i vals fun _ _ => False
    (s.Admits 0x72 d a b x → products (.smmul d a b r0 r1 r2) n fun j row col m => (A j (n * row + m), B j (n * m + col))) ∧
    (s.Admits 0x73 d a b x → products (.smmult d a b r0 r1 r2) n fun j row col m => (A j (n * row + m), B j (n * col + m))) ∧
    (s.Admits 0x74 d a b x → products (.smtmul d a b r0 r1 r2) n fun j row col m => (A j (n * m + row), B j (n * m + col))) ∧
    (s.Admits 0x75 d a b x → elements (.smadd d a b r0 r1 r2) fun j i => fAdd f r (A j i) (B j i)) ∧
    (s.Admits 0x76 d a b x → elements (.smsub d a b r0 r1 r2) fun j i => fSub f r (A j i) (B j i)) ∧
    (s.Admits 0x77 d a b x → elements (.smscl d a b r0 r1 r2) fun j i => fMul f r (A j i) (B j 0)) ∧
    (s.Admits 0x78 d a b x → copies (.smtrn d a b r0 r1 r2) (grid n fun j row col => A j (n * col + row))) ∧
    (s.Admits 0x79 d a b x → products (.smmv d a b r0 r1 r2) 1 fun j row _ m => (A j (n * row + m), B j m)) ∧
    (s.Admits 0x7E d a b x → copies (.smid d a b r0 r1 r2)
      (grid n fun _ row col => if x.b = 0 ∧ row = col then smOne f else 0)) ∧
    (s.Admits 0x7F d a b x → copies (.smcopy d a b r0 r1 r2) fun j => (List.range (n * n)).map (A j))

/-- R288 to R293: the factorisations, the solver and the determinant issue on flag B; a pivot word that is no permutation
raises Illegal Operand in its lanes. SMCHOL computes the lower factor column by column, with zeros above the diagonal, and SMLU the
factors and the pivot word with the largest candidate of each column as its pivot; a bad pivot takes its substitute, sets NP or SG
and, if it is the lowest, names its column. SMSOLV substitutes forward and backward; SMDET multiplies the diagonal, squared for
Cholesky factors, with the sign of the permutation for LU factors. The flags are those of every step, and NV for a NaN read by the
first three. -/
def Obligations.SmallMatrixSolvers : Prop :=
  (∀ (d a b : Field) (r0 r1 r2 : Bool) (s : State) (x : Pkg.Exe),
    let n := modeOrder x.st.mode
    let bad := x.st.onLanes.filter fun j => match pivotOf x j with | some w => !pivotValid n w | none => false
    let traps : State :=
      { s with pkg := s.pkg.takeTrap x.sid { cause := 0x03, lanes := bad } x.st.slot }
    (s.Admits 0x7A d a b x →
      exec (.smchol d a b r0 r1 r2) s = .next (s.smIssued x (fun j => cholesky x.st.mode (smMat x x.d j)) [])) ∧
    (s.Admits 0x7B d a b x →
      exec (.smlu d a b r0 r1 r2) s = .next (s.smIssued x (fun j => luFactor x.st.mode (smMat x x.d j))
        ((if 125 ≤ x.b then [x.st.low] else x.st.onLanes).map fun j => (x.b, j, BitVec.ofNat 32 (luFactor x.st.mode (smMat x x.d j)).pivot)))) ∧
    (s.Admits 0x7C d a b x → bad = [] →
      exec (.smsolv d a b r0 r1 r2) s = .next (s.smIssued x
        (fun j => smSolve x.st.mode (smMat x x.a j) (smRead x x.d n j) (pivotOf x j)) [])) ∧
    (s.Admits 0x7C d a b x → bad ≠ [] → exec (.smsolv d a b r0 r1 r2) s = .next traps) ∧
    (s.Admits 0x7D d a b x → bad = [] →
      exec (.smdet d a b r0 r1 r2) s = .next { s with
        pkg := s.pkg.issued x (x.st.flagOf true)
          (x.form.writes (modeSizes x.st.mode) x.d x.a x.b) false
          (.regs ((if 125 ≤ x.d then [x.st.low] else x.st.onLanes).flatMap fun j => smWrites x x.d j (smDet x.st.mode (smMat x x.a j) (pivotOf x j)).vals)
            (x.st.onLanes.map fun j => (j, BitVec.ofNat 32 (smDet x.st.mode (smMat x x.a j) (pivotOf x j)).flags)) []) }) ∧
    (s.Admits 0x7D d a b x → bad ≠ [] → exec (.smdet d a b r0 r1 r2) s = .next traps)) ∧
  ∀ (m : DWord) (a : List Nat), 1 ≤ modeOrder m → a.length = modeOrder m * modeOrder m →
    (∀ row col, row < col → col < modeOrder m → (cholesky m a).vals[modeOrder m * row + col]? = some 0) ∧
    (luFactor m a).vals.length = modeOrder m * modeOrder m ∧ pivotValid (modeOrder m) (luFactor m a).pivot = true ∧
    (∀ τ, isTau m τ → choleskyOf m a τ (cholesky m a) ∧ luOf m a τ (luFactor m a)) ∧
    (∀ (d : List Nat) (pivot : Option Nat), d.length = modeOrder m → (∀ w, pivot = some w → pivotValid (modeOrder m) w = true) →
      solutionOf m a d pivot (smSolve m a d pivot)) ∧
    ∀ pivot : Option Nat, determinantOf m a pivot (smDet m a pivot)

/-- R283, R284: SMLD and SMST issue one operation over the elements of the On lanes: on the lane slice where each address
is aligned to the element and the elements lie in the slice, and on global memory where the checks of R154 pass and no
element lies in a device range. -/
def Obligations.SmallMatrixMemory : Prop :=
  ∀ (d a b : Field) (r0 r1 r2 : Bool) (s : State) (x : Pkg.Exe) (p : Pkg) (ls : List Loc),
    let k := smRegs x.st.mode
    let addr (j : Nat) : Nat := (x.env.opd x.form.a x.a j).toNat
    let es := smElements x
    let dests := x.form.writes (modeSizes x.st.mode) x.d x.a x.b
    let slice := es.map fun e => Loc.lane x.sid e.1 (addr e.1 + e.2.2)
    let accs (store : Bool) (l : List Loc) : List LaneAcc := (es.zip l).map fun e => smAcc x store e.1 e.2
    let issue (p : Pkg) (dests : List Nat) (entry : Bool) (kind : OpKind) : State :=
      { s with pkg := p.issued x (x.st.flagOf false) dests entry kind }
    let inSlice : Prop := b.toNat < 64 ∧ ∀ e ∈ es, addr e.1 % (4 * k) = 0 ∧
      addr e.1 + e.2.2 + 4 * k ≤ ldSlice (s.pkg.descOf x.st)
    let global (need : Need) : Prop :=
      64 ≤ b.toNat ∧ GlobalOk x (4 * k) { need with noDev := true } (es.map fun e => ⟨e.1, addr e.1 + e.2.2⟩) p ls ∧
        p.canEnter x.sid x.st = true
    (s.Admits 0x70 d a b x → inSlice → exec (.smld d a b r0 r1 r2) s =
      .next (issue s.pkg dests false (.load (3 + k) (b.toNat / 4 % 4) (accs false slice)))) ∧
    (s.Admits 0x70 d a b x → global needRead → exec (.smld d a b r0 r1 r2) s =
      .next (issue p dests true (.load (3 + k) (b.toNat / 4 % 4) (accs false ls)))) ∧
    (s.Admits 0x71 d a b x → inSlice → exec (.smst d a b r0 r1 r2) s =
      .next (issue s.pkg [] false (.store (b.toNat / 4 % 4) (accs true slice)))) ∧
    (s.Admits 0x71 d a b x → global needWrite → exec (.smst d a b r0 r1 r2) s =
      .next (issue p [] true (.store (b.toNat / 4 % 4) (accs true ls))))

/-! ### Shape registers and sweeps -/

/-- R300: SHSET puts the value into its field, where it fits, and leaves the other bits and registers; SHGET writes the
field to every present lane; SHIDX clears the five counters; SHLD and SHST issue the copy of the 64 bytes on flag A.

The model's own choices in it: log entry 87. -/
def Obligations.ShapeForms : Prop :=
  ∀ (d a b : Field) (r0 r1 r2 : Bool) (s : State) (x : Pkg.Exe),
    let f := b.toNat
    let hl := shField f
    let v := if f = 0 then (x.env.uniform64 x.a).toNat else (x.env.uniform x.a).toNat
    let fits := f = 0 ∨ (16 ≤ f ∧ f ≤ 20) ∨ (f = 3 ∧ 1 ≤ v ∧ v ≤ 5) ∨ (f ≠ 3 ∧ v < 2 ^ (hl.1 + 1 - hl.2))
    (s.Admits 0xB2 d a b x → fits →
      ∃ u, exec (.shset d a b r0 r1 r2) s = .next (s.after x u) ∧
        ldField (u.shape d.toNat) hl.1 hl.2 = (if f = 3 then v - 1 else v) ∧
        (∀ i, i < 512 → (i < hl.2 ∨ hl.1 < i) → (u.shape d.toNat).getLsbD i = (x.st.shape d.toNat).getLsbD i) ∧
        (∀ n, n ≠ d.toNat → u.shape n = x.st.shape n) ∧ u.v = x.st.v ∧ u.cf = x.st.cf ∧ u.em = x.st.em) ∧
    (s.Admits 0xB2 d a b x → ¬ fits →
      exec (.shset d a b r0 r1 r2) s =
        .next { s with pkg := s.pkg.takeTrap x.sid { cause := 0x03, lanes := x.st.onLanes } x.st.slot }) ∧
    (s.Admits 0xB3 d a b x →
      exec (.shget d a b r0 r1 r2) s = .next (s.after x (x.putAll (if f = 0 then 2 else 1)
        (BitVec.ofNat 64 (ldField (x.st.shape a.toNat) hl.1 hl.2 + if f = 3 then 1 else 0))))) ∧
    (s.Admits 0xB4 d a b x →
      ∃ u, exec (.shidx d a b r0 r1 r2) s = .next (s.after x u) ∧
        (∀ k, k < 5 → ldField (u.shape d.toNat) (24 * k + 399) (24 * k + 376) = 0) ∧
        ∀ i, i < 512 → (i < 376 ∨ 495 < i) → (u.shape d.toNat).getLsbD i = (x.st.shape d.toNat).getLsbD i) ∧
    (∀ p l, GlobalOk x 64 needRead [⟨x.st.low, (x.env.uniform64 x.a).toNat⟩] p [l] → s.Admits 0xB0 d a b x → f ≠ 64 →
      p.canEnter x.sid x.st = true →
      exec (.shld d a b r0 r1 r2) s =
        .next { s with pkg := p.issued x (x.st.flagOf false) [] true (.shapeLoad x.d l) }) ∧
    (∀ p l, GlobalOk x 64 needWrite [⟨x.st.low, (x.env.uniform64 x.a).toNat⟩] p [l] → s.Admits 0xB1 d a b x → f ≠ 64 →
      p.canEnter x.sid x.st = true →
      exec (.shst d a b r0 r1 r2) s =
        .next { s with
          pkg := p.issued x (x.st.flagOf false) [] true (.shapeStore l (leBytes 64 (x.st.shape x.d).toNat)) }) ∧
    (∀ t, let v := if x.st.truss then (x.env.uniform64 x.a).toNat else (x.env.uniform x.a).toNat
      s.pkg.coreTarget x.st v = some t → v % 64 = 0 → t.2.2.1 + 64 ≤ t.2.2.2 → b.toNat = 64 →
      s.pkg.isPresentAt (.core t.1 t.2.1 t.2.2.1) 64 = true →
      (s.Admits 0xB0 d a b x → exec (.shld d a b r0 r1 r2) s =
        .next { s with
          pkg := s.pkg.issued x (x.st.flagOf false) [] false (.shapeLoad x.d (.core t.1 t.2.1 t.2.2.1)) }) ∧
      (s.Admits 0xB1 d a b x → exec (.shst d a b r0 r1 r2) s =
        .next { s with
          pkg := s.pkg.issued x (x.st.flagOf false) [] false
            (.shapeStore (.core t.1 t.2.1 t.2.2.1) (leBytes 64 (x.st.shape x.d).toNat)) }))

/-- R299, R302, R303: a sweep whose shapes are legal, aligned and within their allocations issues one operation on flag A
with the records of its sources as they stand.

R304, R305: a group of a sweep whose elements can be reached and that captures nothing reads its at most 96 elements of each
source, and for SWFMA of D, as FP32; computes the sum, product, fused product, maximum, conversion or activation of each, or
for SWCPY and SWTRN leaves the bits; writes them in D's format in index order; sets the flags of all of it in the lane of
issue; and moves D's counters past the group, or to 0 at the end, where the sweep completes.

R306: a group of SWRED lies within one output's run; it adds its elements by the tree of R91, or folds the maximum, into the
running total, which at the end of the run is written in D's format to the output's element; the flags are those of every step.

The model's own choices in it: log entry 71. -/
def Obligations.Sweeps : Prop :=
   (∀ (d a b : Field) (r0 r1 r2 : Bool) (s : State) (x : Pkg.Exe),
      let g := agentOf s.pkg x.sid x.st
      let D := shapeOf (x.st.shape x.d)
      let A := shapeOf (x.st.shape x.a)
      let B := shapeOf (x.st.shape x.b)
      let lies (z : Shape) : Prop := (z.space = 5 ∨ z.base % z.esize = 0) ∧
        (1 ≤ z.space → z.space ≤ 3 → 0 ≤ z.span.1 ∧ z.span.2 ≤ z.allocation s.pkg g)
      let outliers := ((s.pkg.ctxs.get? (sidCtx x.sid)).map fun c => crOutliers c.record).getD 0
      let sweeps (i : Instr) (code : Nat) : Prop :=
        s.Admits code d a b x →
        let two := 0xB5 ≤ code ∧ code ≤ 0xB8
        sweepIllegal code x.b outliers D A (if two then B else A) = false → lies D → lies A → (two → lies B) →
        exec i s = .next { s with
          pkg := s.pkg.issued x (x.st.flagOf false) [] false (.sweep
            { code := code, shD := x.d, shA := x.a, shB := if two then x.b else x.a, recA := x.st.shape x.a,
              recB := x.st.shape (if two then x.b else x.a), sel := x.b, mode := x.st.mode, lowLane := x.st.low,
              slot := if code = 0xBA then s.pkg.actSlot x.sid x.st else none }) }
      sweeps (.swadd d a b r0 r1 r2) 0xB5 ∧ sweeps (.swmul d a b r0 r1 r2) 0xB6 ∧ sweeps (.swfma d a b r0 r1 r2) 0xB7 ∧
      sweeps (.swmax d a b r0 r1 r2) 0xB8 ∧ sweeps (.swcvt d a b r0 r1 r2) 0xB9 ∧ sweeps (.swact d a b r0 r1 r2) 0xBA ∧
      sweeps (.swcpy d a b r0 r1 r2) 0xBB ∧ sweeps (.swred d a b r0 r1 r2) 0xBC ∧ sweeps (.swtrn d a b r0 r1 r2) 0xBD) ∧
   (∀ (s : State) (sid id : Nat) (st : Strand) (o : Op) (w : Sweep) (p1 p2 p3 : Pkg) (la lb ld : List Loc), s.Booted →
      s.pkg.strand? sid = some st → st.ops.find? (fun o => o.id == id) = some o → o.id = id → o.kind = .sweep w →
      0xB5 ≤ w.code → w.code ≤ 0xBD → s.pkg.isResident sid = true →
      let g := agentOf s.pkg sid st
      let clear := clearOf s.pkg sid st o
      let D := shapeOf (st.shape w.shD)
      let A := shapeOf w.recA
      let B := shapeOf w.recB
      let e := Shape.linear D.extent D.counter
      let r := modeRound w.mode
      let fp (z : Shape) (x : Nat) : FRes := toFp32 z.fmt r (min (modePolicy w.mode) 1) x
      let narrow (x : Nat) : FRes := (fromFp32 D.fmt r (modePolicy w.mode) false x).1
      D.handle = 0 ∨ modePolicy w.mode ≠ 2 →
      (w.code ≠ 0xBC →
        let len := min 96 (D.elems - e)
        let ixs := (List.range len).map fun k => Shape.indexOf D.extent (e + k)
        s.pkg.sweepLocate g clear A needRead (ixs.map (sourceIndex w.code A)) = (p1, .ok la) →
        p1.sweepLocate g clear B needRead (ixs.map (sourceIndex w.code B)) = (p2, .ok lb) →
        p2.sweepLocate g clear D (if w.code = 0xB7 then needUpdate else needWrite) ixs = (p3, .ok ld) →
        let ra := p3.readEach g.core A.esize la
        let rb := ra.1.readEach g.core B.esize lb
        let rd : Pkg × List Nat := if w.code = 0xB7 then rb.1.readEach g.core D.esize ld else (rb.1, ra.2)
        let a (k : Nat) : FRes := fp A (ra.2.getD k 0)
        let b (k : Nat) : FRes := fp B (rb.2.getD k 0)
        let d (k : Nat) : FRes := fp D (rd.2.getD k 0)
        let value (k : Nat) : FRes :=
          match w.code with
          | 0xB5 => fAdd fp32 r (a k).bits (b k).bits
          | 0xB6 => fMul fp32 r (a k).bits (b k).bits
          | 0xB7 => fFma fp32 r (a k).bits (b k).bits (d k).bits
          | 0xB8 => fMinMax fp32 true (a k).bits (b k).bits
          | 0xBA => actEval w.slot (a k).bits
          | _ => ⟨(a k).bits, 0⟩
        let copies := w.code = 0xBB ∨ w.code = 0xBD
        let out (k : Nat) : Nat := if copies then ra.2.getD k 0 else (narrow (value k).bits).bits
        let sets (k n : Nat) : Prop := ¬ copies ∧
          ((a k).flags.testBit n ∨ (w.code ≤ 0xB8 ∧ (b k).flags.testBit n) ∨ (w.code = 0xB7 ∧ (d k).flags.testBit n) ∨
            (value k).flags.testBit n ∨ (narrow (value k).bits).flags.testBit n)
        ∃ fl : Nat, (∀ n, fl.testBit n ↔ ∃ k, k < len ∧ sets k n) ∧
          exec (.sweepGroup sid id) s = .next { s with
            pkg := ((rd.1.writeEach g.core D.esize (ld.zip ((List.range len).map out))).sweepFlags sid w.lowLane fl).sweepAdvance
              sid id w D.extent D.elems (e + len) }) ∧
      (w.code = 0xBC →
        let e := Shape.linear A.extent D.counter
        let all := (List.range 5).foldl (fun n k => n * A.extent k) 1
        let i0 := e % A.extent 0
        let len := min (96 - i0 % 96) (A.extent 0 - i0)
        s.pkg.sweepLocate g clear A needRead ((List.range len).map fun k => sourceIndex 0 A (Shape.indexOf A.extent (e + k))) =
          (p1, .ok la) →
        let ra := p1.readEach g.core A.esize la
        let vals := ra.2.map (fp A)
        let v (i : Nat) : Option Nat := if i0 % 96 ≤ i then (vals[i - i0 % 96]?).map (·.bits) else none
        let run := ((sumAll r v).map (·.bits)).getD 0
        let most (k : Nat) : Option FRes := maxUpTo (w.total.map (·.toNat)) (fun i => (vals.getD i ⟨0, 0⟩).bits) k
        let total : Nat :=
          if w.sel = 0 then (match w.total with | some n => (fAdd fp32 r n.toNat run).bits | none => run)
          else ((most vals.length).map (·.bits)).getD 0
        let sets (n : Nat) : Prop := (∃ y ∈ vals, y.flags.testBit n = true) ∨
          (w.sel = 0 ∧ (sumSets r v n ∨ ∃ t, w.total = some t ∧ (fAdd fp32 r t.toNat run).flags.testBit n = true)) ∨
          (w.sel ≠ 0 ∧ ∃ k y, k ≤ vals.length ∧ most k = some y ∧ y.flags.testBit n = true)
        (i0 + len < A.extent 0 → ∃ fl : Nat, (∀ n, fl.testBit n = true ↔ sets n) ∧ exec (.sweepGroup sid id) s = .next { s with
          pkg := (ra.1.sweepFlags sid w.lowLane fl).sweepAdvance sid id { w with total := some (BitVec.ofNat 32 total) }
            A.extent all (e + len) }) ∧
        (∀ l, A.extent 0 ≤ i0 + len → let ix := (Shape.indexOf A.extent e).drop 1
          (∀ k, k < 5 → ix.getD k 0 < D.extent k) → ra.1.sweepLocate g clear D needWrite [ix] = (p2, .ok [l]) →
          ∃ fl : Nat, (∀ n, fl.testBit n = true ↔ sets n ∨ (narrow total).flags.testBit n = true) ∧
            exec (.sweepGroup sid id) s = .next { s with
            pkg := ((p2.writeEach g.core D.esize [(l, (narrow total).bits)]).sweepFlags sid w.lowLane fl).sweepAdvance sid id
              { w with total := none } A.extent all (e + len) })))

/-! ### Control and system forms -/

/-- R172, R199: the transfers of control read their condition and offset once, from Low(); a taken one leaves its target,
the clause's header plus four times S32 of b, until the clause ends. CALL writes the address after the clause to the pair
d in every present lane.

R166, R168, R172: past an instruction, the strand stands at the next one of its clause; past the last one, it stands
before the clause of the taken transfer or of the word after the literal pool, and its temporaries are gone. A strand that
stands in the middle of a clause that is to be fetched again moves its slot alone (R173).

The model's own choices in it: log entry 90. -/
def Obligations.TransfersOfControl : Prop :=
   (∀ (d a b : Field) (r0 r1 r2 : Bool) (s : State) (x : Pkg.Exe),
      let target : DWord := x.st.clause + BitVec.ofInt 64 (4 * (x.env.get x.b x.st.low).toInt)
      let goes (t : DWord) (st : Strand) : State := s.after x { st with jump := some t }
      (s.Admits 0xD0 d a b x → exec (.bra d a b r0 r1 r2) s = .next (goes target x.st)) ∧
      (s.Admits 0xD1 d a b x → exec (.brz d a b r0 r1 r2) s =
        .next (if x.env.get x.a x.st.low = 0 then goes target x.st else s.after x x.st)) ∧
      (s.Admits 0xD2 d a b x → exec (.brnz d a b r0 r1 r2) s =
        .next (if x.env.get x.a x.st.low = 0 then s.after x x.st else goes target x.st)) ∧
      (s.Admits 0xD3 d a b x →
        ((∀ j, j < 96 → x.st.isPresent j → x.st.isActive j → (x.env.get x.a j).getLsbD 0 = false) →
          exec (.brnone d a b r0 r1 r2) s = .next (goes target x.st)) ∧
        ((∃ j, j < 96 ∧ x.st.isPresent j ∧ x.st.isActive j ∧ (x.env.get x.a j).getLsbD 0) →
          exec (.brnone d a b r0 r1 r2) s = .next (s.after x x.st))) ∧
      (s.Admits 0xD4 d a b x → exec (.call d a b r0 r1 r2) s = .next (goes target (x.putAll 2 x.st.after))) ∧
      (s.Admits 0xD5 d a b x → exec (.ret d a b r0 r1 r2) s = .next (goes (x.env.get64 x.a x.st.low) x.st))) ∧
   (∀ (st : Strand), st.executing = true →
      (st.slot < st.count → st.advance = { st with slot := st.slot + 1 }) ∧
      (st.count ≤ st.slot →
        st.advance.executing = false ∧ st.advance.slot = 0 ∧ st.advance.t = [] ∧ st.advance.jump = none ∧
        (∀ t, st.jump = some t → st.advance.clause = t) ∧
        (st.jump = none →
          st.advance.clause = st.clause + BitVec.ofNat 64 (4 * (st.count + 2 + st.litCount))) ∧
        st.advance.v = st.v ∧ st.advance.cf = st.cf ∧ st.advance.em = st.em ∧ st.advance.mode = st.mode ∧
        st.advance.ops = st.ops ∧ st.advance.sh = st.sh)) ∧
   (∀ (st : Strand), st.executing = false → st.advance = { st with slot := st.slot + 1 })

/-- R200, R201: EXIT makes the active lanes absent, and ends the strand's execution when none is left. BAR and BARQ arrive
once every earlier access is performed; once every participant has arrived, the strands that stand there depart, with the
effect of ACQ, and wait in place until then; BAR on a truss core completes at once. NOP does nothing. -/
def Obligations.ExitAndBarriers : Prop :=
  ∀ (d a b : Field) (r0 r1 r2 : Bool) (s : State) (x : Pkg.Exe),
    (s.Admits 0xD6 d a b x → x.st.present &&& ~~~x.st.em ≠ 0 →
      exec (.exit d a b r0 r1 r2) s =
        .next (s.after x { x.st with present := x.st.present &&& ~~~x.st.em, em := 0 })) ∧
    (s.Admits 0xD6 d a b x → x.st.present &&& ~~~x.st.em = 0 →
      ∃ u : Strand, exec (.exit d a b r0 r1 r2) s = .next (s.withStrand x.sid u) ∧ u.present = 0 ∧ u.em = 0 ∧
        u.finished = true ∧ u.executing = false ∧ u.frame = none ∧ u.ops = x.st.ops ∧ u.v = x.st.v) ∧
    (∀ (i : Instr) (k : Nat),
      (s.Admits 0xD7 d a b x ∧ i = .bar d a b r0 r1 r2 ∧ k = b.toNat ∧ x.st.truss = false ∨
        s.Admits 0xD8 d a b x ∧ i = .barq d a b r0 r1 r2 ∧ k = 4 + b.toNat) →
      (x.st.atBarrier ≠ some k → Pkg.quiet x.st = true →
        exec i s = .next { s with
          pkg := (s.pkg.setStrand x.sid
            { x.st with arrivals := x.st.arrivals.set k (x.st.arrivals.get k 0 + 1), atBarrier := some k }).settleBarriers
              x.st.bent }) ∧
      (x.st.atBarrier ≠ some k → Pkg.quiet x.st = false → exec i s = .next s) ∧
      (x.st.atBarrier = some k → x.st.departing = true →
        exec i s = .next (s.onward x
          ((s.pkg.setStrand x.sid { x.st with atBarrier := none, departing := false }).discardL1 (sidCore x.sid)))) ∧
      (x.st.atBarrier = some k → x.st.departing = false → exec i s = .next s)) ∧
    (∀ (p : Pkg) (bent sid k : Nat) (st : Strand), p.strand? sid = some st → st.atBarrier = some k → st.bent = bent →
      let complete : Prop := ∀ e ∈ p.strands, e.2.bent = bent → e.2.ended = false →
        (4 ≤ k ∨ e.2.crew = st.crew ∧ e.2.truss = false) → st.arrivals.get k 0 ≤ e.2.arrivals.get k 0
      (complete → (p.settleBarriers bent).strand? sid = some { st with departing := true }) ∧
      (¬ complete → (p.settleBarriers bent).strand? sid = some st)) ∧
    (s.Admits 0xD7 d a b x → x.st.truss = true → b.toNat < 4 → Pkg.quiet x.st = true →
      exec (.bar d a b r0 r1 r2) s = .next (s.onward x s.pkg)) ∧
    (s.Admits 0xDF d a b x → exec (.nop d a b r0 r1 r2) s = .next (s.onward x s.pkg))

/-- R174, R203: SETM writes a legal value into the field that its selector names and changes no other bit, and raises
Illegal Operand for any other value; GETM writes the field to every present lane.

The model's own choices in it: log entries 35 and 87. -/
def Obligations.ModeRegister : Prop :=
  ∀ (d a b : Field) (r0 r1 r2 : Bool) (s : State) (x : Pkg.Exe),
    let w : Word := x.env.get x.a x.st.low
    let illegal : Host.Outcome State Fault Refusal :=
      .next { s with pkg := s.pkg.takeTrap x.sid { cause := 0x03, lanes := x.st.onLanes } x.st.slot }
    let outcome (m : DWord) : Host.Outcome State Fault Refusal :=
      if modeLegal x.st.nregs m then .next (s.after x { x.st with mode := m }) else illegal
    let same (m : DWord) (hi lo : Nat) : Prop := ∀ i, i < 64 → (i < lo ∨ hi < i) → m.getLsbD i = x.st.mode.getLsbD i
    let writes (sel hi lo v : Nat) : Prop :=
      s.Admits 0xD9 d a b x → b.toNat = sel →
        ∀ m : DWord, bits m.toNat hi lo = v → same m hi lo → exec (.setm d a b r0 r1 r2) s = outcome m
    let field (sel hi lo : Nat) : Prop :=
      writes sel hi lo w.toNat ∧
      (s.Admits 0xD9 d a b x → b.toNat = sel → 2 ^ (hi + 1 - lo) ≤ w.toNat → exec (.setm d a b r0 r1 r2) s = illegal)
    writes 0 8 0 (w.toNat % 512) ∧ writes 4 31 28 (w.toNat % 16) ∧
    field 1 22 19 ∧ field 2 25 23 ∧ field 3 27 26 ∧ field 5 42 32 ∧ field 6 45 43 ∧ field 7 46 46 ∧
    (s.Admits 0xD9 d a b x → b.toNat = 8 →
      (∀ m : DWord, signedOf 5 (bits m.toNat 51 47) = w.toInt → same m 51 47 →
        exec (.setm d a b r0 r1 r2) s = outcome m) ∧
      ((w.toInt < -16 ∨ 15 < w.toInt) → exec (.setm d a b r0 r1 r2) s = illegal)) ∧
    (s.Admits 0xD9 d a b x → b.toNat = 9 →
      exec (.setm d a b r0 r1 r2) s = outcome (x.env.get64 x.a x.st.low &&& 0x000FFFFFFFF801FF)) ∧
    (s.Admits 0xDA d a b x → ∃ v : DWord,
      exec (.getm d a b r0 r1 r2) s = .next (s.after x (x.putAll (if b.toNat = 9 then 2 else 1) v)) ∧
      (b.toNat = 0 → v.toNat = bits x.st.mode.toNat 8 0) ∧ (b.toNat = 1 → v.toNat = bits x.st.mode.toNat 22 19) ∧
      (b.toNat = 2 → v.toNat = bits x.st.mode.toNat 25 23) ∧ (b.toNat = 3 → v.toNat = bits x.st.mode.toNat 27 26) ∧
      (b.toNat = 4 → v.toNat = bits x.st.mode.toNat 31 28) ∧ (b.toNat = 5 → v.toNat = bits x.st.mode.toNat 42 32) ∧
      (b.toNat = 6 → v.toNat = bits x.st.mode.toNat 45 43) ∧ (b.toNat = 7 → v.toNat = bits x.st.mode.toNat 46 46) ∧
      (b.toNat = 8 → v.toInt = signedOf 5 (bits x.st.mode.toNat 51 47)) ∧ (b.toNat = 9 → v = x.st.mode))

/-- R204, R205: TRAP #n raises cause 0x0C with n and Uniform(a); TRAP #64 parks the strand at the instruction; RTE
restores the frame's mode and em (without the bits of absent lanes) and goes on at the faulting instruction (#0), the one
after it (#1), or the clause that a names (#2), with the frame's temporaries or fresh ones.

The model's own choices in it: log entry 87. -/
def Obligations.TrapAndReturn : Prop :=
  ∀ (d a b : Field) (r0 r1 r2 : Bool) (s : State) (x : Pkg.Exe),
    (s.Admits 0xDB d a b x → b.toNat < 64 →
      exec (.trap d a b r0 r1 r2) s =
        .next { s with
          pkg := s.pkg.takeTrap x.sid
            { cause := 0x0C, lanes := x.st.onLanes, extra0 := b.toNat, extra1 := (x.env.get x.a x.st.low).toNat }
            x.st.slot }) ∧
    (s.Admits 0xDB d a 64 x →
      exec (.trapPark d a r0 r1 r2) s =
        .next (s.withStrand x.sid { Pkg.markDx x.st x.dx x.st with park := some .trapPark })) ∧
    (∀ f, s.Admits 0xDC d a b x → x.st.frame = some f →
      ∃ u : Strand, exec (.rte d a b r0 r1 r2) s = .next (s.withStrand x.sid u) ∧
        u.mode = f.mode ∧ u.em = f.em &&& x.st.present ∧ u.handler = false ∧ u.frame = none ∧ u.v = x.st.v ∧
        u.cf = x.st.cf ∧ u.sh = x.st.sh ∧ u.ops = x.st.ops ∧ u.present = x.st.present ∧
        (b = 0 → u.clause = f.clause ∧ u.slot = f.slot ∧ u.t = f.temps) ∧
        (b = 1 → u.clause = f.clause ∧ u.slot = f.slot + 1 ∧ u.t = f.temps) ∧
        (b = 2 → u.clause = x.env.get64 x.a x.st.low ∧ u.slot = 0 ∧ u.t = []))

/-- R206, R207: SREAD writes the value of each selector to every present lane: the time base, the cycles, the place, the gang
rank, the generation, the words of the trap record, which read 0 outside a handler, and the frame's mask words. SWRITE writes
the invalidate address or a mask word of the trap frame; an SWRITE of the invalidate start starts an invalidation of the
strand's context and stops in place until it has completed, or for pages above 1,024 raises Illegal Operand.

The model's own choices in it: log entry 87. -/
def Obligations.SystemRegisters : Prop :=
  ∀ (d a b : Field) (r0 r1 r2 : Bool) (s : State) (x : Pkg.Exe),
    (s.Admits 0xDD d a b x → ∃ v : DWord,
      exec (.sread d a b r0 r1 r2) s = .next (s.after x (x.putAll (if b.toNat = 0 ∨ b.toNat = 1 ∨ b.toNat = 32 then 2 else 1) v)) ∧
      (b = 0 → v = BitVec.ofNat 64 s.pkg.time) ∧
      (b = 1 → v = BitVec.ofNat 64 (s.pkg.cycleOf (sidCluster x.sid))) ∧
      (b = 4 → v = BitVec.ofNat 64 (s.pkg.vfs.get (sidCluster x.sid / 18) {}).gen) ∧
      (b = 2 → sidCluster x.sid < 144 → sidCtx x.sid < 64 → v.toNat < 2 ^ 32 ∧
        bits v.toNat 31 31 = (if sidIsTruss x.sid then 1 else 0) ∧ bits v.toNat 30 25 = sidCtx x.sid ∧
        bits v.toNat 24 22 = sidCluster x.sid / 18 ∧ bits v.toNat 21 14 = sidCluster x.sid ∧
        bits v.toNat 13 0 = if sidIsTruss x.sid then 0 else sidPlace x.sid) ∧
      (b = 3 → let own (e : Nat × DWord) : Prop :=
          e ∈ ((s.pkg.ctxs.get? (sidCtx x.sid)).map (·.gang)).getD [] ∧ e.2.getLsbD 15 = true ∧
            bits e.2.toNat 8 0 = s.pkg.yardPort
        ((∀ e, ¬ own e) → v = 0xFFFFFFFF) ∧ ((∃ e, own e) → ∃ e, own e ∧ v = (BitVec.ofNat 32 e.1).setWidth 64)) ∧
      (∀ w, w < 12 → b.toNat = 16 + w →
        v = if x.st.handler then (x.st.trapRecord.get w 0).setWidth 64 else 0) ∧
      (∀ w, w < 3 → b.toNat = 40 + w →
        (x.st.frame = none → v = 0) ∧ ∀ f, x.st.frame = some f → v = (f.em.extractLsb' (32 * w) 32).setWidth 64) ∧
      (b = 32 → v = 0) ∧ (b = 33 → v = 0)) ∧
    (s.Admits 0xDE d a b x → b = 32 →
      exec (.swrite d a b r0 r1 r2) s = .next (s.after x { x.st with invalAddr := x.env.get64 x.a x.st.low })) ∧
    (∀ w f, s.Admits 0xDE d a b x → w < 3 → b.toNat = 40 + w → x.st.frame = some f →
      ∃ u f', exec (.swrite d a b r0 r1 r2) s = .next (s.after x u) ∧ u.frame = some f' ∧ f'.clause = f.clause ∧
        f'.slot = f.slot ∧ f'.mode = f.mode ∧ u.em = x.st.em ∧ u.v = x.st.v ∧
        ∀ k, k < 96 → f'.em.getLsbD k =
          if k / 32 = w then (x.env.get x.a x.st.low).getLsbD (k % 32) else f.em.getLsbD k) ∧
    (s.Admits 0xDE d a 33 x →
      let pages := (x.env.get x.a x.st.low).toNat % 2048
      (x.st.invalidation = none → pages ≤ 1024 →
        ∃ t : State, exec (.swriteInvalidateStart d a r0 r1 r2) s = .next t ∧
          t.pkg.invalidations.get? s.pkg.nextId =
            some { ctx := sidCtx x.sid, first := bits x.st.invalAddr.toNat 54 16, pages := pages } ∧
          t.pkg.strand? x.sid = some { x.st with invalidation := some s.pkg.nextId } ∧ t.pkg.mem = s.pkg.mem) ∧
      (x.st.invalidation = none → 1024 < pages →
        exec (.swriteInvalidateStart d a r0 r1 r2) s =
          .next { s with pkg := s.pkg.takeTrap x.sid { cause := 0x03, lanes := x.st.onLanes } x.st.slot }) ∧
      (∀ n, x.st.invalidation = some n → (s.pkg.invalidations.get? n).isSome = true →
        exec (.swriteInvalidateStart d a r0 r1 r2) s = .next s) ∧
      (∀ n, x.st.invalidation = some n → s.pkg.invalidations.get? n = none →
        exec (.swriteInvalidateStart d a r0 r1 r2) s = .next (s.after x { x.st with invalidation := none })))

/-! ### Remote, engine, transfer and launch instructions -/

/-- R131, R255, R259: a remote form whose lanes are aligned, and whose ranks reach a plane, makes one request for each On
lane whose rank is in the gang table, in lane order, and issues one operation on flag A that waits for their replies; a
lane whose rank is not in the table fails with cause 0xFF. A request leaves at once unless an earlier read, atomic or
compare-and-swap of the strand to the same place is open, or, at a request to this package itself, an earlier access of the
strand to the same bytes, for which it waits. Registers and memory are unchanged.

The model's own choices in it: log entries 26, 27 and 72. -/
def Obligations.RemoteForms : Prop :=
  ∀ (d a b : Field) (r0 r1 r2 : Bool) (s : State) (x : Pkg.Exe),
    let js := x.st.onLanes
    let cid := sidCtx x.sid
    let addr (j : Nat) : Nat := (x.env.get64 x.a j).toNat
    let peer (j : Nat) : Option (Nat × Nat × Nat) := s.pkg.gangEntry cid (remoteRank (addr j))
    let out := js.filter fun j => (peer j).isSome
    let wb := b.toNat / 16
    let an := if b.toNat < 64 then 4 else 8
    let sends (i : Instr) (op n w regs : Nat) (req : Nat → RemoteReq) : Prop :=
      s.Admits op d a b x → (∀ j ∈ js, remoteVa (addr j) % n = 0) → s.pkg.canEnter x.sid x.st = true →
      (∀ j ∈ js, ∀ e, peer j = some e →
        (remoteRoute s.pkg ((req j).op != 0x01) e.1 (remoteVa (addr j)) (remoteRank (addr j))).isSome = true) →
      ∃ (t : State) (u : Strand) (ss : List Sent) (ls : List RemoteLane), exec i s = .next t ∧
        t.pkg.sent = s.pkg.sent ++ ss ∧ ss.length = out.length ∧
        t.pkg.outbox = s.pkg.outbox ++ (ss.filter fun q => !q.queued).map (·.packet) ∧
        (∀ k j e, out[k]? = some j → peer j = some e →
          let h := s.pkg.requestHead cid e (req j).op (Pkg.strandTag (s.pkg.nextId + k)) (req j).bytes (remoteVa (addr j))
            (req j).operand
          ∃ q, ss[k]? = some q ∧ q.packet = Packet.mk h.flit (req j).payload ∧ q.tag = h.tag ∧ q.sid = some x.sid ∧
            q.queued = (((s.pkg.sent ++ ss.take k).any fun m => m.sid == some x.sid && Pkg.samePlace (headOf m.packet) h) ||
              Pkg.behindOwn { s.pkg with nextId := s.pkg.nextId + k + 1 } x.sid h)) ∧
        t.pkg.mem = s.pkg.mem ∧ t.power = s.power ∧ t.plat = s.plat ∧ t.pkg.strand? x.sid = some u ∧
        u.v = x.st.v ∧ u.sh = x.st.sh ∧ u.mode = x.st.mode ∧ u.em = x.st.em ∧
        ls.map (·.lane) = js ∧ (∀ l ∈ ls, l.addr.toNat = addr l.lane) ∧
        (∀ l ∈ ls, l.failed = if (peer l.lane).isSome then none else some 0xFF) ∧
        (out ≠ [] → ∃ o ∈ u.ops, o.id = s.pkg.nextId + out.length ∧ o.flag = x.st.flagOf false ∧
          o.dests = (if w = 7 then [] else codesFrom x.d regs) ∧ o.entry = true ∧ o.kind = .remote w ls) ∧
        (out = [] → js ≠ [] → ∃ f ∈ u.failures, f.cause = 0x0F ∧ f.extra0 = 0xFF)
    sends (.rld d a b r0 r1 r2) 0x90 (widthBytes wb) wb (widthRegs wb) (fun _ => ⟨0x03, widthBytes wb, [], 0⟩) ∧
    sends (.rst d a b r0 r1 r2) 0x91 (widthBytes wb) 7 0
      (fun j => ⟨0x01, widthBytes wb, storeData x x.d (widthRegs wb) (widthBytes wb) j, 0⟩) ∧
    sends (.ratom d a b r0 r1 r2) 0xA6 an (if an = 8 then 5 else 4) (an / 4)
      (fun j => ⟨0x04, 0, [], b.toNat % 64 + (if an = 8 then 64 else 0) + x.env.getN (an / 4) x.d j % 2 ^ 64 * 2 ^ 64⟩) ∧
    sends (.rcas d a b r0 r1 r2) 0xA7 8 5 2
      (fun j => ⟨0x05, 0, [], (x.env.get64 x.b j).toNat + (x.env.get64 x.d j).toNat * 2 ^ 64⟩)

/-- R349, R350, R351 to R354: the chain, wait, transfer and counter forms.

The model's own choices in it: log entry 33. -/
def Obligations.EngineForms : Prop :=
  ∀ (d a b : Field) (r0 r1 r2 : Bool) (s : State) (x : Pkg.Exe) (p : Pkg) (l : Loc),
    let low := x.st.low
    let flag := x.st.flagOf false
    let get64 (c : Nat) : DWord := x.env.get64 c low
    let issue (p : Pkg) (dests : List Nat) (entry : Bool) (k : OpKind) : Host.Outcome State Fault Refusal :=
      .next { s with pkg := p.issued x flag dests entry k }
    let words := (List.range 16).map fun w => x.env.get (x.a + w) low
    let fmt := modeElem x.st.mode
    let transfers (i : Instr) (op kind : Nat) : Prop :=
      s.Admits op d a b x →
      ∃ (t : State) (ls : List (Nat × Nat)) (o : Op) (u : Strand), exec i s = .next t ∧ t.pkg.mem = s.pkg.mem ∧
        t.pkg.outbox = s.pkg.outbox ∧ ls.map (·.1) = x.st.onLanes ∧
        t.pkg.strand? x.sid = some u ∧ u.v = x.st.v ∧ u.ops = x.st.ops ++ [o] ∧ o.flag = flag ∧ o.dests = [] ∧
        o.kind = .putv ls ∧
        ∀ q ∈ ls, ∃ e, t.pkg.entries.get? q.2 = some e ∧ e.kind = kind ∧ e.sid = some x.sid ∧ e.chain = none ∧
          e.dest = BitVec.ofNat 64 (remoteVa (x.env.get64 x.a q.1).toNat) ∧
          e.peer = remoteRank (x.env.get64 x.a q.1).toNat ∧ e.length = elemBytes fmt ∧ e.done = 0 ∧
          e.inlineData = some (storeData x x.d (elemRegs fmt) (elemBytes fmt) q.1)
    (s.Admits 0xC0 d a b x → GlobalOk x 64 needAtomic [⟨low, (get64 x.b).toNat⟩] p [l] → p.canEnter x.sid x.st = true →
      exec (.cpq d a b r0 r1 r2) s = issue p [x.d, x.d + 1] true (.post false x.d (get64 x.b) words none)) ∧
    (s.Admits 0xC1 d a b x → GlobalOk x 64 needAtomic [⟨low, (get64 x.b).toNat⟩] p [l] → p.canEnter x.sid x.st = true →
      exec (.xfq d a b r0 r1 r2) s = issue p [x.d, x.d + 1] true (.post true x.d (get64 x.b) words none)) ∧
    (s.Admits 0xC2 d a b x → GlobalOk x 8 needRead [⟨low, (get64 x.a).toNat⟩] p [l] → 
      let q := p.readHome l 8
      (selfClear p x.sid x.st l 8 = false → exec (.waitseq d a b r0 r1 r2) s = .next s) ∧
      (selfClear p x.sid x.st l 8 = true → p.isBad l = false → (get64 x.b).toNat ≤ leNat q.2 →
        exec (.waitseq d a b r0 r1 r2) s = .next (s.onward x (q.1.discardL1 (sidCore x.sid)))) ∧
      (selfClear p x.sid x.st l 8 = true → p.isBad l = false → leNat q.2 < (get64 x.b).toNat →
        ∃ t : State, exec (.waitseq d a b r0 r1 r2) s = .next t ∧
        (q.1.strand? x.sid = some x.st →
          t = { s with pkg := q.1.setStrand x.sid { Pkg.markDx x.st x.dx x.st with park := some (.waitseq l (get64 x.b) false) } }))) ∧
    (s.Admits 0xC3 d a b x → get64 x.a ≠ 0 → s.pkg.ringsClear x.sid x.st (get64 x.a) = false →
      exec (.pollq d a b r0 r1 r2) s = .next s) ∧
    (s.Admits 0xC3 d a b x → get64 x.a ≠ 0 → s.pkg.ringsClear x.sid x.st (get64 x.a) = true →
      ∀ q n, s.pkg.firstRing (sidCtx x.sid) (get64 x.a) ((List.range 64).map fun k => (x.st.pollLast + 1 + k) % 64) =
        (q, some n) →
      exec (.pollq d a b r0 r1 r2) s = .next (s.onward x
        ((q.updStrand x.sid fun st =>
          { st.put x.d st.isPresent (fun _ => BitVec.ofNat 32 n) with pollLast := n, park := none }).discardL1
            (sidCore x.sid)))) ∧
    (s.Admits 0xC4 d a b x →
      let w (k : Nat) : Word := x.env.get (x.a + k) low
      let c := (w 5).toNat
      bits c 11 10 ≤ 1 → bits c 31 20 = 0 → (bits c 11 10 = 1 → bits c 19 16 ≤ 2) →
      ∃ (t : State) (u : Strand) (o : Op) (e : Entry), exec (.xsend d a b r0 r1 r2) s = .next t ∧ t.pkg.mem = s.pkg.mem ∧
        t.pkg.strand? x.sid = some u ∧ u.v = x.st.v ∧ u.ops = x.st.ops ++ [o] ∧ o.flag = flag ∧
        o.dests = [x.d, x.d + 1] ∧ o.kind = .send x.d s.pkg.nextId ∧ t.pkg.entries.get? s.pkg.nextId = some e ∧
        e.kind = 2 + bits c 11 10 ∧ e.dest = w 1 ++ w 0 ∧ e.source = w 3 ++ w 2 ∧ e.length = (w 4).toNat ∧
        e.counter = w 7 ++ w 6 ∧ e.hasCounter = c.testBit 9 ∧ e.peer = bits c 8 0 ∧ e.format = bits c 15 12 ∧
        e.reduction = bits c 19 16 ∧ e.sid = some x.sid ∧ e.done = 0) ∧
    transfers (.xputv d a b r0 r1 r2) 0xC5 2 ∧ transfers (.xredv d a b r0 r1 r2) 0xC6 3 ∧
    (∀ acc n, s.Admits 0xC7 d a b x → counterAt s.pkg x.sid x.st (get64 x.a).toNat = some acc → acc.off % 8 = 0 →
      acc.off + 8 ≤ acc.size →
      let used := (s.pkg.core (sidCk x.sid)).watches
      let own := (s.pkg.ownWatch x.sid (x.env.get x.d low).toNat).isSome
      (own = true ∧ n = (x.env.get x.d low).toNat ∨
        own = false ∧ (List.range (watchSlots x.st)).find? (fun k => (used.get? k).isNone) = some n) →
      (selfClear s.pkg x.sid x.st acc.loc 8 = false → exec (.lcset d a b r0 r1 r2) s = .next s) ∧
      (selfClear s.pkg x.sid x.st acc.loc 8 = true → ∃ (t : State) (fired : Bool), exec (.lcset d a b r0 r1 r2) s = .next t ∧
        (t.pkg.core (sidCk x.sid)).watches.get? n = some ⟨x.sid, acc.loc, get64 x.b, fired⟩ ∧
        t.pkg.strand? x.sid = some (s.pkg.past x (x.putAll 1 (BitVec.ofNat 64 n))) ∧ t.pkg.mem = s.pkg.mem)) ∧
    (∀ w, s.Admits 0xC8 d a b x → s.pkg.ownWatch x.sid (x.env.get x.a low).toNat = some w →
      (w.fired = true → exec (.lcwait d a b r0 r1 r2) s =
        .next (s.onward x ((s.pkg.updCore (sidCk x.sid) fun c =>
          { c with watches := c.watches.erase (x.env.get x.a low).toNat }).discardL1 (sidCore x.sid)))) ∧
      (w.fired = false → exec (.lcwait d a b r0 r1 r2) s =
        .next (s.withStrand x.sid { Pkg.markDx x.st x.dx x.st with park := some (.lcwait (x.env.get x.a low).toNat) }))) ∧
    (∀ acc, s.Admits 0xC9 d a b x → counterAt s.pkg x.sid x.st (get64 x.a).toNat = some acc →
      acc.formed % 8 = 0 → acc.off + acc.bytes ≤ acc.size → s.pkg.isPresentAt acc.loc acc.bytes = true →
      let entry := bits (get64 x.a).toNat 63 60 == 1
      (entry = true → s.pkg.canEnter x.sid x.st = true) →
      exec (.lcrd d a b r0 r1 r2) s = issue s.pkg [x.d, x.d + 1] entry (.counterRead x.d acc.loc))

/-- R46, R113, R354 to R357: PUBL asks for a swap of the twin that its address lies in; SPAWN asks for a child; SCARF
leaves a packet with its crew and ends the strand; TRIG leaves a pending addition to the launch's trigger count, which
happens once the strand's earlier accesses are performed; WAITDEP goes on, with the effect of ACQ, once the producers are
satisfied, and parks until then.

The model's own choices in it: log entry 32. -/
def Obligations.LaunchForms : Prop :=
  ∀ (d a b : Field) (r0 r1 r2 : Bool) (s : State) (x : Pkg.Exe) (p : Pkg) (l : Loc),
    let low := x.st.low
    let w (k : Nat) : Word := x.env.get (x.a + k) low
    (∀ c i pa, s.Admits 0xCA d a b x →
      s.pkg.translate (.lane x.sid low) (sidCtx x.sid) (s.pkg.leaseOf x.st) (x.env.get64 x.a low).toNat { } =
        (p, .ok (.twin c i pa)) →
      p.leafWritable (sidCtx x.sid) (x.env.get64 x.a low).toNat = true →
      exec (.publ d a b r0 r1 r2) s = .next { s with pkg := p.issued x (x.st.flagOf false) [] false (.publish i) }) ∧
    (s.Admits 0xCB d a b x → GlobalOk x 64 needRead [⟨low, (x.env.get64 x.a low).toNat⟩] p [l] →
      (∀ c, p.ctxs.get? (sidCtx x.sid) = some c → c.spawnQueue.length < 256) → p.canEnter x.sid x.st = true →
      exec (.spawn d a b r0 r1 r2) s = .next { s with pkg := p.issued x (x.st.flagOf false) [x.d] true (.spawn x.d l) }) ∧
    (∀ c, s.Admits 0xCC d a b x → x.st.truss = false → s.pkg.crew? x.st.bent x.st.crew = some c → w 2 ≠ 0 →
      (w 2).toNat ≤ c.sids.length → w 3 = 0 → ldDovetail (s.pkg.descOf x.st) = false →
      ∃ (t : State) (u : Strand), exec (.scarf d a b r0 r1 r2) s = .next t ∧ t.pkg.strand? x.sid = some u ∧
        u.present = 0 ∧ u.em = 0 ∧ u.finished = true ∧ u.executing = false ∧ u.ops = x.st.ops ∧ t.pkg.mem = s.pkg.mem ∧
        (t.pkg.crew? x.st.bent x.st.crew).map (·.scarfs) = some (c.scarfs ++
          [{ sn := x.st.sn, entry := w 1 ++ w 0, count := (w 2).toNat, args := [w 4, w 5, w 6, w 7] }])) ∧
    (s.Admits 0xCD d a b x →
      exec (.trig d a b r0 r1 r2) s = .next { s with pkg := s.pkg.issued x 15 [] false .trigger }) ∧
    (∀ q, s.Admits 0xCE d a b x → s.pkg.launchOf x.st = some q →
      (s.pkg.depsMet q = true →
        exec (.waitdep d a b r0 r1 r2) s = .next (s.onward x (s.pkg.discardL1 (sidCore x.sid)))) ∧
      (s.pkg.depsMet q = false →
        exec (.waitdep d a b r0 r1 r2) s =
          .next (s.withStrand x.sid { Pkg.markDx x.st x.dx x.st with park := some .waitdep })) ∧
      (s.pkg.depsMet q = true ↔ ∀ e ∈ q.deps, ∀ r, s.pkg.launches.get? e.1 = some r → r.ended = true ∨ e.2 ≤ r.trig)) ∧
    (∀ sid id st o q, s.Booted → s.pkg.strand? sid = some st →
      st.ops.find? (fun o => o.id == id && o.kind == .trigger) = some o →
      (∀ e ∈ Pkg.accessOps st, id ≤ e.id) → s.pkg.launches.get? st.launch = some q →
      ∃ t : State, exec (.triggerAdd sid id) s = .next t ∧
        t.pkg.launches.get? st.launch = some { q with trig := (q.trig + 1) % 2 ^ 32 } ∧
        t.pkg.strand? sid = some { st with ops := st.ops.filter fun o => o.id != id } ∧ t.pkg.mem = s.pkg.mem)

/-! ### The matrix engine -/

/-- R115, R309 to R312, R315: a matrix form of the truss strand whose shapes are legal and pass their checks enters its
operation at the end of a queue with room for it, under the next sequence number; a full queue stops the strand in place.
ACCWAIT goes on when no operation that it names is left, and what the ACCSTs that it names have written is then visible; MSTAT
reads the status words; ACCRD and ACCWR issue on flag B, or take Accumulator Busy while an operation on their tile has not
completed: the record names the tile and that operation.

The model's own choices in it: log entries 34 and 84. -/
def Obligations.MatrixForms : Prop :=
  ∀ (d a b : Field) (r0 r1 r2 : Bool) (s : State) (x : Pkg.Exe) (bent : Bent),
    s.pkg.bents.get? x.st.bent = some bent →
    let ra := x.st.shape x.a
    let rb := x.st.shape x.b
    let enters (i : Instr) (code tile : Nat) (recA recB : BitVec 512) (after : List Nat) : Prop :=
      (bent.matq.length < 8 →
        exec i s = .next (s.onward x { s.pkg with
          bents := s.pkg.bents.update x.st.bent fun q =>
            { q with
              mseq := q.mseq + 1
              matq := q.matq ++
                [{ seq := bent.mseq + 1, code := code, tile := tile, recA := recA, recB := recB, mode := x.st.mode, after := after }] } })) ∧
      (8 ≤ bent.matq.length → exec i s = .next s)
    let lies (z : Shape) : Prop := (z.space = 5 ∨ z.base % z.esize = 0) ∧
      (1 ≤ z.space → z.space ≤ 3 → 0 ≤ z.span.1 ∧ z.span.2 ≤ z.allocation s.pkg (agentOf s.pkg x.sid x.st))
    let outliers := ((s.pkg.ctxs.get? (sidCtx x.sid)).map fun c => crOutliers c.record).getD 0
    let before := Pkg.releasedAfter x.st
    let mma (op code : Nat) (i : Instr) : Prop :=
      s.Admits op d a b x → mmaIllegal code x.d outliers (shapeOf ra) (shapeOf rb) = false → lies (shapeOf ra) → lies (shapeOf rb) →
      enters i code x.d ra rb before
    mma 0xE0 0 (.mma d a b r0 r1 r2) ∧ mma 0xE1 1 (.mmaz d a b r0 r1 r2) ∧ mma 0xE2 2 (.mmac d a b r0 r1 r2) ∧
    (s.Admits 0xE3 d a b x → enters (.accz d a b r0 r1 r2) 3 x.d 0 0 []) ∧
    (s.Admits 0xE4 d a b x → lies (shapeOf ra) → tileShapeIllegal true outliers (shapeOf ra) = false →
      enters (.accld d a b r0 r1 r2) 4 x.d ra 0 before) ∧
    (s.Admits 0xE5 d a b x → lies (shapeOf (x.st.shape x.d)) → tileShapeIllegal false outliers (shapeOf (x.st.shape x.d)) = false →
      enters (.accst d a b r0 r1 r2) 5 x.a (x.st.shape x.d) 0 before) ∧
    (s.Admits 0xE8 d a b x → exec (.accwait d a b r0 r1 r2) s =
      .next (if bent.matq.any (fun o => b.toNat == 32 || o.tiles.contains b.toNat) then s
        else s.onward x (s.pkg.revealTiles x.st.bent fun t => b.toNat == 32 || t == b.toNat))) ∧
    (s.Admits 0xE9 d a b x → exec (.mstat d a b r0 r1 r2) s = .next (s.onward x
      ((if b.toNat = 5 then { s.pkg with bents := s.pkg.bents.update x.st.bent Bent.clearSticky } else s.pkg).setStrand x.sid
        (x.putAll 1 (BitVec.ofNat 64 (bent.matWord b.toNat)))))) ∧
    (ldTruss (s.pkg.descOf x.st) ≠ 0 →
      let row := (x.env.get x.b x.st.low).toNat % 64
      let js := x.st.onLanes.filter (· < 64)
      (∀ o ∈ bent.matq, x.a ∉ o.tiles) → s.Admits 0xE6 d a b x →
      ∃ q : Pkg, exec (.accrd d a b r0 r1 r2) s = .next { s with
          pkg := q.issued x (x.st.flagOf true) [x.d] false (.tileRead x.a (js.map fun j =>
            (landReg x j, j, BitVec.ofNat 32
              (pairDown (bent.tile x.a).isInt ((bent.tile x.a).pair row j) 0 0 0 false).1.bits))) } ∧
        q.mem = s.pkg.mem ∧ q.strands = s.pkg.strands ∧
        ∃ bent', q.bents.get? x.st.bent = some bent' ∧ bent'.tiles = bent.tiles ∧ bent'.matq = bent.matq) ∧
    (ldTruss (s.pkg.descOf x.st) ≠ 0 → (∀ o ∈ bent.matq, x.d ∉ o.tiles) → s.Admits 0xE7 d a b x →
      exec (.accwr d a b r0 r1 r2) s = .next { s with
        pkg := s.pkg.issued x (x.st.flagOf true) [] false
          (.tileWrite x.d ((x.env.get x.b x.st.low).toNat % 64)
            ((x.st.onLanes.filter (· < 64)).map fun j => (j, x.env.get x.a j))) }) ∧
    (∀ o tile, ldTruss (s.pkg.descOf x.st) ≠ 0 → bent.matq.find? (fun o => o.tiles.contains tile) = some o →
      let busy : Host.Outcome State Fault Refusal := .next { s with
        pkg := s.pkg.takeTrap x.sid
          { cause := 0x09, lanes := x.st.onLanes.filter (· < 64), extra0 := tile, extra1 := o.seq, extra2 := o.seq / 2 ^ 32 } x.st.slot }
      (s.Admits 0xE6 d a b x → x.a = tile → exec (.accrd d a b r0 r1 r2) s = busy) ∧
      (s.Admits 0xE7 d a b x → x.d = tile → exec (.accwr d a b r0 r1 r2) s = busy))

/-- R90, R115, R309 to R311, R313, R396: an operation starts when nothing before it in its queue involves its tiles; an
operation in execution completes and leaves the queue. MMA and MMAC add to each pair of their tile the products of a row of A
and a column of B, and MMAZ to +0, once their depth steps are made; the kind of the tile is that of the formats. ACCZ leaves a
tile of +0 pairs. ACCLD loads its rows from its shape, FP32 and S32 elements with the error or the high half that their format
gives; one that fails leaves its tiles as they are. ACCST writes each row, down-converted, to the elements of its shape, where
it is hidden until it is revealed, and sets the sticky bits. The sum of one integer element is exact modulo 2^64.

The model's own choices in it: log entries 34, 45 and 83. -/
def Obligations.MatrixOperations : Prop :=
  ∀ (s : State) (k seq : Nat) (bent : Bent) (o : MatOp), s.Booted → s.pkg.bents.get? k = some bent →
    bent.matq.find? (fun o => o.seq == seq) = some o →
    (s.pkg.matReady k bent o = true → ∃ t : State, exec (.matrixOpStart k seq) s = .next t ∧ t.pkg.mem = s.pkg.mem ∧
      t.pkg.strands = s.pkg.strands ∧
      (t.pkg.bents.get? k).map (·.matq) =
        some (bent.matq.map fun e => if e.seq = seq then { e with started := true } else e)) ∧
    (o.started = true → s.pkg.runsOn bent.cluster bent.ctx = true → o.code = 3 →
      ∃ (t : State) (bent' : Bent), exec (.matrixOpComplete k seq) s = .next t ∧ t.pkg.mem = s.pkg.mem ∧
        t.pkg.strands = s.pkg.strands ∧ t.pkg.bents.get? k = some bent' ∧
        bent'.matq = bent.matq.filter (fun e => e.seq != o.seq) ∧
        (∀ i j, (bent'.tile o.tile).pair i j = 0) ∧ (∀ n, n ≠ o.tile → bent'.tile n = bent.tile n) ∧
        bent'.mFailed = bent.mFailed ∧ bent'.mNV = bent.mNV) ∧
    (∀ q1 q vb va b1, o.started = true → s.pkg.runsOn bent.cluster bent.ctx = true → o.code ≤ 2 → s.pkg.canStep k bent o = true →
      let made := s.pkg.makeSteps k bent o (s.pkg.stepRoom bent.cluster)
      let sa := shapeOf o.recA
      let sb := shapeOf o.recB
      let depth := sb.extent 1
      Pkg.depthSteps o ≤ o.steps + made.2 →
      made.1.fetchAll (made.1.bentAgent k bent) sb ((List.range (64 * depth)).map fun n => [n / depth, n % depth]) = (q1, .ok vb) →
      (o.code ≠ 2 →
        q1.fetchAll (made.1.bentAgent k bent) sa ((List.range (64 * depth)).map fun n => [n % depth, n / depth]) = (q, .ok va)) →
      (o.code = 2 → q = q1 ∧ va = (List.range (64 * depth)).map fun n =>
        (pairDown (bent.tile (chainTile sa)).isInt ((bent.tile (chainTile sa)).pair (n / depth) (chainColumn sa + n % depth))
          sb.fmt 0 0 false).1.bits) →
      q.bents.get? k = some b1 →
      ∃ (t : State) (bent' : Bent), exec (.matrixOpComplete k seq) s = .next t ∧ t.pkg.mem = q.mem ∧
        t.pkg.bents.get? k = some bent' ∧ bent'.matq = b1.matq.filter (fun e => e.seq != o.seq) ∧
        (bent'.tile o.tile).isInt = (intOfCode sb.fmt).isSome ∧
        (∀ i j, i < 64 → j < 64 → (bent'.tile o.tile).pair i j =
          (mmaElement (if o.code = 2 then sb.fmt else sa.fmt) sb.fmt (if o.code = 1 then 0 else (bent.tile o.tile).pair i j)
            (((va.drop (depth * i)).take depth).zip ((vb.drop (depth * j)).take depth))).1) ∧
        (∀ n, n ≠ o.tile → bent'.tile n = b1.tile n) ∧ bent'.mFailed = b1.mFailed) ∧
    (∀ q b1 r, o.started = true → s.pkg.runsOn bent.cluster bent.ctx = true → o.code = 4 →
      let sh := shapeOf o.recA
      s.pkg.fetchAll (s.pkg.bentAgent k bent) sh
        ((List.range (64 * (64 - o.nextRow))).map fun n => [n % 64, o.nextRow + n / 64]) = (q, r) →
      q.bents.get? k = some b1 →
      (∀ vs, r = .ok vs → ∃ (t : State) (bent' : Bent), exec (.matrixOpComplete k seq) s = .next t ∧ t.pkg.mem = q.mem ∧
        t.pkg.bents.get? k = some bent' ∧ bent'.matq = b1.matq.filter (fun e => e.seq != o.seq) ∧
        (bent'.tile o.tile).isInt = (if sh.fmt = 9 then (bent.tile o.tile).isInt else sh.fmt == 7) ∧
        (∀ n v, vs[n]? = some v → n < 64 * (64 - o.nextRow) →
          (bent'.tile o.tile).pair (o.nextRow + n / 64) (n % 64) =
            if sh.fmt = 7 then BitVec.ofInt 64 (signedOf 32 v) else BitVec.ofNat 64 v) ∧
        (∀ i j, i < o.nextRow → j < 64 → (bent'.tile o.tile).pair i j = (bent.tile o.tile).pair i j) ∧
        (∀ n, n ≠ o.tile → bent'.tile n = b1.tile n) ∧ bent'.mFailed = b1.mFailed) ∧
      (∀ va cause reason e0 e1, r = .error (.fail va cause reason e0 e1) →
        ∃ (t : State) (bent' : Bent), exec (.matrixOpComplete k seq) s = .next t ∧ t.pkg.mem = q.mem ∧
          t.pkg.bents.get? k = some bent' ∧ bent'.matq = b1.matq.filter (fun e => e.seq != o.seq) ∧ bent'.tiles = b1.tiles ∧
          bent'.mFailed = true)) ∧
    (o.started = true → s.pkg.runsOn bent.cluster bent.ctx = true → o.code = 5 →
      exec (.matrixOpComplete k seq) s =
        .next { s with pkg := s.pkg.accstRows k bent o (64 - o.nextRow) o.nextRow }) ∧
    (∀ (p q0 q : Pkg) (n i : Nat) (ls : List Loc) (full : Bool),
      let sh := shapeOf o.recA
      let pair (j : Nat) : DWord := (bent.tile o.tile).pair i j
      let out (j : Nat) : FRes × Bool :=
        if sh.fmt = 9 then (⟨(pair j).toNat, 0⟩, false)
        else pairDown (bent.tile o.tile).isInt (pair j) sh.fmt (modeRound o.mode) (modePolicy o.mode) (sh.handle != 0)
      let caps := ((List.range 64).filter fun j => (out j).2).map fun j =>
        Capture.mk (captureAddr sh [j, i]) ((pair j).extractLsb' 0 32).toNat ((pair j).extractLsb' 32 32).toNat
      p.locate (p.bentAgent k bent) sh needWrite ((List.range 64).map fun j => [j, i]) = (q0, .ok ls) →
      q0.capture (p.bentAgent k bent) (fun _ _ => true) sh.handle (rankCaptures q0.fresh caps) = (q, .ok full) →
      let fl := (List.range 64).foldl (fun f j => f ||| (out j).1.flags) (if full then cfListFull.toNat else 0)
      let r := q.updBent k fun x => { x.addStatus fl with
        hidden := x.hidden ++ (ls.zip (List.range 64)).map fun e => (o.tile, (e.1, leBytes sh.esize (out e.2).1.bits)) }
      p.accstRows k bent o (n + 1) i =
        Pkg.accstRows (match bent.truss with
          | some sid => r.updStrand sid fun st => st.mapCf (fun j => j == 0) fun _ old =>
              old ||| (BitVec.ofNat 32 fl &&& (cfCaptured ||| cfListFull))
          | none => r) k bent o n (i + 1)) ∧
    (∀ p : Pkg, p.accstRows k bent o 0 64 = p.matDone k o.seq 0) ∧
    (∀ (p : Pkg) (tile : Nat) (l : Loc) (data : List Byte) (which : Nat → Bool), p.bents.get? k = some bent →
      bent.hidden = [(tile, (l, data))] →
      p.revealTiles k which = if which tile then (p.updBent k fun x => { x with hidden := [] }).writeLoc none false l data else p) ∧
    (∀ (fa fb : Nat) (ta tb : IntTy) (pair : DWord) (l : List (Nat × Nat)),
      intOfCode fa = some ta → intOfCode fb = some tb →
      mmaElement fa fb pair l =
        (BitVec.ofInt 64 (pair.toInt + (l.map fun e => ta.view e.1 * tb.view e.2).foldl (· + ·) 0), 0))

/-! ### Scheduling and launches -/

/-- R48 to R50: the strand that issues next on a core is ready; it has waited 65,536 cycles if any ready strand of the core
has; otherwise no ready strand of the core has a higher effective priority, and none of the same priority issued longer
ago.

R27, R29: every vector strand starts with its registers, flags and temporaries 0, its active lanes the present ones,
those whose item exists, and the reset mode, at the entry of its launch. -/
def Obligations.StrandChoiceAndStart : Prop :=
   (∀ (p : Pkg) (core sid : Nat) (st : Strand), p.chooseStrand core = some (sid, st) →
      let ready (e : Nat × Strand) : Prop := e ∈ p.strands ∧ sidCk e.1 % 1024 = core ∧ p.isReady e.1 e.2 = true
      ready (sid, st) ∧
      ((∃ e, ready e ∧ 65536 ≤ e.2.aging) → 65536 ≤ st.aging) ∧
      ((∀ e, ready e → e.2.aging < 65536) →
        ∀ e, ready e → p.priority e.2 ≤ p.priority st ∧
          (p.priority e.2 = p.priority st → st.lastIssue ≤ e.2.lastIssue))) ∧
   (∀ (launch bent crew sn entry : Nat) (d : BitVec 512) (n j : Nat) (present : BitVec 96), j < 96 →
      let st := Pkg.startStrand launch bent crew sn d false present entry
      (st.reg n j = 0 ∧ st.cfAt j = 0 ∧ st.t = [] ∧ st.sh = [] ∧ st.ops = [] ∧ st.em = present ∧ st.present = present ∧
        st.mode = modeReset ∧ st.clause = BitVec.ofNat 64 entry ∧ st.slot = 0 ∧ st.handler = false ∧ st.frame = none) ∧
      ((Pkg.itemLanes n sn).getLsbD j = decide (96 * sn + j < n)))

/-- R24, R28, R30, R31, R39, R48, R49, R166, R200, R369, R370: what the scheduling events leave.

The model's own choices in it: log entries 25, 39, 40, 74, 77 and 96. -/
def Obligations.Scheduling : Prop :=
  ∀ (s : State) (sid : Nat) (st : Strand), s.Booted → s.pkg.strand? sid = some st →
    (∀ core, s.pkg.chooseStrand core = some (sid, st) → s.pkg.isExhausted (sidCtx sid) = false →
      let p0 := s.pkg.endYields sid (s.pkg.priority st)
      let st1 : Strand := { st with aging := 0, lastIssue := s.pkg.issues + 1, yieldUntil := none }
      ∀ q ws, Pkg.fetchClause (Pkg.setStrand { p0 with issues := s.pkg.issues + 1 } sid st1) sid
          ((Pkg.setStrand { p0 with issues := s.pkg.issues + 1 } sid st1).leaseOf st1) st1.nregs st1.truss
          st1.clause.toNat = (q, .ok ws) →
        Pkg.clauseFailure st1 ws = none → q.strand? sid = some st1 → st.slot = 0 →
        ∃ (t : State) (u : Strand), exec (.clauseIssue core) s = .next t ∧ t.pkg.cur = some sid ∧
          t.pkg.strand? sid = some u ∧ u.words = ws ∧ u.executing = true ∧ u.slot = 1 ∧ u.t = [] ∧ u.aging = 0 ∧
          u.yieldUntil = none ∧ u.clause = st.clause ∧ u.v = st.v ∧ u.cf = st.cf ∧ u.em = st.em ∧ u.mode = st.mode ∧
          t.pkg.mem = q.mem) ∧
    (s.pkg.isReady sid st = true → st.aging ≤ 65536 → sidCluster sid < 144 →
      ∃ t : State, exec (.agingCounterExpiry sid) s = .next t ∧
        t.pkg.strand? sid = some { st with aging := 65536 } ∧
        s.pkg.cycleOf (sidCluster sid) + (65536 - st.aging) ≤ t.pkg.cycleOf (sidCluster sid) ∧
        t.pkg.mem = s.pkg.mem) ∧
    (∀ c, st.yieldUntil = some c →
      ∃ (t : State) (u : Strand), exec (.yieldExpiry sid) s = .next t ∧ t.pkg.strand? sid = some u ∧ u.yieldUntil = none ∧
        u.clause = st.clause ∧ u.v = st.v ∧ (sidCluster sid < 144 → c ≤ t.pkg.cycleOf (sidCluster sid)) ∧
        t.pkg.mem = s.pkg.mem) ∧
    (st.finished = true → st.ended = false → st.ops = [] → s.pkg.isResident sid = true → st.truss = false →
      ∀ c, s.pkg.crew? st.bent st.crew = some c → sid ∈ c.sids →
      (st.atBarrier = none → (∃ k ∈ c.sids, k ≠ sid ∧ ∃ w, s.pkg.strand? k = some w ∧ w.ended = false) →
        ∃ t : State, exec (.strandEnd sid) s = .next t ∧
          t.pkg.strand? sid = some { st with ended := true, failures := [] } ∧ t.pkg.mem = s.pkg.mem ∧
          ∀ w ∈ (t.pkg.core (sidCk sid)).watches, w.2.owner ≠ sid) ∧
      (c.scarfs = [] → (∀ k ∈ c.sids, k ≠ sid → ∀ w, s.pkg.strand? k = some w → w.ended = true) →
        ∃ t : State, exec (.strandEnd sid) s = .next t ∧ (∀ k ∈ c.sids, t.pkg.strand? k = none) ∧
          ((∀ b, s.pkg.bents.get? st.bent = some b → b.hidden = []) → t.pkg.mem = s.pkg.mem))) ∧
    (∀ k tree, s.pkg.trees.get? k = some tree → tree.counter = 0 → s.pkg.served tree.ctx = true →
      ((tree.record = 0 ∨ tree.record.toNat % 32 = 0 ∧
          ∃ q l, s.pkg.translate (s.pkg.enginePort tree.ctx) tree.ctx tree.lease tree.record.toNat needWrite = (q, .ok l) ∧
            q.isBad l = false) →
        ∃ t : State, exec (.treeCompletion k) s = .next t ∧ t.pkg.trees.get? k = none ∧
          (∀ n e, t.pkg.launches.get? n = some e → e.tree ≠ k) ∧
          (∀ id e, t.pkg.entries.get? id = some e → e.tree = some k → e.status ≠ none) ∧
          (tree.record = 0 → t.pkg.mem = s.pkg.mem) ∧
          (tree.record ≠ 0 → ∀ q l, s.pkg.translate (s.pkg.enginePort tree.ctx) tree.ctx tree.lease tree.record.toNat needWrite = (q, .ok l) →
            t.pkg.mem = (q.writeLoc none false l
              (leBytes 8 (tree.status.getD 1) ++ leBytes 8 tree.args.toNat ++ leBytes 8 q.time ++ leBytes 8 1)).mem))) ∧
    (∀ n l cluster cores q, s.pkg.launches.get? n = some l → s.pkg.placeable n l cluster cores = true →
      s.pkg.mapPinned l.ctx (Pkg.pinnedPages l.lease) = (q, true) → q.launches.get? n = some l →
      (∀ c, q.ctxs.get? l.ctx = some c → c.heldRecords = []) →
      ∃ (t : State) (b : Bent), exec (.bentDispatch n cluster cores) s = .next t ∧
        t.pkg.launches.get? n = some { l with nextBent := l.nextBent + 1, liveBents := l.liveBents + 1 } ∧
        t.pkg.bents.get? q.nextId = some b ∧ b.launch = n ∧ b.ctx = l.ctx ∧ b.index = l.nextBent ∧ b.cluster = cluster ∧
        (t.pkg.clusters.get cluster {}).occupant = some l.ctx ∧ t.pkg.mem = q.mem) ∧
    (∀ cluster n, (s.pkg.clusters.get cluster {}).pending = some n → (s.pkg.clusters.get cluster {}).restore = false →
      (∀ k ∈ Pkg.clustersOf (clusterVf cluster), (∀ m, (s.pkg.clusters.get k {}).pending = some m → n ≤ m) ∧
        ((s.pkg.clusters.get cluster {}).halted = true → (s.pkg.clusters.get k {}).restore = true → cluster ≤ k)) →
      (∀ at', (s.pkg.vfs.get (clusterVf cluster) {}).lastStart = some at' → at' + 16 ≤ s.pkg.time) →
      ∃ t : State, exec (.clusterStart cluster) s = .next t ∧ (t.pkg.clusters.get cluster {}).started = true ∧
        (t.pkg.clusters.get cluster {}).halted = false ∧ (t.pkg.clusters.get cluster {}).pending = none ∧
        t.pkg.mem = s.pkg.mem ∧ t.pkg.strands = s.pkg.strands) ∧
    (∀ ctx c e rest, s.pkg.ctxs.get? ctx = some c → c.spawnQueue = e :: rest → s.pkg.served ctx = true →
      ∃ (t : State) (l : Launch), exec (.childAccept ctx) s = .next t ∧ t.pkg.launches.get? s.pkg.nextId = some l ∧
        l.ctx = ctx ∧ l.tree = e.tree ∧ l.desc = e.desc ∧ l.nextBent = 0 ∧ l.trig = 0 ∧
        (t.pkg.ctxs.get? ctx).map (·.spawnQueue) = some rest ∧ t.pkg.mem = s.pkg.mem ∧ t.pkg.strands = s.pkg.strands)

/-- R46, R51, R65, R66, R106, R116, R241, R349, R350, R353, R355: a strand parked at an instruction goes on when what it
waits for has come: it executes the instruction again, or goes on after it with the instruction's last effects. -/
def Obligations.ParkEnds : Prop :=
  ∀ (s : State) (sid : Nat) (st : Strand) (k : Park), s.Booted → s.pkg.strand? sid = some st → st.park = some k →
    s.pkg.isResident sid = true →
    let again := s.withStrand sid { st with park := none }
    let acquired (p : Pkg) : Pkg := p.discardL1 (sidCore sid)
    let on (p : Pkg) : State :=
      { s with pkg := p.setStrand sid (Pkg.passInstr { st with park := none } (p.cycleOf (sidCluster sid))) }
    (∀ need, k = .presence need → (∀ e ∈ need, s.pkg.isPresentAt e.1 e.2 = true) →
      exec (.presenceResume sid) s = .next again) ∧
    (k = .table → s.pkg.canEnter sid st = true → exec (.ottEntryRetry sid) s = .next again) ∧
    (k = .spawnQueue → (∀ c, s.pkg.ctxs.get? (sidCtx sid) = some c → c.spawnQueue.length < 256) →
      exec (.spawnQueueResume sid) s = .next again) ∧
    (∀ n, k = .actSlot n → s.pkg.slotSelected sid n = false → exec (.actldParkEnd sid) s = .next again) ∧
    (∀ needs, k = .dovetail needs → (∀ e ∈ needs, ∀ j ∈ e.2, s.pkg.readDv st e.1 j ≠ .wait) →
      exec (.dovetailReadResume sid) s = .next again) ∧
    (∀ c, k = .publish5 c → s.pkg.bufferFull st c = false →
      exec (.dvpubParkResume sid) s = .next again) ∧
    (∀ l, k = .waitdep → s.pkg.launchOf st = some l → s.pkg.depsMet l = true →
      exec (.waitdepResume sid) s = .next (on (acquired s.pkg))) ∧
    (∀ l t, k = .waitseq l t true → exec (.waitseqResume sid) s = .next (on (acquired s.pkg))) ∧
    (∀ l t q v, k = .waitseq l t false → s.pkg.isBad l = false → s.pkg.readHome l 8 = (q, v) → q.strand? sid = some st →
      t.toNat ≤ leNat v → exec (.waitseqResume sid) s = .next (on (acquired q))) ∧
    (∀ n w, k = .lcwait n → s.pkg.ownWatch sid n = some w → w.fired = true →
      exec (.lcwaitResume sid) s = .next (on (acquired (s.pkg.updCore (sidCk sid) fun c =>
        { c with watches := c.watches.erase n })))) ∧
    (∀ mask reg q r, k = .pollq mask reg →
      s.pkg.firstRing (sidCtx sid) mask ((List.range 64).map fun n => (st.pollLast + 1 + n) % 64) = (q, some r) →
      q.strand? sid = some st →
      exec (.pollqResume sid) s = .next { s with
        pkg := (acquired q).setStrand sid (Pkg.passInstr
          { st.put reg st.isPresent (fun _ => BitVec.ofNat 32 r) with pollLast := r, park := none }
          ((acquired q).cycleOf (sidCluster sid))) })

/-! ### The memory system -/

/-- R95, R110, R113, R142, R150, R157: what the events of the memory system leave. A walk sets the accessed bit of its leaf,
and the dirty bit for a write, and nothing else in memory, and the TLB then holds the page; a mapped page ends the parks that
waited for it; a completed invalidation has removed the translations that it names and no others, and what waits at a word
of the context walks again; a legal region setting is in force; a swap flips the selector and adds 1 to the publication count;
a reclaimed frame is free and unpinned, and an enabled codebook region has pages of its own function alone (R412, R416).

The model's own choices in it: log entries 32, 48, 67, 80 and 111. -/
def Obligations.MemorySystem : Prop :=
  ∀ (s : State), s.Booted →
    (∀ ctx va forWrite c addr e l, s.pkg.ctxs.get? ctx = some c → s.pkg.walkBad (crRoot c.record) va = false →
      let q := s.pkg.readWalk (crRoot c.record) va
      walkTree q (crRoot c.record) va = .leaf addr e → isAliasPa addr = false → isDevicePa addr = false →
      s.pkg.mem.Canonical →
      q.useLeaf ctx c.vf va e (if forWrite then needWrite else needRead) = .ok l →
      ∃ t : State, exec (.pageWalk ctx va forWrite) s = .next t ∧
        leNat (t.pkg.mem.readBytes addr 8) = e ||| (if forWrite then 0x60 else 0x40) ∧
        (∀ a, (a < addr ∨ addr + 8 ≤ a) → noRace s.pkg addr 8 a → t.pkg.mem.read a = s.pkg.mem.read a) ∧
        ((∀ a ∈ walkReads s.pkg (crRoot c.record) va, isAliasPa a = false) → q = s.pkg) ∧
        ∃ x ∈ t.pkg.tlb, x.home = .die (c.vf / 2) ∧ x.ctx = ctx ∧ x.vpn ≤ va / 65536 ∧ va / 65536 < x.vpn + x.span) ∧
    (∀ ctx page fs sid st lane va fetch q, s.pkg.strand? sid = some st → sidCtx sid = ctx →
      st.park = some (.elastic lane va fetch) →
      va / 65536 = page → s.pkg.mapPage ctx (page * 65536) fs = (q, true) →
      ∃ (t : State) (u : Strand), exec (.elasticFaultResolve ctx page (some fs)) s = .next t ∧
        ((∀ k, s.pkg.savedAt ctx k = true → s.pkg.bentsAt ctx k = []) → t.pkg.mem = q.mem) ∧
        t.pkg.strand? sid = some u ∧ u.park = none ∧ u.clause = st.clause ∧ u.slot = st.slot ∧ u.v = st.v ∧ u.em = st.em) ∧
    (∀ req r, s.pkg.invalidations.get? req = some r → s.pkg.translationsInUse r.ctx = false →
      ∃ t : State, exec (.invalidationComplete req) s = .next t ∧ t.pkg.invalidations.get? req = none ∧
        t.pkg.mem = s.pkg.mem ∧
        (∀ sid st, s.pkg.strand? sid = some st →
          (∀ l v, sidCtx sid = r.ctx → st.park = some (.waitseq l v false) →
            t.pkg.strand? sid = some { st with park := none }) ∧
          ((sidCtx sid ≠ r.ctx ∨ ∀ l v, st.park ≠ some (.waitseq l v false)) → t.pkg.strand? sid = some st)) ∧
        ∀ x, x ∈ t.pkg.tlb ↔ x ∈ s.pkg.tlb ∧
          (x.ctx ≠ r.ctx ∨ r.pages ≠ 0 ∧ (x.vpn + x.span ≤ r.first ∨ r.first + r.pages ≤ x.vpn))) ∧
    (∀ die index value, die < 4 → index < 64 → s.pkg.regionLegal (die * 64 + index) value = true →
      ∃ t : State, exec (.codebookRegionSet die index value) s = .next t ∧
        t.pkg.regions.get? (die * 64 + index) = some (value &&& Pkg.regionMask) ∧ t.pkg.strands = s.pkg.strands ∧
        ∀ k, k ≠ die * 64 + index → t.pkg.regions.get? k = s.pkg.regions.get? k) ∧
    (∀ ctx index c sid o st, s.pkg.ctxs.get? ctx = some c → isAliasPa (c.twinPa + 64 * index) = false →
      leastBy (fun e : Nat × Op => e.2.id) (s.pkg.pendingSwaps ctx index) = some (sid, o) →
      (∀ e ∈ s.pkg.entries, e.2.ctx = ctx → e.2.accepted < o.id →
        e.2.expect = true → e.2.srcTwins.contains index = true → (s.pkg.entryOver e.1 e.2).isSome = true) →
      (∀ e ∈ s.pkg.entries, e.2.accepted < o.id → e.2.destTwins.contains (ctx, index) = true →
        (s.pkg.entryOver e.1 e.2).isSome = true) →
      s.pkg.strand? sid = some st → (∀ e ∈ Pkg.accessOps st, o.id ≤ e.id) → s.pkg.mem.Canonical →
      let d := s.pkg.twinDesc ctx index
      ∃ t : State, exec (.twinSwap ctx index) s = .next t ∧
        let d' := leNat (t.pkg.mem.readBytes (c.twinPa + 64 * index) 64)
        twSelector d' = !twSelector d ∧ twCount d' = (twCount d + 1) % 2 ^ 32 ∧ twBase d' = twBase d ∧
        twLength d' = twLength d ∧ twDisp d' = twDisp d ∧ twEnabled d' = twEnabled d ∧
        (∀ a, (a < c.twinPa + 64 * index ∨ c.twinPa + 64 * index + 64 ≤ a) → noRace s.pkg (c.twinPa + 64 * index) 64 a →
          t.pkg.mem.read a = s.pkg.mem.read a) ∧
        (t.pkg.strand? sid).map (·.ops) = some (st.ops.filter fun x => x.id != o.id)) ∧
    (∀ f, s.pkg.frameInFlight f = true → exec (.frameReclaim f) s = .next s) ∧
    (∀ f, s.pkg.framePinned f = false → s.pkg.frameOfContext f = false → s.pkg.frameInFlight f = false →
      ∃ t : State, exec (.frameReclaim f) s = .next t ∧ t.pkg.frameKeys.get? f = none ∧
        (∀ e ∈ t.pkg.pinned, e.1 / 512 ≠ f) ∧ (∀ g, g ≠ f → t.pkg.frameKeys.get? g = s.pkg.frameKeys.get? g) ∧
        (∀ k r, t.pkg.regions.get? k = some r → rgEnabled r = true →
          ∀ x ∈ Pkg.regionRanges r, t.pkg.ownedRange (rgOwner r) x.1 x.2 = true) ∧
        ((∀ e ∈ s.pkg.aliasLines, e.2.dirty = false) → t.pkg.mem = s.pkg.mem) ∧ t.pkg.strands = s.pkg.strands)

/-! ### Chains and the fabric -/

/-- R106, R108, R112, R115, R118, R320, R322, R346, R347, R348: what the engines' events leave. A posted entry is accepted in
order. A copy delivers at most 128 bytes. In a scratchpad its destination then holds them, and exactly those lines of it that
were absent for the copy and all of whose bytes it has delivered become present. In global memory they are on a twin's
unselected side at once, and elsewhere no program finds them before the sequence word tells of them. A transfer sends at most
one packet of at most 4,096 bytes that crosses no 4 KiB boundary of its target; an entry that is over leaves its engine, and the
chain's completed count follows, also where the engine cannot read the descriptor and stops its service.

The model's own choices in it: log entries 26, 30 and 31. -/
def Obligations.EngineEvents : Prop :=
  ∀ (s : State), s.Booted →
    (∀ key c p1 d p2 w, s.pkg.chains.get? key = some c → c.halted = false → c.look = true → s.pkg.ctxLive c.ctx = true →
      s.pkg.isExhausted c.ctx = false →
      s.pkg.bookRead c.ctx c.desc.toNat 64 = (p1, some d) → cdUnserved d c.fabric = false →
      p1.bookRead c.ctx (cdSlot d c.next) 64 = (p2, some w) → bits w 103 96 = 1 → bits w 63 0 = c.next →
      p2.released ((c.posted.get? c.next).map (·.sid)) (((c.posted.get? c.next).map (·.after)).getD []) = true →
      ∃ (t : State) (e : Entry), exec (.engineEntryAccept key) s = .next t ∧
        t.pkg.chains.get? key =
          some { c with next := c.next + 1, posted := c.posted.erase c.next, seen := BitVec.ofNat 512 d } ∧
        t.pkg.entries.get? (((c.posted.get? c.next).map (·.id)).getD p2.nextId) = some e ∧ e.ctx = c.ctx ∧
        e.chain = some (key, c.next) ∧ e.kind = bits w 115 112 ∧ e.source = BitVec.ofNat 64 (bits w 319 256) ∧
        e.dest = BitVec.ofNat 64 (bits w 383 320) ∧ e.length = bits w 223 192 ∧ e.done = 0 ∧ t.pkg.mem = p2.mem) ∧
    (∀ ctx desc c ch, s.pkg.ctxs.get? ctx = some c → BitVec.ofNat 64 desc ∈ c.watched → s.pkg.ctxLive ctx = true →
      let key := Pkg.chainKey ctx desc
      s.pkg.chains.get? key = some ch → ch.halted = false → ch.next ≠ 0 →
      ∃ t : State, exec (.chainWatchPoll ctx desc) s = .next t ∧
        exec (.engineEntryAccept key) { s with pkg := s.pkg.lookAt key true } = .next t) ∧
    (∀ id e q data, s.pkg.entries.get? id = some e → e.kind = 1 → s.pkg.entryActive e = true →
      let e' := s.pkg.chooseSides e
      let n := min 128 (e.length - e.done)
      Pkg.fetchSource { s.pkg with entries := s.pkg.entries.update id fun _ => e' } id e' n = (q, .ok data) →
      q.entries.get? id = some e' →
      (∀ l, e.destAt = some l → q.homeReady l = true →
        ∃ t : State, exec (.copyLineDelivered id) s = .next t ∧ t.pkg.entries.get? id = some { e' with done := e.done + n } ∧
          (padHeld q l → t.pkg.mem = q.mem ∧ (t.pkg.readHome (l.plus e.done) data.length).2 = data) ∧
          (padHeld q l → ∀ k a, (k, a) ∈ t.pkg.absentOf l ↔
            (k, a) ∈ q.absentOf l ∧ ¬ (a = id ∧ min ((k + 1) * 128) (l.offset + e.length) ≤ l.offset + (e.done + n)) ∧
              ¬ (a = 0 ∧ (k, id) ∈ q.absentOf l ∧ l.offset ≤ k * 128 ∧ (k + 1) * 128 ≤ l.offset + (e.done + n)))) ∧
      (∀ r ls, e.destAt = none →
        q.pieceLocs e' needWrite (Pkg.pieces (e.dest.toNat % 2 ^ 55 + e.done) n) = (r, .ok ls) → r.entries = q.entries →
        ∃ t : State, exec (.copyLineDelivered id) s = .next t ∧ t.pkg.entries.get? id = some { e' with done := e.done + n } ∧
          ((∀ x ∈ ls, ∃ pa, x.1 = .hbm pa) → t.pkg.mem = r.mem) ∧
          (∀ key seq c pa, e.chain = some (key, seq) → r.chains.get? key = some c → ls = [(.hbm pa, n)] →
            t.pkg.chains.get? key =
              some { c with hidden := c.hidden ++ [(seq, e.dest.toNat % 2 ^ 55 + e.done, .hbm pa, data.take n)] }) ∧
          (∀ key seq c pa pb m k, e.chain = some (key, seq) → r.chains.get? key = some c → ls = [(.hbm pa, m), (.hbm pb, k)] →
            t.pkg.chains.get? key =
              some { c with hidden := c.hidden ++ [(seq, e.dest.toNat % 2 ^ 55 + e.done, .hbm pa, data.take m),
                (seq, e.dest.toNat % 2 ^ 55 + e.done + m, .hbm pb, (data.drop m).take k)] }) ∧
          (∀ c i pa, ls = [(.twin c i pa, n)] → isAliasPa (r.shadowPa c i pa) = false → r.mem.Canonical →
            t.pkg.mem.readBytes (r.shadowPa c i pa) (data.take n).length = data.take n))) ∧
    (∀ (p : Pkg) key c seq va l data upto, p.chains.get? key = some c → c.hidden = [(seq, va, l, data)] →
      p.reveal key upto = if seq ≤ upto then
          ({ p with chains := p.chains.update key fun x => { x with hidden := [] } } : Pkg).writeLoc none true l data
        else p) ∧
    (∀ id e peer plane q data, s.pkg.entries.get? id = some e → e.kind ≠ 1 → s.pkg.entryActive e = true →
      s.pkg.gangEntry e.ctx e.peer = some peer → s.pkg.transferPlane peer.1 e.acks.length = some plane →
      let e' := s.pkg.chooseSides e
      let n := min (4096 - (e.dest.toNat + e.done) % 4096) (e.length - e.done)
      Pkg.fetchSource { s.pkg with entries := s.pkg.entries.update id fun _ => e' } id e' n = (q, .ok data) →
      q.entries.get? id = some e' →
      ∃ (t : State) (k : Packet), exec (.fabricPacketSend id) s = .next t ∧ t.pkg.outbox = q.outbox ++ [k] ∧
        k.payload = data ∧ t.pkg.mem = q.mem ∧
        t.pkg.entries.get? id = some { e' with done := e.done + n, acks := e'.acks ++ [(n, false)] } ∧
        k.header = Head.flit { q.requestHead e.ctx peer (if e.kind = 2 then 0x01 else 0x02) (Pkg.engineTag q.nextId) n
            (e.dest.toNat + e.done) (if e.kind = 2 then 0 else e.format + 16 * e.reduction) with
          counted := e.hasCounter
          counter := if e.hasCounter then e.counter.toNat else 0
          last := e.done + n == e.length } ∧
        ∃ x ∈ t.pkg.sent, x.tag = Pkg.engineTag q.nextId ∧ x.packet = k ∧ x.plane = plane ∧ x.entry = some (id, e.acks.length)) ∧
    (∀ id e key n c status q d, s.pkg.entries.get? id = some e → e.chain = some (key, n) → s.pkg.stoppedAll e.vf = false →
      s.pkg.entryOver id e = some status → s.pkg.chains.get? key = some c → n = c.completed + 1 → c.finished = [] →
      Pkg.bookRead { s.pkg.abandonLines id (status == 2) with entries := s.pkg.entries.erase id } c.ctx c.desc.toNat 64 = (q, d) →
      ∃ (t : State) (c' : Chain), exec (.entryComplete id) s = .next t ∧ t.pkg.entries.get? id = none ∧
        t.pkg.chains.get? key = some c' ∧ c'.completed = n ∧ c'.finished = [] ∧ c'.next = c.next ∧
        c'.halted = (c.halted || d.isNone))

/-- What a request does at the package whose bytes it reaches, once its checks have passed: the write, which reaches the selected
side of a twin for a strand's RST and the other for an engine's, the reduction, the read or the atomic, then the addition to its
landing counter, and its reply (R112, R331, R332, R352). -/
def performedAt (q : Pkg) (k : Packet) (l : Loc) (m : Option Loc) : Pkg :=
  let h := headOf k
  let q := q.dropLoc (q.issuerCore h) l (Pkg.requestBytes h)
  let counted (q : Pkg) : Pkg := match m with | some c => ((q.keepImage l).addCounter c h.bytes).keepImage c | none => q.keepImage l
  match h.op with
  | 0x01 => (counted (q.writeLoc none (h.tag < 2 ^ 31) l (payloadOf k))).reply h 0x0C [] 0
  | 0x02 =>
    (counted (q.doReduce l (bits h.operand 3 0) (bits h.operand 7 4) (payloadOf k)
      ((payloadOf k).length / elemBytes (bits h.operand 3 0)))).reply h 0x0C [] 0
  | 0x03 => counted ((q.readHome l h.bytes).1.reply h 0x08 (q.readHome l h.bytes).2 0)
  | 0x04 =>
    let n := if h.operand.testBit 6 then 8 else 4
    let old := q.homeBytes l n
    counted ((q.writeLoc none false l
      (leBytes n (Pkg.atomicValue (bits h.operand 5 0) (8 * n) (leNat old) (bits h.operand 127 64)))).reply h 0x09 old 0)
  | _ =>
    let old := q.homeBytes l 8
    counted ((if leNat old = bits h.operand 63 0 then q.writeLoc none false l (leBytes 8 (bits h.operand 127 64))
      else (q.readHome l 8).1.registerLoc none l 8).reply h 0x09 old 0)

/-- R112, R121, R255, R322, R324, R329, R331, R332, R337, R352: a request whose generation is performed, and whose checks pass,
has its effect at the target: the write, which reaches the selected side of a twin for a strand's RST and the other for an
engine's, the reduction, the read or the atomic, then the addition to its landing counter, and its reply. Of the words of it the
L1 of a strand of this package that has sent it keeps no copy. One
whose generation is stale, or that is early, or whose checks fail, gets the negative reply for that, and no effect; an
unsound packet is dropped and counted.

R325, R337: the class of a packet by its generation: the function's own generation is performed; the one before it while
the drain window is open, and is stale after it; older ones are stale; newer ones are told to retry.

The model's own choices in it: log entries 14, 27, 29, 57 and 72. -/
def Obligations.RequestsAndGenerations : Prop :=
   (∀ (s : State) (k : Packet) (i : Instr) (code : Nat), s.Booted →
      (i, code) ∈ [(Instr.write k, 0x01), (.reduce k, 0x02), (.read k, 0x03), (.atomic k, 0x04), (.cas k, 0x05)] →
      let h := headOf k
      (soundPacket k = false → exec i s = .next { s with pkg := { s.pkg with linkErrors := s.pkg.linkErrors + 1 } }) ∧
      (soundPacket k = true → h.op = code →
        let p := s.pkg
        (p.ageOf h.vf h.gen = .stale → exec i s = .next { s with pkg := p.reply h 0x0E [] 0 }) ∧
        (p.ageOf h.vf h.gen = .retry → exec i s = .next { s with pkg := p.reply h 0x0D [] 0 }) ∧
        (p.ageOf h.vf h.gen = .perform →
          let held (q : Pkg) : Prop :=
            ∃ t : State, exec i s = .next t ∧
              if (q.vfs.get h.vf {}).faultHold.length < 64 then
                (t.pkg.vfs.get h.vf {}).faultHold = (q.vfs.get h.vf {}).faultHold ++ [k] ∧ t.pkg.outbox = q.outbox
              else t = { s with pkg := q.reply h 0x0D [] 0 }
          let behind := Pkg.behindHeld h (p.vfs.get h.vf {}).faultHold
          (behind = true → held p) ∧
          (∀ q va, behind = false → p.checkRequest h = (q, .elastic va) → held q) ∧
          (∀ q c, behind = false → p.checkRequest h = (q, .fail c) → exec i s = .next { s with pkg := q.reply h 0x0F [] c }) ∧
          (∀ q l m, behind = false → p.checkRequest h = (q, .ok l m) →
            exec i s = .next { s with pkg := performedAt q k l m })))) ∧
   (∀ (p : Pkg) (vf gen : Nat), gen < 256 → (p.vfs.get vf {}).gen < 256 →
      let v := p.vfs.get vf {}
      (gen = v.gen → p.ageOf vf gen = .perform) ∧
      ((gen + 1) % 256 = v.gen → p.ageOf vf gen =
        match v.drainEnd with | some t => if p.time < t then .perform else .stale | none => .stale) ∧
      (∀ n, 2 ≤ n → n ≤ 128 → (gen + n) % 256 = v.gen → p.ageOf vf gen = .stale) ∧
      (∀ n, 1 ≤ n → n ≤ 127 → (v.gen + n) % 256 = gen → p.ageOf vf gen = .retry))

/-- R255, R256, R324, R329, R331, R334, R338 to R340: what the other packets, and the losses, leave. A held request that can be
performed has its effect and gets its reply as one that arrives does, and leaves the hold; a PTP message gets a timestamp on its
way in and on its way out.

The model's own choices in it: log entries 26 and 30. -/
def Obligations.Replies : Prop :=
  ∀ (s : State) (k : Packet) (x : Sent), s.Booted → soundPacket k = true →
    let h := headOf k
    let fresh := s.pkg.sent.find? (fun y => y.tag == h.tag) = some x ∧ s.pkg.ageOf h.vf h.gen ≠ .stale
    let rest := s.pkg.sent.filter fun y => y.tag != x.tag
    let gone (p : Pkg) : Prop :=
      p.sent.map (·.tag) = rest.map (·.tag) ∧ ((∀ y ∈ rest, y.queued = false) → p.sent = rest)
    let mine := x.sid = none
    (∀ i code, (i, code) ∈ [(Instr.readResponse k, 0x08), (.atomicResponse k, 0x09), (.landingAck k, 0x0C)] →
      h.op = code → fresh →
      (∀ e m c, mine → x.entry = some (e, m) → s.pkg.entries.get? e = some c →
        ∃ (t : State) (c' : Entry), exec i s = .next t ∧ gone t.pkg ∧ t.pkg.mem = s.pkg.mem ∧
          t.pkg.entries.get? e = some c' ∧ c'.status = c.status ∧ c'.acks.length = c.acks.length ∧
          (∀ n a, c.acks[n]? = some a → c'.acks[n]? = some (if n = m then (a.1, true) else a))) ∧
      (∀ sid st o w l, x.sid = some sid → s.pkg.strand? sid = some st → st.ops = [o] → o.kind = .remote w [l] →
        l.tag = x.tag → l.answered = false → l.failed = none → s.pkg.savedAt (sidCtx sid) (sidCluster sid) = false →
        ∃ t : State, exec i s = .next t ∧ gone t.pkg ∧ t.pkg.mem = s.pkg.mem ∧
          t.pkg.strand? sid = some { (if w = 7 then st else st.putLane l.reg l.lane (extendLoad w (payloadOf k))) with ops := [] })) ∧
    (h.op = 0x0D → fresh → ∃ t : State, exec (.nackRetry k) s = .next t ∧
      ∃ y ∈ t.pkg.sent, y = { x with resend := true, time := s.pkg.time }) ∧
    (∀ i op status cause, (i, op, status, cause) ∈ [(Instr.nackStale k, 0x0E, 7, 0), (.nackFail k, 0x0F, 8, bits h.operand 7 0)] →
      h.op = op → fresh → (op = 0x0F → bits h.operand 7 0 ≠ 0xFE ∧ bits h.operand 7 0 ≠ 0xFD) →
      ∀ e m c, mine → x.entry = some (e, m) → s.pkg.entries.get? e = some c → c.status = none →
        ∃ t : State, exec i s = .next t ∧ gone t.pkg ∧ t.pkg.mem = s.pkg.mem ∧
          t.pkg.entries.get? e = some { c with status := some status, cause := cause }) ∧
    (∀ tag y plane, s.pkg.sent.find? (fun y => y.tag == tag && y.resend) = some y → y.time + 1000 ≤ s.pkg.time →
      s.pkg.planeNow { y with resend := false } = some plane →
      (headOf y.packet).gen % 256 = (s.pkg.vfs.get (headOf y.packet).vf {}).gen % 256 →
      ∃ t : State, exec (.retryResend tag) s = .next t ∧ t.pkg.outbox = s.pkg.outbox ++ [y.packet] ∧
        ∃ z ∈ t.pkg.sent, z = { y with resend := false, time := s.pkg.time, plane := plane }) ∧
    (∀ tag e m c, s.pkg.sent.find? (fun y => y.tag == tag) = some x → x.queued = false → s.pkg.planeLost x = true →
      x.time + 20000 ≤ s.pkg.time → mine → x.entry = some (e, m) → s.pkg.entries.get? e = some c → c.status = none →
      ∃ t : State, exec (.remoteTimeout tag) s = .next t ∧ gone t.pkg ∧
        t.pkg.entries.get? e = some { c with status := some 9, cause := 0 }) ∧
    (∀ port, port < 48 → port ∉ s.pkg.planesDown → ∃ t : State, exec (.linkDown port) s = .next t ∧
      t.pkg.planesDown = s.pkg.planesDown ++ [port] ∧ t.pkg.planeFailures.get? port = some s.pkg.time ∧
      t.pkg.sent = s.pkg.sent ∧ t.pkg.mem = s.pkg.mem) ∧
    (∀ port, ∃ t : State, exec (.planeRetrain port) s = .next t ∧
      t.pkg.planesDown = s.pkg.planesDown.filter (fun n => n != port) ∧ t.pkg.mem = s.pkg.mem) ∧
    (∀ vf j q r, let hold := (s.pkg.vfs.get vf {}).faultHold
      s.pkg.heldReady [] hold = some j → (∀ g, r ≠ .elastic g) →
      (s.pkg.updVf vf fun v => { v with faultHold := hold.erase j }).checkRequest (headOf j) = (q, r) →
      exec (.faultHoldPerform vf) s = .next { s with
        pkg := match r with
          | .ok l m => performedAt q j l m
          | .fail c => q.reply (headOf j) 0x0F [] c
          | .elastic _ => q }) ∧
    (∀ vf j rest, (s.pkg.vfs.get vf {}).faultHold = j :: rest → (∀ g, (s.pkg.checkRequest (headOf j)).2 ≠ .elastic g) →
      s.pkg.heldReady [] (j :: rest) = some j) ∧
    (h.op = 0x10 → h.channel = 25 → ∀ port stamp, port < 48 → s.pkg.time ≤ stamp + 4 → stamp ≤ s.pkg.time + 4 →
      exec (.ptpEvent port stamp k) s = .next { s with
        pkg := { s.pkg with
          ptpStamps := s.pkg.ptpStamps ++ [(port, stamp)]
          outbox := if h.source = s.pkg.yardPort then s.pkg.outbox ++ [k] else s.pkg.outbox } }) ∧
    (h.op = 0x12 → h.channel = 24 → exec (.managementMessage k) s =
      .next { s with pkg := { s.pkg with mgmtInbox := s.pkg.mgmtInbox ++ [k] } })

/-! ### Raisings, the framer and the time base -/

/-- R324, R382, R391: which entries a package accepts on channel 25, each in a packet of its own, and what it does with the
others. An unsound packet is dropped and counted; a repeat is dropped; one out of sequence asks for republication; a refused one
holds every partition that it names; an accepted one joins the table, and releases at its time the partitions that a refusal
holds; a kind-2 entry whose kind-1 entry is closed already is discarded.

The model's own choices in it: log entries 18, 19 and 20. -/
def Obligations.RaisingTable : Prop :=
  ∀ (s : State) (k : Packet), s.Booted →
    (soundPacket k = false → exec (.raisingTable k) s =
      .next { s with pkg := { s.pkg with linkErrors := s.pkg.linkErrors + 1 } }) ∧
    (soundPacket k = true → (headOf k).op = 0x11 → (headOf k).channel = 25 →
    let e := Pkg.raisingOf k
    let p := s.pkg
    let want := (p.lastRaisingSeq + 1) % 256
    let repeated : Prop := ∃ x ∈ p.raisings, rtSequence x = rtSequence e ∧ rtTime x = rtTime e
    let closed (v : Nat) : Prop := (p.vfs.get v {}).outClosed = true ∧ p.openTime v = none
    (repeated → exec (.raisingTable k) s = .next s) ∧
    (¬ repeated → rtSequence e ≠ want →
      exec (.raisingTable k) s = .next { s with pkg := { p with msgs := p.msgs ++ [.republish want] } }) ∧
    (¬ repeated → rtSequence e = want → rtKind e = 2 → (∃ v ∈ rtFunctions e, closed v) →
      ∃ t : State, exec (.raisingTable k) s = .next t ∧ t.pkg.raisings = p.raisings ∧ t.pkg.lastRaisingSeq = want ∧
        t.pkg.mem = p.mem ∧ t.pkg.strands = p.strands ∧ t.pkg.clusters = p.clusters ∧
        ∀ v ∈ rtFunctions e, (t.pkg.vfs.get v {}).outClosed = false) ∧
    (¬ repeated → rtSequence e = want → Pkg.refusesEntry { p with lastRaisingSeq := want } e = false →
      (rtKind e = 2 → ∀ v ∈ rtFunctions e, ¬ closed v) →
      ∃ t : State, exec (.raisingTable k) s = .next t ∧ t.pkg.raisings = p.raisings ++ [e] ∧ t.pkg.lastRaisingSeq = want ∧
        t.pkg.mem = p.mem ∧ t.pkg.strands = p.strands ∧ t.pkg.clusters = p.clusters ∧
        ∀ v ∈ rtFunctions e, (t.pkg.vfs.get v {}).heldRefused = (p.vfs.get v {}).heldRefused ∧
          (t.pkg.vfs.get v {}).released = (p.vfs.get v {}).heldRefused) ∧
    (¬ repeated → rtSequence e = want → (rtKind e = 2 → ∀ v ∈ rtFunctions e, ¬ closed v) →
      Pkg.refusesEntry { p with lastRaisingSeq := want } e = true →
      ∀ v, rtFunctions e = [v] →
      ∃ t : State, exec (.raisingTable k) s = .next t ∧ (t.pkg.vfs.get v {}).heldRefused = true ∧
        (t.pkg.vfs.get v {}).released = false ∧
        ((p.vfs.get v {}).stopped = true → t.pkg.mem = p.mem ∧ t.pkg.strands = p.strands ∧ t.pkg.clusters = p.clusters) ∧
        ((p.vfs.get v {}).stopped = false → (t.pkg.vfs.get v {}).held = p.presentOf v ∧
          (t.pkg.vfs.get v {}).resident = none ∧ (t.pkg.vfs.get v {}).incoming = none)) ∧
    ((p.refusesEntry e = true ↔
      rtKind e = 3 ∨ 256 ≤ p.raisings.length ∨ rtTime e < p.time + (if rtKind e = 0 then 50000 else 500) ∨
      (rtKind e = 0 ∧ ∃ x ∈ p.raisings, rtKind x = 0 ∧ (∃ v ∈ rtFunctions e, rtNames x v = true) ∧
        rtTime e ≤ rtTime x + 20000 ∧ rtTime x ≤ rtTime e + 20000) ∨
      (rtKind e = 2 ∧ ∃ v ∈ rtFunctions e, ∀ t, p.openTime v = some t → rtTime e < t + 3000))))

/-- R337, R384 to R386, R391, R392, R395: what acting on an entry leaves of a partition that it names, which is not stopped, and
which no hold keeps from acting: nothing of it is resident; with its clusters empty, as they are once it has halted and been
saved, it has the entry's generation, its drain window runs, and each cluster awaits its restore. A stopped partition, and one
held for a refusal that no accepted entry has ended, takes the generation alone.

R385, R387 to R390: what the halt and the save of a cluster leave: the section and the context header written to the save area,
the section marked valid, the strands at their instruction boundary with their state, the cluster empty. A strand's cf, its
temporaries, its dovetail defaults and its boundary buffers lie in its record at the offsets of R389, and what is written to the
area is read back from it.

R24, R337, R359, R386, R392: a cluster is restored from the area after the window and after every lower one, with the stagger of
cluster starts; the end of a drain window, and the run limit of an out-of-turn launch.

The model's own choices in it: log entries 14, 15, 16, 17, 18 and 25. -/
def Obligations.RaisingsAndRestores : Prop :=
   (∀ (s : State) (e : BitVec 256) (vf : Nat), s.Booted → rtFunctions e = [vf] →
      s.pkg.raisings.find? (fun x => rtSequence x == rtSequence e && rtKind x == rtKind e) = some e →
      rtTime e ≤ s.pkg.time → (∀ x ∈ s.pkg.raisings, rtTime e ≤ rtTime x) →
      let v := s.pkg.vfs.get vf {}
      let idle := v.stopped = true ∨ v.heldRefused = true ∧ v.released = false
      let alone (i : Instr) (out : Option (Nat × Nat × Nat × Nat)) : Prop := ∃ t : State, exec i s = .next t ∧
        (t.pkg.vfs.get vf {}).openOut = out ∧
        (t.pkg.vfs.get vf {}).gen = rtGeneration e vf ∧ (t.pkg.vfs.get vf {}).drainEnd = some (rtTime e + v.drainNs) ∧
        t.pkg.mem = s.pkg.mem ∧ t.pkg.strands = s.pkg.strands ∧ t.pkg.clusters = s.pkg.clusters
      let opened := some (rtSequence e, (v.resident.or (v.incoming.or v.held)).getD 127, rtFootprint e, rtTime e)
      (idle → (rtKind e = 0 → alone (.raisingHalt (rtSequence e)) (if v.stopped then v.openOut else none)) ∧
        (rtKind e = 1 → alone (.outOfTurnHalt (rtSequence e)) opened) ∧
        (rtKind e = 2 → v.openOut ≠ none ∨ v.stopped = true → alone (.outOfTurnResume (rtSequence e)) none)) ∧
      (¬ idle → (v.heldOutOfStep = true → s.pkg.inStep = true) →
      let vacant := ∀ k ∈ Pkg.clustersOf vf, (s.pkg.clusters.get k {}).occupant = none ∧ (s.pkg.clusters.get k {}).halted = false
      let retired (t : State) : Prop := vacant → t.pkg.raisings = s.pkg.raisings.filter (fun x => x != e)
      let taken (t : State) : Prop :=
        ((t.pkg.vfs.get vf {}).heldRefused = false ∧ (t.pkg.vfs.get vf {}).heldOutOfStep = false ∨ ¬ vacant) ∧
        (vacant → (t.pkg.vfs.get vf {}).gen = rtGeneration e vf ∧ (t.pkg.vfs.get vf {}).drainEnd = some (rtTime e + v.drainNs) ∧
          t.pkg.mem = s.pkg.mem ∧ t.pkg.strands = s.pkg.strands)
      (rtKind e = 0 → ∃ t : State, exec (.raisingHalt (rtSequence e)) s = .next t ∧ retired t ∧ taken t ∧
        (t.pkg.vfs.get vf {}).resident = none ∧ (t.pkg.vfs.get vf {}).openOut = none ∧ (t.pkg.vfs.get vf {}).raised = true ∧
        (vacant → (t.pkg.vfs.get vf {}).incoming = s.pkg.incomingOf vf e ∧
          ∀ k ∈ Pkg.clustersOf vf, t.pkg.clusters.get k {} = { restore := true })) ∧
      (rtKind e = 1 → ∃ t : State, exec (.outOfTurnHalt (rtSequence e)) s = .next t ∧ retired t ∧ taken t ∧
        (t.pkg.vfs.get vf {}).resident = none ∧ (t.pkg.vfs.get vf {}).raised = true ∧
        (t.pkg.vfs.get vf {}).openOut = opened ∧
        (vacant → (t.pkg.vfs.get vf {}).incoming = (if rtFootprint e = 0 then none else s.pkg.incomingOf vf e) ∧
          ∀ k ∈ Pkg.clustersOf vf,
            t.pkg.clusters.get k {} = if (rtFootprint e).testBit (k % 18) then { restore := true }
              else { s.pkg.clusters.get k {} with
                halted := true
                pending := none
                meter := if v.resident = none then (s.pkg.clusters.get k {}).meter else 0 })) ∧
      (∀ q, rtKind e = 2 → v.openOut = some q →
        (∀ cid c, s.pkg.incomingOf vf e = some cid → s.pkg.ctxs.get? cid = some c → c.heldRecords = []) →
        ∃ t : State, exec (.outOfTurnResume (rtSequence e)) s = .next t ∧ retired t ∧
        taken t ∧ (t.pkg.vfs.get vf {}).openOut = none ∧
        (vacant → (t.pkg.vfs.get vf {}).resident = s.pkg.incomingOf vf e)))) ∧
   (∀ (p : Pkg) (k cid : Nat) (restore : Bool), (p.clusters.get k {}).occupant = some cid →
      let q := p.haltAll [k]
      let r := (q.writeSection cid k).saveCluster restore k
      let t := p.saveClusters restore [k]
      let quiet := (∀ sid st, q.strand? sid = some st → ∀ o ∈ st.ops, Pkg.endsAtHalt o.kind = false) ∧
        ∀ b x, q.bents.get? b = some x → x.hidden = [] ∧ ∀ o ∈ x.matq, o.started = false
      t = r.writeHeader cid (q.clusterBytes cid k) ∧ t.clusters.get k {} = { restore := restore } ∧
      (∀ c, r.ctxs.get? cid = some c → isAliasPa c.saveArea = false → r.mem.Canonical →
        t.mem.readBytes c.saveArea 48 = r.contextHeader cid (q.clusterBytes cid k) c) ∧
      (quiet → (q.strands.map (·.1)).Nodup →
        (∀ c, q.ctxs.get? cid = some c → (q.clusters.get k {}).occupant = some cid →
          (t.ctxs.get? cid).map (·.saved) = some (c.saved ||| BitVec.ofNat 18 (2 ^ (k % 18)))) ∧
        ∀ sid st, q.strand? sid = some st → sidCtx sid = cid → sidCluster sid = k →
          (q.clusters.get k {}).occupant = some cid → ∃ u, t.strand? sid = some u ∧ u.executing = false ∧ u.words = [] ∧
            u.park ≠ some .energy ∧ u.v = st.v ∧ u.cf = st.cf ∧ u.em = st.em ∧ u.mode = st.mode ∧ u.clause = st.clause ∧
            u.slot = st.slot ∧ u.t = st.t ∧ u.sh = st.sh ∧ u.frame = st.frame ∧ u.ops = st.ops)) ∧
   (∀ (p : Pkg) (cid sid : Nat) (st : Strand), (sid, st) ∈ p.strands → sidCtx sid = cid →
      let record := Pkg.recordOffset sid
      let regions := p.sectionRegions cid (sidCluster sid)
      (record + 0x800, (List.range (Pkg.recordLanes st)).flatMap fun j => leBytes 4 (st.cfAt j).toNat) ∈ regions ∧
      (∀ n m j w, (n, m) ∈ st.t → (j, w) ∈ m → (record + (0xC00 + 384 * n + 4 * j), leBytes 4 w.toNat) ∈ regions) ∧
      (∀ f n m j w, st.frame = some f → (n, m) ∈ f.temps → (j, w) ∈ m →
        (record + (0x1800 + 384 * n + 4 * j), leBytes 4 w.toNat) ∈ regions) ∧
      (st.sh ≠ [] → ∀ i, i < 16 → (record + (0x400 + 64 * i), leBytes 64 (st.shape i).toNat) ∈ regions) ∧
      (st.truss = false → ∀ c ch, (c, ch) ∈ (p.dove st.launch st.sn).chans →
        (record + (0x2400 + 384 * c), (List.range 96).flatMap fun j => leBytes 4 (ch.defaults.get j 0).toNat) ∈ regions ∧
        ∀ n ws, (n, ws) ∈ ch.rounds →
          (record + (0x2A00 + 256 * c + 64 * ((n + 3) % 4)), ws.flatMap fun w => leBytes 4 w.toNat) ∈ regions)) ∧
   (∀ (p : Pkg) (cid o : Nat) (data : List Byte) (c : Ctx), p.ctxs.get? cid = some c → p.mem.Canonical →
      isAliasPa (Pkg.saveAddr (c.saveArea / 65536) o) = false →
      (p.writeRegions cid [(o, data)]).mem.readBytes (Pkg.saveAddr (c.saveArea / 65536) o) data.length = data) ∧
   (∀ (p : Pkg) (cid o n : Nat) (m : Mem) (c : Ctx), p.ctxs.get? cid = some c → p.mem.Canonical → m.Canonical →
      (∀ b ∈ m, b.1 < n) → p.codeBefore = [] →
      (∀ i, i < n → isAliasPa (Pkg.saveAddr (c.saveArea / 65536) (o + i)) = false ∧
        Pkg.areaOffset (c.saveArea / 65536) (Pkg.saveAddr (c.saveArea / 65536) (o + i)) = some (o + i)) →
      ∀ i, i < n → (p.writeImage cid (o, n, m)).mem.read (Pkg.saveAddr (c.saveArea / 65536) (o + i)) = m.read i) ∧
   (∀ (s : State) (vf : Nat), s.Booted →
      let v := s.pkg.vfs.get vf {}
      (∀ cluster c cid, clusterVf cluster = vf → (s.pkg.clusters.get cluster {}).restore = true →
        (s.pkg.clusters.get cluster {}).halted = false →
        (∀ k ∈ Pkg.clustersOf vf, k < cluster → (s.pkg.clusters.get k {}).restore = false ∧
          ((s.pkg.clusters.get k {}).halted = true → (s.pkg.clusters.get k {}).pending = none)) →
        (∀ t, v.drainEnd = some t → t ≤ s.pkg.time) → v.stopped = false → v.heldOutOfStep = false → v.heldRefused = false →
        v.incoming = some cid → s.pkg.ctxs.get? cid = some c → c.heldRecords = [] → c.vf = vf →
        c.saved.getLsbD (cluster % 18) = true → s.pkg.bentsOn cid cluster ≠ [] → s.pkg.staggered vf = true →
        (∀ x ∈ s.pkg.restoredRanges cid cluster, s.pkg.areaBad c x.1 x.2 = false) →
        isAliasPa (c.saveArea + 16) = false → s.pkg.mem.Canonical → (s.pkg.strands.map (·.1)).Nodup →
        (∀ e ∈ s.pkg.strands, ∀ l v, e.2.park ≠ some (.waitseq l v false)) →
        let area := s.pkg.areaMem c (Pkg.sectionStart cluster) 0x900000
        ∃ t : State, exec (.raisingRestore cluster) s = .next t ∧
          t.pkg.clusters.get cluster {} = { occupant := some cid, started := true } ∧
          (t.pkg.vfs.get vf {}).resident = some cid ∧ (t.pkg.vfs.get vf {}).lastStart = some s.pkg.time ∧
          (∀ sid st, s.pkg.strand? sid = some st → t.pkg.strand? sid =
            some (if sidCtx sid = cid ∧ sidCluster sid = cluster then s.pkg.loadStrand area sid st else st)) ∧
          t.pkg.mem.readBytes (c.saveArea + 16) 8 =
            leBytes 8 (c.saved &&& ~~~ BitVec.ofNat 18 (2 ^ (cluster % 18))).toNat ∧
          (∀ a, (a < c.saveArea + 16 ∨ c.saveArea + 24 ≤ a) → noRace s.pkg (c.saveArea + 16) 8 a →
            t.pkg.mem.read a = s.pkg.mem.read a) ∧
          (t.pkg.ctxs.get? cid).map (fun c => c.saved.getLsbD (cluster % 18)) = some false) ∧
      (∀ at', v.drainEnd = some at' → at' ≤ s.pkg.time → (∀ x ∈ s.pkg.sent, x.queued = false) →
        ∃ t : State, exec (.drainWindowEnd vf) s = .next t ∧ (t.pkg.vfs.get vf {}).drainEnd = none ∧
          (t.pkg.vfs.get vf {}).gen = v.gen ∧
          ((∀ x ∈ s.pkg.sent, ∀ sid, x.sid = some sid → s.pkg.savedAt (sidCtx sid) (sidCluster sid) = false) →
            t.pkg.mem = s.pkg.mem) ∧
          ∀ x ∈ t.pkg.sent, (x.entry.isSome = true ∨ x.resend = true) → (headOf x.packet).vf = vf → (headOf x.packet).gen % 256 = v.gen % 256) ∧
      (∀ k tree limit seq victim mask start, s.pkg.trees.get? k = some tree → s.pkg.vfOf tree.ctx = vf →
        tree.urgent = some limit → v.openOut = some (seq, victim, mask, start) → start + limit ≤ s.pkg.time →
        ∃ t : State, exec (.runLimitExpiry k) s = .next t ∧ t.pkg.trees.get? k = some { tree with urgent := none } ∧
          t.pkg.mem = s.pkg.mem ∧ t.pkg.strands = s.pkg.strands))

/-- R340, R379 to R382, R391 to R393: the framer's part, and the step and the discipline of the time base. The framer is the live
host die that comes first. It publishes kind-1 entries to no package that it knows to be out of step, and kind-2 entries at least
3 µs ahead to any. Time is never set back.

The model's own choices in it: log entries 5, 22, 54, 75, 92 and 109. -/
def Obligations.Framer : Prop :=
  ∀ (s : State), s.Booted →
    let p := s.pkg
    let sent (port : Nat) (e : BitVec 256) : Packet := p.systemPacket 0x11 25 port (leBytes 32 e.toNat)
    (∀ priority port, ∃ t : State, exec (.framerAnnounce priority port) s = .next t ∧
      t.pkg.framers.get? port = some (if port = p.yardPort then p.framingPriority else priority % 256, p.time) ∧
      t.pkg.mem = p.mem ∧ t.pkg.framer = p.framer ∧ (p.owedEnds = [] → t.pkg.published = p.published)) ∧
    (∀ port, p.liveFramer = some port →
      (∃ e ∈ p.framers, e.1 = port ∧ p.time ≤ e.2.2 + 1000000 ∧
        ∀ x ∈ p.framers, p.time ≤ x.2.2 + 1000000 → e.2.1 * 512 + e.1 ≤ x.2.1 * 512 + x.1) ∧
      (p.framer ≠ some port → p.owedEnds = [] → ∃ (t : State) (former : List (Nat × BitVec 256)), exec (.framerTakeover port) s = .next t ∧
        t.pkg.framer = some port ∧ t.pkg.published = p.published ++ former ∧ (port ≠ p.yardPort → former = []) ∧
        (∀ x ∈ former, p.time ≤ rtTime x.2) ∧
        (port = p.yardPort → ∀ q e, (q, e) ∈ t.pkg.published → p.time ≤ rtTime e → sent q e ∈ t.pkg.outbox))) ∧
    (p.isFramer = true ↔ p.framer = some p.yardPort ∧ p.liveFramer = some p.yardPort) ∧
    (∀ port, p.isFramer = true → exec (.raisingRepublishRequest port) s =
      .next { s with pkg := { p with outbox := p.outbox ++ (p.unretired port).map (sent port) } }) ∧
    (∀ r : UrgentRequest, p.isFramer = true → (∀ g ∈ r.gang, g.1 = r.yardPort) →
      let room := (p.unretired r.yardPort).length < 256
      let entry (time kind : Nat) := rtEntry time r.vf r.ctx (p.nextGeneration r.yardPort r.vf) r.footprint.toNat kind
        (p.nextSequence r.yardPort)
      let published (e : BitVec 256) : Host.Outcome State Fault Refusal := .next { s with
        pkg := { p with published := p.published ++ [(r.yardPort, e)], outbox := p.outbox ++ [sent r.yardPort e] } }
      (p.knownOutOfStep r.yardPort = true → exec (.outOfTurnRequest r) s = .next s) ∧
      (p.knownOutOfStep r.yardPort = false → room →
        exec (.outOfTurnRequest r) s = published (entry (r.sendTime + 3000) 1)) ∧
      (room → p.owedEnds = [] →
        ∃ lead, 3000 ≤ lead ∧ s.perform (.urgentOver r) = published (entry (max p.time r.sendTime + lead) 2))) ∧
    (∀ r : UrgentRequest, p.isFramer = false →
      (p.framer = some p.yardPort → s.perform (.urgentOver r) = .next { s with pkg := { p with owedEnds := p.owedEnds ++ [r] } }) ∧
      (p.framer ≠ some p.yardPort → p.owedEnds = [] →
        s.perform (.urgentOver r) = .next { s with pkg := { p with msgs := p.msgs ++ [.urgentOver r] } })) ∧
    (∀ port inStep, ∃ t : State, s.perform (.stepReport port inStep) = .next t ∧ t.pkg.mem = p.mem ∧
      (port ≠ p.yardPort → t.pkg.knownOutOfStep port = !inStep) ∧
      ∀ q, q ≠ port → t.pkg.knownOutOfStep q = p.knownOutOfStep q) ∧
    (∀ port e, p.isFramer = true → rtKind e = 0 → rtFootprint e = 0x3FFFF → rtSequence e = p.nextSequence port →
      (p.unretired port).length < 256 →
      exec (.scheduledRaisingPublish port e) s = .next { s with pkg := { p with
        published := p.published ++ [(port, e &&& rtMask)], outbox := p.outbox ++ [sent port (e &&& rtMask)] } }) ∧
    (∀ offset : Int, p.ptpStamps = [] → exec (.ptpMeasurement offset) s = .next s) ∧
    (∀ offset : Int, p.ptpStamps ≠ [] →
      let judged (q : Pkg) : Prop := ∃ moved, (0 ≤ offset → moved = 0) ∧ moved ≤ offset.natAbs ∧
        exec (.ptpMeasurement offset) s = .next { s with pkg := { q with ptpStamps := [], time := q.time + moved } }
      (p.inStep = true → offset.natAbs ≤ 250 → judged p) ∧
      (p.inStep = true → 250 < offset.natAbs → (∀ v cid, v < 8 → p.presentOf v = some cid → p.ganged cid = false) →
        judged { p with inStep := false, goodOffsets := 0, msgs := p.msgs ++ [.step false] }) ∧
      (p.inStep = false → 100 < offset.natAbs → judged { p with goodOffsets := 0 }) ∧
      (p.inStep = false → offset.natAbs ≤ 100 → p.goodOffsets < 7 → judged { p with goodOffsets := p.goodOffsets + 1 }) ∧
      (p.inStep = false → offset.natAbs ≤ 100 → p.goodOffsets = 7 →
        judged { p with inStep := true, goodOffsets := 0, msgs := p.msgs ++ [.step true] }))

/-! ### Launch rings -/

/-- R155, R362, R363, R365, R366, R368, R369: what Amiah does at the packet at the head of a ring. A good LAUNCH starts a
tree, with its counter at 1, and a launch of it; a bad one starts none. WAIT and FENCE hold the ring until what they wait for
has come; WRITE stores its value; LEASE replaces a lease that no living tree uses; PAD does nothing. A faulty packet of these
stops the ring with a fault record, and holds it no more.

R362 to R366, R368: a poll checks a descriptor when its enable has risen, stops the ring of a faulty one with a
record of kind 13, and then takes over the tail; a held ring goes on behind its packet when what holds it is over, where Amiah
serves the ring, and a lease is replaced only then; no read of a header passes the tail or the ring's end.

R335, R336: the request at the head of a collective ring is answered BAD_REQUEST where its sequence is not the next of its
communicator, where it names nothing, or where a member's request differs; else it is done once every member has brought
its own, and receives what the operation makes of the members' data.

The model's own choices in it: log entries 36, 41, 77 and 91. -/
def Obligations.LaunchRings : Prop :=
   (∀ (s : State) (cid r : Nat) (q : Pkg) (d h : Nat) (body : List Byte), s.Booted →
      s.pkg.headPacket cid r = (q, some (d, h, body)) →
      let next (p : Pkg) : State := { s with pkg := p.advanceHead cid r d (phLength h) }
      let holds (p : Pkg) (k : RingHold) : State := { s with pkg := p.updRing cid r fun x => { x with hold := some k } }
      let stops (p : Pkg) (f : RingFault) : State :=
        { s with
          pkg := ((p.stopRing cid r d).updRing cid r fun x => { x with hold := none }).reportFault cid f.kind r f.field
            (rdHead d) f.bound f.value }
      (phType h = 1 →
        let desc := BitVec.ofNat 512 (leNat body)
        let seq := BitVec.ofNat 64 (r * 2 ^ 56 + rdHead d % 2 ^ 56)
        ∀ c, q.ctxs.get? cid = some c →
        (descValid desc c.leases = true → ldItems desc ≤ 96 →
          ∃ (t : State) (tree : Tree) (l : Launch), exec (.launchPacket cid r) s = .next t ∧
            t.pkg.trees.get? q.nextId = some tree ∧ tree.ctx = cid ∧ tree.seedSeq = seq ∧ tree.counter = 1 ∧
            tree.status = none ∧ tree.record.toNat = ldRecord desc ∧ tree.args.toNat = ldArgs desc ∧
            tree.lease = c.leases.get (ldLease desc) [] ∧ tree.killed = false ∧
            t.pkg.launches.get? (q.nextId + 1) = some l ∧ l.tree = q.nextId ∧ l.ctx = cid ∧ l.desc = desc ∧
            l.lease = c.leases.get (ldLease desc) [] ∧ l.nextBent = 0 ∧ l.trig = 0 ∧ l.ended = false) ∧
        ((descValid desc c.leases = false ∨ 96 < ldItems desc) →
          ∃ t : State, exec (.launchPacket cid r) s = .next t ∧ t.pkg.trees = q.trees ∧ t.pkg.launches = q.launches)) ∧
      (phType h = 2 →
        (∀ p l b v, q.packetLoc cid (leNat (body.take 8)) needRead = (p, some l) → p.readHome l 8 = (b, v) →
          exec (.ringWaitPacket cid r) s = .next
            (if leNat (body.drop 8) ≤ leNat v then next b
            else holds b (.word l (BitVec.ofNat 64 (leNat (body.drop 8))) false))) ∧
        (∀ p, q.packetLoc cid (leNat (body.take 8)) needRead = (p, none) →
          exec (.ringWaitPacket cid r) s = .next (stops p ⟨6, 16, 0, leNat (body.take 8)⟩))) ∧
      (phType h = 3 →
        (∀ p l, q.packetLoc cid (leNat (body.take 8)) needWrite = (p, some l) →
          exec (.ringWritePacket cid r) s = .next (next (p.writeLoc none false l (body.drop 8)))) ∧
        (∀ p, q.packetLoc cid (leNat (body.take 8)) needWrite = (p, none) →
          exec (.ringWritePacket cid r) s = .next (stops p ⟨6, 16, 0, leNat (body.take 8)⟩))) ∧
      (phType h = 4 →
        let trees := if h.testBit 8 then (q.ringOf cid r).trees else []
        (phFlags h = 0 → exec (.fencePacket cid r) s = .next (next q)) ∧
        (phFlags h = 1 → exec (.fencePacket cid r) s = .next (holds q (.fence trees none))) ∧
        (2 ≤ phFlags h → exec (.fencePacket cid r) s = .next (holds
          { q with
            nextId := q.nextId + 1
            invalidations := q.invalidations.set q.nextId ⟨cid, bits (phAddr h) 54 16, phPages h⟩ }
          (.fence trees (some q.nextId))))) ∧
      (phType h = 5 →
        let units := Pkg.units16 (phLength h - 1) body
        let id := bits (units.headD 0) 15 0
        let ranges := (units.drop 1).map leaseEntry
        (leaseFault (units.headD 0) (units.drop 1) = none →
          exec (.leasePacket cid r) s = .next
            (if q.leaseUsed cid id then holds q (.lease id ranges) else next (q.setLease cid id ranges))) ∧
        (∀ field value, leaseFault (units.headD 0) (units.drop 1) = some (field, value) →
          exec (.leasePacket cid r) s = .next (stops q ⟨5, field, 155, value⟩))) ∧
      (phType h = 6 → exec (.padPacket cid r) s = .next (next q))) ∧
   (∀ (s : State) (cid r : Nat), s.Booted →
      (∀ q d, s.pkg.served cid = true → r < 80 → s.pkg.ringDesc cid r = (q, some d) →
        let p := q.updRing cid r fun x => { x with unreadable := false }
        (rdEnable d = false →
          exec (.amiahRingPoll cid r) s =
            .next { s with pkg := p.updRing cid r fun x => { x with checked := false, tail := 0, hold := none } }) ∧
        (rdEnable d = true → rdStopped d = false → (p.ringOf cid r).checked = false →
          (∀ field value legal, ringDescFault d r = some (field, value, legal) →
            exec (.amiahRingPoll cid r) s =
              .next { s with pkg := (p.stopRing cid r d).reportFault cid 13 r field p.time legal value }) ∧
          (ringDescFault d r = none →
            let c := p.updRing cid r fun x => { x with checked := true }
            exec (.amiahRingPoll cid r) s = .next { s with pkg := if r < 16 then c.pollTail cid r d else c })) ∧
        (rdEnable d = true → rdStopped d = false → (p.ringOf cid r).checked = true →
          exec (.amiahRingPoll cid r) s = .next { s with pkg := if r < 16 then p.pollTail cid r d else p })) ∧
      (∀ d, (rdHead d ≤ rdTail d ∧ rdTail d - rdHead d ≤ ringSize d ∧ rdTail d % 16 = 0) →
        s.pkg.pollTail cid r d =
          ((s.pkg.updRing cid r fun x => { x with tail := rdTail d }).headPacket cid r).1) ∧
      (∀ d, ¬ (rdHead d ≤ rdTail d ∧ rdTail d - rdHead d ≤ ringSize d ∧ rdTail d % 16 = 0) →
        s.pkg.pollTail cid r d =
          ((s.pkg.stopRing cid r d).updRing cid r fun x => { x with hold := none }).reportFault cid 3 r 0xFF (rdHead d)
            (ringSize d) (rdTail d)) ∧
      (∀ l t met b v, (s.pkg.ringOf cid r).hold = some (.word l t met) → s.pkg.readHome l 8 = (b, v) →
        (met = true ∨ t.toNat ≤ leNat v) →
        exec (.ringWaitSatisfied cid r) s = .next { s with pkg := b.releaseRing cid r }) ∧
      (∀ trees inval, (s.pkg.ringOf cid r).hold = some (.fence trees inval) → (∀ k ∈ trees, s.pkg.trees.get? k = none) →
        (∀ n, inval = some n → s.pkg.invalidations.get? n = none) →
        exec (.fencePacketDone cid r) s = .next { s with pkg := s.pkg.releaseRing cid r }) ∧
      (∀ id ranges, (s.pkg.ringOf cid r).hold = some (.lease id ranges) → s.pkg.leaseUsed cid id = false →
        (∀ q, s.pkg.servedRing cid r = (q, none) → exec (.leaseReplace cid r) s = .next { s with pkg := q }) ∧
        ∀ q d b w, s.pkg.servedRing cid r = (q, some d) → q.ringBytes cid d (rdHead d) 16 = (b, some w) →
          exec (.leaseReplace cid r) s = .next { s with
            pkg := ((b.setLease cid id ranges).updRing cid r fun x => { x with hold := none }).advanceHead cid r d
              (phLength (leNat w)) }) ∧
      (∀ q, s.pkg.servedRing cid r = (q, none) → s.pkg.releaseRing cid r = q) ∧
      (∀ q d b w, s.pkg.servedRing cid r = (q, some d) → q.ringBytes cid d (rdHead d) 16 = (b, some w) →
        s.pkg.releaseRing cid r =
          (b.updRing cid r fun x => { x with hold := none }).advanceHead cid r d (phLength (leNat w))) ∧
      (∀ d, (s.pkg.ringOf cid r).tail < rdHead d + 16 → s.pkg.headHeader cid r d = (s.pkg, none)) ∧
      (∀ d, rdHead d + 16 ≤ (s.pkg.ringOf cid r).tail → ringSize d < rdHead d % ringSize d + 16 →
        s.pkg.headHeader cid r d =
          (s.pkg.ringFault cid r d ⟨1, 2, ringSize d, rdHead d % ringSize d + 16⟩, none))) ∧
   (∀ (s : State) (cid ring d : Nat) (peers : List CollectivePeer) (c : Ctx) (q p : Pkg) (b : List Byte), s.Booted →
      s.pkg.ctxs.get? cid = some c → crReservedCores c.record ≠ 0 → ring < 64 →
      (s.pkg.vfs.get c.vf {}).resident = some cid → s.pkg.ringReady cid ring = (q, true) →
      (s.pkg.ringDesc cid (16 + ring)).2 = some d → q.amiahRead cid (ringAddr d (rdHead d)) 128 = (p, some b) →
      let r := leNat b
      let own := (p.ownRank cid).toNat
      let counted := p.updCtx cid fun c => { c with collectives := c.collectives.set (cqCommunicator r) (cqSequence r) }
      let ends (x : Pkg) (status : Nat) : Prop :=
        s.perform (.collective cid ring peers) = .next { s with pkg := x.endCollective cid ring d r status }
      let next : Prop := ∀ n, c.collectives.get? (cqCommunicator r) = some n → cqSequence r = (n + 1) % 2 ^ 64
      (¬ next → ends p 2) ∧ (next → cqIllegal r = true → ends counted 2) ∧
      (∀ members others, next → cqIllegal r = false → Pkg.takePart c own r = some members →
        Pkg.peersOf peers own r members = some others →
        ((∃ x ∈ others, cqAgree r (leNat x.request) = false) → ends counted 2) ∧
        (∀ m t mine, (∀ x ∈ others, cqAgree r (leNat x.request) = true ∧ x.failed = none) →
          counted.amiahRead cid (cqSend r) (sentBytes r own members.length) = (m, some mine) →
          let data := members.map fun k =>
            (k, if k = own then mine else ((others.find? fun x => x.rank == k).map (·.data)).getD [])
          m.amiahWrite cid (cqReceive r) (receivedBytes r (members.idxOf own) data) = (t, true) → ends t 1)))

/-! ### Host commands -/

/-- R204, R330, R336, R346, R361, R366, R372, R394, R395, R412: host commands on a context. A command is executed where it
stands at the head of the host command queue, with its code and its operands; the queue goes on to the next once its status is
written. Each one ends by writing its status byte: 1 once done, 2 where Amiah refuses it, 3 where its code is none of the table's,
and a refused one changes nothing else.

The model's own choices in it: log entries 11, 41, 47, 48, 49 and 93. -/
def Obligations.ContextCommands : Prop :=
  ∀ (s : State) (cmd cid : Nat), s.Booted →
    let answers (i : Instr) (p : Pkg) (status : Nat) : Prop :=
      exec i s = .next { s with pkg := { p with hostMem := p.hostMem.write (cmd + 1) (BitVec.ofNat 8 status) } }
    let begun : State := { s with pkg := { s.pkg with hostMem := s.pkg.hostMem.write (cmd + 1) 0 } }
    let finished (t : State) : State :=
      if t.pkg.hostMem.read (cmd + 1) = 0 then t
      else { t with pkg := { t.pkg with
        hostRing := BitVec.ofNat 512 (setBits t.pkg.hostRing.toNat 127 64 (rdHead t.pkg.hostRing.toNat + 64)) } }
    (∀ i code ops, isWord i = false → Pkg.hostCommand i = some (cmd, code, ops) →
      (s.pkg.hostAdmits i = true → ∀ t, exec i begun = .next t → s.perform (.event i) = .next (finished t)) ∧
      (s.pkg.hostAdmits i = false → s.perform (.event i) = .next s) ∧
      (s.pkg.hostAdmits i = true ↔ s.pkg.hostHead = some cmd ∧ (s.pkg.hostMem.read cmd).toNat = code ∧
        (∀ n x, ops[n]? = some x → s.pkg.hostOperand cmd n = x) ∧ s.pkg.twinOperand i = true)) ∧
    (∀ code, s.pkg.hostHead = some cmd → (s.pkg.hostMem.read cmd).toNat = code →
      (code = 0 ∨ 10 < code ∧ code < 16 ∨ 23 < code ∧ code ≠ 32) →
      s.perform (.unknownCommand cmd) = .next
        (finished { s with pkg := { s.pkg with hostMem := (s.pkg.hostMem.write (cmd + 1) 0).write (cmd + 1) 3 } })) ∧
    (∀ record tf sf,
      let r := BitVec.ofNat 1024 (leNat (s.pkg.hostMem.readBytes record 128))
      (∀ q, s.pkg.newContext r cid tf sf = some q →
        answers (.create cmd record cid tf sf) { q with hostMem := q.hostMem.write (cmd + 8) (BitVec.ofNat 8 cid) } 1) ∧
      (s.pkg.newContext r cid tf sf = none → answers (.create cmd record cid tf sf) s.pkg 2) ∧
      (∀ q, s.pkg.newContext r cid tf sf = some q → cid < 64 ∧ s.pkg.ctxs.get? cid = none ∧
        ∃ c, q.ctxs.get? cid = some c ∧ c.record = r ∧ c.vf = crVf r ∧ c.twinPa = tf * 65536 ∧ c.saveArea = sf * 65536 ∧
          c.dspad = [] ∧ c.leases = [] ∧ c.charge = 0)) ∧
    (s.pkg.ctxs.get? cid = none → answers (.destroy cmd cid) s.pkg 2) ∧
    (∀ c, s.pkg.ctxs.get? cid = some c → ∃ t : State, exec (.destroy cmd cid) s = .next t ∧
      t.pkg.ctxs.get? cid = none ∧ (∀ e ∈ t.pkg.trees, e.2.ctx ≠ cid) ∧ (∀ e ∈ t.pkg.launches, e.2.ctx ≠ cid) ∧
      (∀ e ∈ t.pkg.entries, e.2.ctx ≠ cid) ∧ (∀ e ∈ t.pkg.chains, e.2.ctx ≠ cid) ∧ (∀ e ∈ t.pkg.tlb, e.ctx ≠ cid) ∧
      (∀ e ∈ t.pkg.pinned, e.2 ≠ cid) ∧ (cid < 64 → c.vf < 8 → ∀ e ∈ t.pkg.raisings, rtContext e c.vf ≠ cid)) ∧
    (∀ slot st, slot < 16384 → s.pkg.strand? (cid * 16384 + slot) = some st →
      (st.park = some .trapPark → answers (.resumeStrand cmd cid slot)
        ((s.pkg.setStrand (cid * 16384 + slot) (Pkg.passInstr { st with park := none }
          (s.pkg.cycleOf (sidCluster (cid * 16384 + slot))))).keepStrand (cid * 16384 + slot)) 1) ∧
      (st.park ≠ some .trapPark → answers (.resumeStrand cmd cid slot) s.pkg 2) ∧
      (st.ended = true → answers (.killStrand cmd cid slot) s.pkg 2) ∧
      (∀ c k w, st.ended = false → st.ops = [] → st.truss = false → s.pkg.crew? st.bent st.crew = some c → k ∈ c.sids →
        k ≠ cid * 16384 + slot → s.pkg.strand? k = some w → w.ended = false →
        ∃ (t : State) (u : Strand), exec (.killStrand cmd cid slot) s = .next t ∧
          t.pkg.strand? (cid * 16384 + slot) = some u ∧ u.ended = true ∧ u.finished = true ∧ u.park = none ∧
          u.ops = [] ∧
          ((∀ k, s.pkg.savedAt cid k = true → s.pkg.bentsAt cid k = []) → t.pkg.mem = s.pkg.mem) ∧
          (∀ e ∈ t.pkg.entries, e.2.chain = none → e.2.sid ≠ some (cid * 16384 + slot)) ∧
          ((∃ e ∈ s.pkg.entries, e.2.chain = none ∧ e.2.sid = some (cid * 16384 + slot)) →
            ∀ tree, s.pkg.trees.get? (s.pkg.treeKeyOf st) = some tree →
              (t.pkg.trees.get? (s.pkg.treeKeyOf st)).map (·.status) = some (some (tree.status.getD 5))))) ∧
    (∀ seedSeq k tree, s.pkg.trees.find? (fun t => t.2.ctx == cid && t.2.seedSeq.toNat == seedSeq) = some (k, tree) →
      answers (.killTree cmd cid seedSeq) ((s.pkg.endTree k 8).keepCtx cid) 1) ∧
    (∀ (q : Pkg) sid, q.savedAt (sidCtx sid) (sidCluster sid) = false → q.keepStrand sid = q) ∧
    (∀ q : Pkg, (∀ k, q.savedAt cid k = true → q.bentsAt cid k = []) → q.keepCtx cid = q) ∧
    (∀ k tree status, s.pkg.trees.get? k = some tree → ∃ t',
      (s.pkg.endTree k status).trees.get? k = some t' ∧ t'.killed = true ∧ t'.counter = 0 ∧
      t'.status = some (tree.status.getD status) ∧
      (∀ n l, s.pkg.launches.get? n = some l → l.tree = k → ∀ e ∈ (s.pkg.endTree k status).strands, e.2.launch ≠ n) ∧
      (s.pkg.endTree k status).mem = (s.pkg.revealBents fun b => (s.pkg.treeLaunches k).contains b.launch).mem ∧
      ((∀ b ∈ s.pkg.bents, b.2.hidden = []) → (s.pkg.endTree k status).mem = s.pkg.mem)) ∧
    (∀ ring q d, ring < 80 → (s.pkg.ctxs.get? cid).isSome = true → s.pkg.ringDesc cid ring = (q, some d) →
      (∀ field value legal, ringDescFault d ring = some (field, value, legal) →
        answers (.ringRestart cmd cid ring)
          (((q.updRing cid ring fun x => { x with checked := false, tail := 0, hold := none }).stopRing cid ring d).reportFault
            cid 13 ring field q.time legal value) 1) ∧
      (ringDescFault d ring = none → ∀ c, s.pkg.ctxs.get? cid = some c →
        answers (.ringRestart cmd cid ring)
          ((q.amiahWrite cid (crRingTable c.record + 64 * ring + 25)
            [BitVec.ofNat 8 (bits d 207 200 - bits d 201 201 * 2)]).1.updRing cid ring fun x =>
              { x with checked := rdEnable d, tail := 0, hold := none }) 1)) ∧
    ((s.pkg.ctxs.get? cid).isSome = true →
      (∀ q, s.pkg.readTables cid = some q → answers (.gangSet cmd cid) q 1) ∧
      (s.pkg.readTables cid = none → answers (.gangSet cmd cid) s.pkg 2)) ∧
    (∀ index d c, s.pkg.ctxs.get? cid = some c →
      let clean := setBits (setBits d.toNat 479 450 0) 255 6 0
      (index < 128 → Pkg.badTwin clean = false → answers (.twinSet cmd cid index d)
        (s.pkg.writeL2 none (c.twinPa + 64 * index) (leBytes 64 clean)) 1) ∧
      ((128 ≤ index ∨ Pkg.badTwin clean = true) → answers (.twinSet cmd cid index d) s.pkg 2)) ∧
    (∀ va c, s.pkg.ctxs.get? cid = some c →
      (va % 64 = 0 → c.watched.length < 64 → ∃ t : State, exec (.chainWatch cmd cid va) s = .next t ∧
        (∃ c', t.pkg.ctxs.get? cid = some c' ∧ ∀ x, x ∈ c'.watched ↔ x ∈ c.watched ∨ x = BitVec.ofNat 64 va) ∧
        (∀ e ∈ t.pkg.chains, e.2.ctx = cid → e.2.desc = BitVec.ofNat 64 va → e.2.halted = false) ∧
        t.pkg.hostMem = s.pkg.hostMem.write (cmd + 1) 1 ∧ t.pkg.mem = s.pkg.mem) ∧
      (va % 64 ≠ 0 → answers (.chainWatch cmd cid va) s.pkg 2) ∧
      (∃ t : State, exec (.chainUnwatch cmd cid va) s = .next t ∧
        (∃ c', t.pkg.ctxs.get? cid = some c' ∧ ∀ x, x ∈ c'.watched ↔ x ∈ c.watched ∧ x ≠ BitVec.ofNat 64 va) ∧
        t.pkg.hostMem = s.pkg.hostMem.write (cmd + 1) 1 ∧ t.pkg.mem = s.pkg.mem))

/-- R146 to R148, R160, R161, R337, R372 to R375, R411, R412, R419: host commands on a virtual function, the setting of its
drain window, and what Amiah assigns to it: a free key ID, and under an enabled key a frame that no enabled key owns, zero-
filled where it is an HBM frame.

The model's own choices in it: log entries 10, 11, 24, 48, 50, 51, 52, 76, 86 and 99. -/
def Obligations.FunctionCommands : Prop :=
  ∀ (s : State) (cmd vf : Nat), s.Booted → vf < 8 →
    let v := s.pkg.vfs.get vf {}
    let answers (i : Instr) (p : Pkg) (status : Nat) : Prop :=
      exec i s = .next { s with pkg := { p with hostMem := p.hostMem.write (cmd + 1) (BitVec.ofNat 8 status) } }
    (∀ ns, s.perform (.setDrain vf ns) = .next
      (if 1000 ≤ ns ∧ ns ≤ 16000 then { s with pkg := s.pkg.updVf vf fun v => { v with drainNs := ns } } else s)) ∧
    (∀ key, 1 ≤ key → key < 1024 → s.perform (.assignKey vf key) = .next
      (if s.pkg.keyVf.get? key = none then { s with pkg := { s.pkg with keyVf := s.pkg.keyVf.set key vf } } else s)) ∧
    (s.pkg.mem.Canonical → ∀ key f, key < 1024 → (key = 0 ∨ ∃ v, s.pkg.keyVf.get? key = some v) →
      ((s.pkg.frameKeys.get f 0).toNat.testBit 15 = false ∨
        let k := (s.pkg.frameKeys.get f 0).toNat % 1024
        k ≠ 0 ∧ s.pkg.keyVf.get? k = none) →
      (f < 9437184 → ∃ t, s.perform (.ownFrame key f) = .next t ∧
        t.pkg.frameKeys = s.pkg.frameKeys.set f (BitVec.ofNat 16 (32768 + key)) ∧
        ∀ a, t.pkg.mem.read a = if a / 65536 = f then 0 else s.pkg.mem.read a) ∧
      (0x40000000000 ≤ f → f < 0x80000000000 → s.perform (.ownFrame key f) = .next
        { s with pkg := { s.pkg with frameKeys := s.pkg.frameKeys.set f (BitVec.ofNat 16 (32768 + key)) } })) ∧
    (∀ bitmap, answers (.dirtyOn cmd vf bitmap) (s.pkg.updVf vf fun v => { v with dirtyOn := some bitmap }) 1) ∧
    answers (.dirtyOff cmd vf) (s.pkg.updVf vf fun v => { v with dirtyOn := none }) 1 ∧
    (∀ snapshot,
      (v.dirtyOn = none → answers (.dirtyRound cmd vf snapshot) s.pkg 2) ∧
      (∀ bitmap, v.dirtyOn = some bitmap → s.pkg.translationsIdle vf = true →
        answers (.dirtyRound cmd vf snapshot)
          (((s.pkg.contextsOf vf).foldl Pkg.cleanLeaves
            { s.pkg with hostMem := Pkg.snapshotBytes s.pkg.hostMem bitmap snapshot 1179648 }).invalidateVf vf) 1)) ∧
    (∀ list,
      let ws := Pkg.windowList (s.pkg.hostMem.readBytes list 256) 16
      ((∃ w ∈ ws, s.pkg.badWindow vf w = true) → answers (.devwinSet cmd vf list) s.pkg 2) ∧
      ((∀ w ∈ ws, s.pkg.badWindow vf w = false) → s.pkg.translationsIdle vf = true →
        answers (.devwinSet cmd vf list) ((s.pkg.updVf vf fun v => { v with devWin := ws }).invalidateVf vf) 1)) ∧
    ((v.stopped = true → v.stopping = false → answers (.stopVf cmd vf) s.pkg 2) ∧
      (∀ q, (v.stopped = false ∧ q = s.pkg.haltVf vf ∨ v.stopped = true ∧ v.stopping = true ∧ q = s.pkg) →
        (q.drained vf = false → exec (.stopVf cmd vf) s = .next { s with pkg := q }) ∧
        (q.drained vf = true → ∃ t : State, exec (.stopVf cmd vf) s = .next t ∧ (t.pkg.vfs.get vf {}).stopped = true ∧
          (t.pkg.vfs.get vf {}).stopping = false ∧ (t.pkg.vfs.get vf {}).incoming = (q.vfs.get vf {}).incoming ∧
          ∃ m, t.pkg.hostMem = Mem.write m (cmd + 1) 1)) ∧
      (let w := (s.pkg.haltVf vf).vfs.get vf {}
       w.stopped = true ∧ w.stopping = true ∧ w.resident = none ∧ w.incoming = s.pkg.presentOf vf)) ∧
    ((v.stopped = false ∨ v.stopping = true → answers (.startVf cmd vf) s.pkg 2) ∧
      (v.stopped = true → v.stopping = false →
        (∀ cid ∈ s.pkg.contextsOf vf, ∀ c, s.pkg.ctxs.get? cid = some c → s.pkg.areaBad c 0xA210000 (crShare c.record) = false) →
        ∃ t : State, exec (.startVf cmd vf) s = .next t ∧
          t.pkg.vfs.get vf {} =
            { v with stopped := false, gen := (v.gen + 1) % 256, drainEnd := some (s.pkg.time + v.drainNs) } ∧
          (∀ cid ∈ s.pkg.contextsOf vf, ∀ c, s.pkg.ctxs.get? cid = some c → t.pkg.ctxs.get? cid = some { c with
            dspad := cutMem (s.pkg.areaMem c 0xA210000 (crShare c.record)) 0xA210000 (crShare c.record) }) ∧
          t.pkg.mem = s.pkg.mem ∧ t.pkg.strands = s.pkg.strands ∧ t.pkg.hostMem = s.pkg.hostMem.write (cmd + 1) 1)) ∧
    (∀ image size,
      (s.pkg.stoppedAll vf = false → answers (.exportImage cmd vf image size) s.pkg 2) ∧
      (s.pkg.stoppedAll vf = true → s.pkg.contextsOf vf ≠ [] → 4096 ≤ size →
        let parts : List (Ctx × List Byte × Exported) := (s.pkg.contextsOf vf).filterMap fun cid =>
          (s.pkg.ctxs.get? cid).map fun c => (c, Config.imageRest s.pkg.fresh cid, s.pkg.exported cid c)
        let bytes := Pkg.imageOf (parts.map fun x => Pkg.imageBlock x.1 x.2.1)
        (size < bytes.length → answers (.exportImage cmd vf image size)
          { s.pkg with hostMem := s.pkg.hostMem.writeBytes (image + 8) (leBytes 8 bytes.length) } 2) ∧
        (bytes.length ≤ size → answers (.exportImage cmd vf image size)
          { s.pkg with
            hostMem := s.pkg.hostMem.writeBytes image bytes
            images := parts.map (fun x : Ctx × List Byte × Exported => x.2) ++ s.pkg.images } 1))) ∧
    (∀ image keys,
      let head := s.pkg.hostMem.readBytes image 4096
      let n := leNat ((head.drop 4).take 4)
      let bytes := s.pkg.hostMem.readBytes image (leNat ((head.drop 8).take 8))
      let sound := keys ≠ [] ∧ (∀ k ∈ keys, 1 ≤ k ∧ k < 1024 ∧ s.pkg.keyVf.get? k = none) ∧ leNat (head.take 4) = 1 ∧
        n ≠ 0 ∧ n ≤ 64 ∧ (head.drop 80).take 48 = List.replicate 48 0 ∧ (bytes.drop 16).take 64 = Pkg.imageDigest bytes (Pkg.blockOffsets bytes n)
      (s.pkg.contextsOf vf ≠ [] ∨ ¬ sound → answers (.importImage cmd image vf keys) s.pkg 2) ∧
      (s.pkg.contextsOf vf = [] → sound →
        let fits (b : BitVec 1024 × Nat × Exported) : Prop :=
          b.2.1 % 65536 = 0 ∧ crRoot b.1 % 65536 = 0 ∧ Pkg.areaFits (b.2.1 / 65536) (crShare b.1) = true
        (s.pkg.imageBlocks bytes n = none → answers (.importImage cmd image vf keys) s.pkg 2) ∧
        ∀ blocks, s.pkg.imageBlocks bytes n = some blocks →
          ((∃ b ∈ blocks, ¬ fits b) → answers (.importImage cmd image vf keys) s.pkg 2) ∧
          ((∀ b ∈ blocks, fits b) →
            ∀ q, Pkg.recreateAll vf (keys.headD 0) blocks
              ((Pkg.clustersOf vf).foldl (fun (q : Pkg) c => q.updCluster c fun _ => { restore := true })
                (Pkg.updVf { s.pkg with keyVf := keys.foldl (fun m k => m.set k vf) s.pkg.keyVf } vf fun v =>
                  { v with stopped := true, raised := true, resident := none, incoming := none })) = some q →
            answers (.importImage cmd image vf keys) q.closeUnowned 1))) ∧
    (∀ nonce report, exec (.attest cmd vf nonce report) s = .next { s with
      pkg := { s.pkg with
        hostMem := (s.pkg.hostMem.writeBytes report
          (s.attestation vf (s.pkg.hostMem.readBytes nonce 64))).write (cmd + 1) 1 } }) ∧
    (∀ nonce, s.reportBytes vf nonce = leBytes 1 vf ++ [1] ++ leBytes 14 0 ++ shake256 (State.keyBytes (s.keysOf vf)) 32
      ++ leBytes 1 v.gen ++ leBytes 3 ((s.keysOf vf).headD 0 + (s.keysOf vf).length * 2 ^ 13)
      ++ leBytes 2 (s.functionLimit vf) ++ leBytes 1 (s.reportedShare vf) ++ leBytes 1 (s.fabricShare vf)
      ++ leBytes 8 s.pkg.time ++ (List.range 4).flatMap (fun m => s.plat.measurements.get m (List.replicate 64 0)) ++ nonce)

/-! ### Power, clocks, energy and shares -/

/-- R396 to R399: a window's steps, shims included, differ from those of the window before by at most the step in force, and
never pass 64; the real steps never pass those that were ready nor the step ceiling; the step written takes force with the
next window. The energy of shims goes to the context that issued the cluster's last real step.

R21, R400, R401, R406: the power meter, which samples every 10 µs and averages over 1 ms, the return to nominal and the
temperature readings.

R371, R402, R403: at the quota, every strand of the context that executes parks; at the end of an accounting interval every quota
refills, the charge above it carried over as debt, and the parked strands of a context that is not exhausted go on.

The model's own choices in it: log entries 45, 46 and 110. -/
def Obligations.PowerAndEnergy : Prop :=
   (∀ (s : State) (cluster ready : Nat), s.Booted → cluster < 144 →
      let x := s.slope cluster
      (s.pkg.cycleOf cluster < 64 * (x.windows + 1) → exec (.slopeWindow cluster ready) s = .next s) ∧
      (64 * (x.windows + 1) ≤ s.pkg.cycleOf cluster → x.last ≤ 64 → x.steps ≤ s.pkg.windowTop cluster →
        ∃ (t : State) (y : Slope) (q : Pkg), exec (.slopeWindow cluster ready) s = .next t ∧ t.slope cluster = y ∧
          y.last ≤ x.last + x.active ∧ x.last ≤ y.last + x.active ∧ y.last ≤ 64 ∧ y.shims ≤ y.last ∧ y.steps = 0 ∧
          x.steps ≤ y.last - y.shims ∧ y.last - y.shims ≤ x.steps + x.owed + ready ∧ y.last - y.shims ≤ s.stepCeiling cluster ∧
          y.active = x.step ∧ y.step = x.step ∧ y.windows = x.windows + 1 ∧ y.payer = y.charged ∧
          (y.shims ≠ 0 → y.last + x.active = x.last) ∧
          q.ctxs = s.pkg.ctxs ∧ q.strands = s.pkg.strands ∧ q.mem = s.pkg.mem ∧
          (y.shims = 0 ∨ x.payer.or y.charged = none → t.pkg = q) ∧
          (∀ cid, y.shims ≠ 0 → x.payer.or y.charged = some cid → t.pkg = q.chargeEnergy cid (Config.shimEnergy y.shims)) ∧
          (∀ k, k ≠ cluster → t.slope k = s.slope k) ∧ t.power = s.power ∧ t.plat = s.plat)) ∧
   (∀ (s : State), s.Booted → 950 ≤ s.power.ceiling →
      (∀ package functions, s.pkg.time < 10000 * (s.power.samples + 1) →
        exec (.powerMeterSample package functions) s = .next s) ∧
      (∀ package functions, 10000 * (s.power.samples + 1) ≤ s.pkg.time →
        ∃ t : State, exec (.powerMeterSample package functions) s = .next t ∧ t.power.samples = s.power.samples + 1 ∧
        (let l := (package :: s.power.packageWatts).take 100
         let limit := s.power.packageLimit * l.length
         t.power.packageWatts = l ∧
         (limit < l.sum → t.power.ceiling ≤ s.power.ceiling ∧ 950 ≤ t.power.ceiling ∧
          (950 < s.power.ceiling → t.power.ceiling < s.power.ceiling) ∧ t.power.calmSamples = 0) ∧
         (l.sum ≤ limit → t.power.ceiling = s.power.ceiling ∧
          t.power.calmSamples = if 100 * l.sum ≤ 95 * limit then s.power.calmSamples + 1 else 0)) ∧
        (∀ vf w, functions[vf]? = some w → vf < 8 →
          let l := (w :: s.power.functionWatts.get vf []).take 100
          let limit := s.functionLimit vf * l.length
          let old := s.power.functionClocks.get vf 1300
          let clock := min t.power.ceiling old
          t.power.functionWatts.get vf [] = l ∧
          (l.sum ≤ limit → t.power.functionClocks.get vf 1300 = old ∧
            t.pkg.stepCeilings.get vf 64 = s.pkg.stepCeilings.get vf 64) ∧
          (limit < l.sum → 950 < clock →
            950 ≤ t.power.functionClocks.get vf 1300 ∧ t.power.functionClocks.get vf 1300 < clock) ∧
          (limit < l.sum → clock ≤ 950 → 8 < s.pkg.stepCeilings.get vf 64 →
            8 ≤ t.pkg.stepCeilings.get vf 64 ∧ t.pkg.stepCeilings.get vf 64 < s.pkg.stepCeilings.get vf 64)) ∧
        t.power.packageLimit = s.power.packageLimit ∧ t.pkg.slopes = s.pkg.slopes) ∧
      (∀ ceiling, 1000 ≤ s.power.calmSamples → s.power.ceiling < ceiling → ceiling ≤ 1300 →
        ∃ t : State, exec (.returnToNominal ceiling) s = .next t ∧ t.power = { s.power with ceiling := ceiling, calmSamples := 0 }) ∧
      (∀ ceiling, s.power.calmSamples < 1000 → exec (.returnToNominal ceiling) s = .next s) ∧
      (∀ temps, ∃ t : State, exec (.hbmTempReading temps) s = .next t ∧
        ∀ stack (x : Int), temps[stack]? = some x → stack < 12 →
          let old := s.power.levels.get stack 0
          t.power.levels.get stack 0 =
            if 95 ≤ x then 2 else if 90 ≤ x ∧ old = 2 then 2 else if 85 ≤ x then 1 else if 80 ≤ x ∧ 1 ≤ old then 1 else 0)) ∧
   (∀ (s : State), s.Booted →
      let metered (cid : Nat) : Nat := (((List.range 144).filter fun k => s.pkg.chargeOf k == some cid).map fun k =>
        (s.pkg.clusters.get k {}).meter).sum
      (∀ charges, s.pkg.time < s.power.intervalStart + s.power.interval → exec (.energyInterval charges) s = .next s) ∧
      (∀ charges, s.power.intervalStart + s.power.interval ≤ s.pkg.time →
        ∃ t : State, exec (.energyInterval charges) s = .next t ∧
        t.power = { s.power with intervalStart := s.power.intervalStart + s.power.interval } ∧
        (∀ cid c, s.pkg.ctxs.get? cid = some c →
          let charged := c.charge + metered cid + ((charges.filter fun e => e.1 == cid).map (·.2)).sum
          let quota := crQuota c.record
          let debt := if quota = 0 then 0 else charged - quota
          t.pkg.ctxs.get? cid = some { c with charge := debt, debt := debt, exhausted := decide (quota ≠ 0 ∧ quota ≤ debt) }) ∧
        (∀ sid st, s.pkg.strand? sid = some st → t.pkg.strand? sid = some
          (if st.park = some .energy ∧ t.pkg.isExhausted (sidCtx sid) = false then { st with park := none } else st)) ∧
        (∀ k cid, k < 144 → s.pkg.chargeOf k = some cid → (t.pkg.clusters.get k {}).meter = 0) ∧ t.pkg.mem = s.pkg.mem) ∧
      (∀ cid charge c, s.pkg.ctxs.get? cid = some c → c.exhausted = false →
        let total := c.charge + metered cid + charge
        (crQuota c.record ≠ 0 → crQuota c.record ≤ total →
          ∃ t : State, exec (.energyExhausted cid charge) s = .next t ∧ t.pkg.isExhausted cid = true ∧
            ((t.pkg.ctxs.get? cid).map (·.charge) = some total) ∧
            (∀ sid st, s.pkg.strand? sid = some st → sidCtx sid = cid → s.pkg.isResident sid = true → st.park = none →
              st.finished = false → st.ended = false → t.pkg.strand? sid = some { st with park := some .energy }) ∧
            ∀ a, (a < c.saveArea + 28 ∨ c.saveArea + 32 ≤ a) → isAliasPa c.saveArea = false → c.saveArea % 128 = 0 →
              s.pkg.regions = [] → noRace s.pkg (c.saveArea + 28) 4 a → t.pkg.mem.read a = s.pkg.mem.read a) ∧
        ((crQuota c.record = 0 ∨ total < crQuota c.record) →
          ∃ t : State, exec (.energyExhausted cid charge) s = .next t ∧ t.pkg.ctxs.get? cid = some { c with charge := total } ∧
            t.pkg.strands = s.pkg.strands ∧ t.pkg.mem = s.pkg.mem)))

/-- R327, R371, R381, R399, R400, R405, R409: a setting within its legal range takes effect, and one outside it changes nothing. A
change of the power limits or of the shares extends M3, and a setting that changes none of them does not. -/
def Obligations.Settings : Prop :=
  ∀ (s : State),
    (∀ cluster step, exec (.setSlopeStep cluster step) s = .next
      (if cluster < 144 ∧ 1 ≤ step ∧ step ≤ 64 then
        { s with pkg := { s.pkg with slopes := s.pkg.slopes.set cluster { s.slope cluster with step := step } } }
      else s)) ∧
    (∀ package functions,
      (1200 ≤ package ∧ package ≤ 2400 ∧ functions.length = 8 ∧ (∀ w ∈ functions, 100 ≤ w ∧ w ≤ 2400) →
        ∃ t : State, exec (.setPowerLimits package functions) s = .next t ∧ t.power.packageLimit = package ∧
          (∀ vf w, functions[vf]? = some w → t.functionLimit vf = w) ∧ t.power.ceiling = s.power.ceiling ∧ t.pkg = s.pkg ∧
          (let same := package = s.power.packageLimit ∧ ∀ vf w, functions[vf]? = some w → s.functionLimit vf = w
           (same → t.plat = s.plat) ∧ (¬ same → t.plat = s.extendM3.plat))) ∧
      (¬ (1200 ≤ package ∧ package ≤ 2400 ∧ functions.length = 8 ∧ (∀ w ∈ functions, 100 ≤ w ∧ w ≤ 2400)) →
        exec (.setPowerLimits package functions) s = .next s)) ∧
    (∀ ns, exec (.setAccountingInterval ns) s = .next
      (if 100000 ≤ ns ∧ ns ≤ 10000000 then { s with power := { s.power with interval := ns } } else s)) ∧
    (∀ priority, exec (.setFramingPriority priority) s = .next
      (if priority < 256 then { s with pkg := { s.pkg with framingPriority := priority } } else s)) ∧
    (∀ vf fabric hbm, s.Booted →
      let fits := vf < 8 ∧ hbm.length = 12 ∧
        shareTotal (fun v => if v = vf then fabric else s.fabricShare v) ≤ 64 ∧
        ∀ stack x, hbm[stack]? = some x → shareTotal (fun v => if v = vf then x else s.hbmShare v stack) ≤ 64
      (fits → ∃ t : State, exec (.setShares vf fabric hbm) s = .next t ∧ t.fabricShare vf = fabric ∧
        (∀ stack x, hbm[stack]? = some x → t.hbmShare vf stack = x) ∧
        (∀ v, v ≠ vf → t.fabricShare v = s.fabricShare v ∧ ∀ stack, stack < 12 → t.hbmShare v stack = s.hbmShare v stack) ∧
        t.pkg = s.pkg ∧
        (let same := fabric = s.fabricShare vf ∧ ∀ stack x, hbm[stack]? = some x → s.hbmShare vf stack = x
         (same → t.plat = s.plat) ∧ (¬ same → t.plat = s.extendM3.plat))) ∧
      (¬ fits → exec (.setShares vf fabric hbm) s = .next s))

/-! ### Reset, links, management and the application cores -/

/-- R408 to R410, R414: PACKAGE_RESET leaves the package as after reset, but for the fuses and the corrected-error counts, and
boots: where the image of every stage passes its checks, staged images first, all four stages run and each is measured; at
the first stage that fails the boot stops, and the package answers on the management interface alone. The strap is sampled; the
identity key is the fused secret's, and certifies the attestation key of this boot.

R16, R319, R413 to R415: links train, firmware is staged, reports are sent, and the application cores load and store
package HBM.

R7: a write of a register of the field maps sets its writable fields, and an illegal value or a read-only register
changes nothing.

The model's own choices in it: log entries 10, 12, 13, 53, 62 and 94. -/
def Obligations.PlatformAndRegisters : Prop :=
   (∀ (s : State) (flash : List BootImage),
      let images := s.plat.staged.reverse ++ flash
      let image (stage : Nat) : Option BootImage := images.find? fun i => i.stage == stage
      let sound (stage : Nat) : Prop := ∃ i, image stage = some i ∧ s.soundImage stage i = true
      ∃ t : State, exec (.packageReset flash) s = .next t ∧ t.pkg = { fresh := s.pkg.fresh } ∧ t.power = {} ∧
        t.agenda = s.agenda ∧ t.plat.boots = s.plat.boots + 1 ∧ t.plat.rollback = s.plat.rollback ∧
        t.plat.ownerKey = s.plat.ownerKey ∧ t.plat.staged = [] ∧ t.plat.corrected = s.plat.corrected ∧
        t.plat.strap = s.plat.strap ∧ t.plat.rootPort = s.plat.strap ∧ t.plat.pcie = none ∧
        t.plat.identityKey = Config.identityKey Config.fusedSecret ∧
        t.plat.attestationKey = Config.attestationKey (s.plat.boots + 1) ∧
        t.plat.certificate = Config.falconSign t.plat.identityKey (Config.falconPublic t.plat.attestationKey) ∧
        ((∀ stage, stage < 4 → sound stage) → t.plat.booted = 4 ∧ t.plat.bootFailed = none ∧ t.Booted ∧
          ∀ stage i, stage < 4 → image stage = some i → t.plat.measurements.get stage (List.replicate 64 0) =
            shake256 (List.replicate 64 0 ++ shake256 i.bytes 64) 64) ∧
        (∀ stage, stage < 4 → (∀ k, k < stage → sound k) → ¬ sound stage → t.plat.booted = stage ∧
          t.plat.bootFailed = some stage ∧ ¬ t.Booted ∧ Msg.bootFailed stage ∈ t.plat.reports)) ∧
   (∀ (s : State),
      (∀ image, exec (.pldmFirmwareStage image) s =
        .next { s with plat := { s.plat with staged := s.plat.staged ++ [image] } }) ∧
      (∀ unit, exec (.errorCountRead unit) s = .next { s with
        plat := { s.plat with reports := s.plat.reports ++ [.errorCounts unit (s.plat.corrected.get unit 0)] } }) ∧
      (∀ vf nonce, vf < 8 → exec (.spdmAttestation vf nonce) s = .next { s with
        plat := { s.plat with reports := s.plat.reports ++ [.attestation (s.attestation vf (leBytes 64 nonce.toNat))] } }) ∧
      (s.Booted →
        (∀ rootPort rate width, rate ∈ [25, 50, 80, 160, 320, 640, 1280] → width ∈ [1, 2, 4, 8, 16] →
          exec (.pcieLinkTrain rootPort rate width) s = .next
            (if rootPort = s.plat.rootPort then
              { s with plat := { s.plat with pcie := some (rootPort, rate, width) } } else s)) ∧
        (∀ port yardPort, port < 48 → yardPort < 512 → ∃ t : State, exec (.fabricLinkTrain port yardPort) s = .next t ∧
          t.pkg = { s.pkg with yardPort := yardPort, planesDown := s.pkg.planesDown.filter (fun n => n != port) } ∧
          port ∈ t.plat.trainedPorts ∧ t.power = s.power) ∧
        (∀ pa n atomic, pa + n ≤ hbmTop → isAliasPa pa = false →
          exec (.applicationCoreAccess (.load pa n atomic)) s = .next { s with
            pkg := { s.pkg with hostLoads := s.pkg.hostLoads ++ [(pa, s.pkg.mem.readBytes pa n)] } }) ∧
        (∀ pa data atomic, data ≠ [] → pa % 128 + data.length ≤ 128 → pa + data.length ≤ hbmTop →
          exec (.applicationCoreAccess (.store pa data atomic)) s = .next { s with pkg := s.pkg.writeL2 none pa data }))) ∧
   (∀ (s : State) (value : DWord), s.Booted →
      (∀ sid lane st, s.pkg.strand? sid = some st → lane < 96 → ∃ (t : State) (u : Strand),
        exec (.registerWrite (.cf sid lane) value) s = .next t ∧ t.pkg.strand? sid = some u ∧
        u.cfAt lane = value.setWidth 32 &&& 0x7FFF ∧ (∀ j, j < 96 → j ≠ lane → u.cfAt j = st.cfAt j) ∧ u.v = st.v ∧
        u.mode = st.mode ∧ u.em = st.em) ∧
      (∀ sid st, s.pkg.strand? sid = some st →
        exec (.registerWrite (.mode sid) value) s = .next (s.withStrand sid
          (if modeLegal st.nregs (value &&& modeMask) then { st with mode := value &&& modeMask } else st))) ∧
      (∀ cluster, exec (.registerWrite (.slope cluster) value) s = exec (.setSlopeStep cluster (value.toNat % 128)) s) ∧
      (∀ bent, exec (.registerWrite (.matrixStatus bent) value) s = .next s))

/-! ### Encoding, the step, reset and the invariants -/

/-- R162, R166, R180: words written out from the spec's encodings decode to the instructions they stand for. -/
def Obligations.DecodeWords : Prop :=
  decodeTableWord 32 0x27000380 = some (.addw 0 0 112 false false false) ∧
  decodeTableWord 32 0xD2019390 = some (.brnz 0 100 114 false false false) ∧
  decodeTableWord 32 0xD6000000 = some (.exit 0 0 0 false false false) ∧
  decodeTableWord 32 0xDB01DE00 = some (.trapPark 0 119 false false false) ∧
  decodeTableWord 32 0xDC000008 = some (.rte 0 0 1 false false false) ∧
  decodeTableWord 32 0xE1060008 = some (.mmaz 3 0 1 false false false) ∧
  decodeTableWord 32 0xE8000018 = some (.accwait 0 0 3 false false false) ∧
  decodeTableWord 32 0xB5040008 = some (.swadd 2 0 1 false false false) ∧
  decodeTableWord 32 0xC0280080 = some (.cpq 20 0 16 false false false) ∧
  decodeTableWord 32 0xF180003C = none ∧ decodeTableWord 32 0xFC000000 = none ∧ decodeTableWord 32 0xAD000000 = none

/-- R162, R180: the encoder and the decoder agree. Every well-formed instruction that has a code word decodes from that word,
with every operand field and every reserved bit as it was, and with the bytes after it left over; and a word that decodes
is the word of its instruction. -/
def Obligations.DecodeAndEncodeAgree : Prop :=
  (∀ (i : Instr) (w : Word) (rest : List Byte), i.wf = true → encode i = some w →
    decode (wordBytes w ++ rest) = .ok (i, rest)) ∧
  (∀ (w : Word) (i : Instr) (rest left : List Byte), decode (wordBytes w ++ rest) = .ok (i, left) →
    encode i = some w ∧ i.wf = true ∧ left = rest)

/-- R6, R48, R162, R169, R378: a step lets time pass and performs one turn, after which the caches are within their sizes. In a
turn of a strand that executes, the word at its instruction decodes to an instruction, and the step is exec of it by that
strand, whose cluster meters its energy; in a turn of an event, exec of the event, or of a host command as its queue has it. A
raising whose time has come goes before the turn, which then waits.

The model's own choices in it: log entries 4 and 46. -/
def Obligations.AStepRunsTheDecodedInstruction : Prop :=
  ∀ (s : State) (turn : Turn) (rest : List Turn), s.agenda = turn :: rest →
    let now := State.advance { s with agenda := rest } turn.ns turn.mhz
    (∀ e, now.dueRaising = some e →
      step s = endStep (State.raiseTurn { now with agenda := { turn with ns := 0 } :: rest } e)) ∧
    (now.dueRaising = none →
    (∀ sid st i left, turn.act = .run sid → now.pkg.strand? sid = some st → now.pkg.mayRun sid st = true →
      now.pkg.isExhausted (sidCtx sid) = false → decode (wordBytes (st.words.getD st.slot 0)) = .ok (i, left) →
      let energy := Config.instrEnergy now.pkg.fresh (wordOpcode (st.words.getD st.slot 0))
      let runs : State := { now with pkg := { now.pkg.updCluster (sidCluster sid) (fun c => { c with meter := c.meter + energy }) with
        cur := some sid } }
      step s = endStep (exec i runs) ∧
      (∀ (d a b : Field) op x, State.Admits runs op d a b x → x.sid = sid ∧ x.st = st)) ∧
    step s = endStep (now.perform turn.act) ∧
    (∀ i, turn.act = .event i → encode i = none → Pkg.hostCommand i = none → step s = endStep (exec i now)) ∧
    (∀ i w, turn.act = .event i → encode i = some w → step s = .next now.fitCaches) ∧
    (∀ sid st, turn.act = .run sid → now.pkg.strand? sid = some st → now.pkg.mayRun sid st = true →
      now.pkg.isExhausted (sidCtx sid) = true →
      step s = .next (State.fitCaches { now with pkg := now.pkg.energyPark sid })) ∧
    (∀ unit, turn.act = .corrected unit → step s = .next (State.fitCaches { now with
      plat := { now.plat with corrected := now.plat.corrected.set unit (now.plat.corrected.get unit 0 + 1) } })))

/-- R148, R174, R327, R371, R399, R400, R405, R408, R409: what reset leaves, the model's own choices (a generation of 0 and
empty memory, log entries 1 and 2) among it. -/
def Obligations.ResetValues : Prop :=
  let s := State.reset
  (∀ m, m < 4 → s.plat.measurements.get m (List.replicate 64 0) = List.replicate 64 0) ∧ ¬ s.Booted ∧
  (∀ vf, vf < 8 → (s.pkg.vfs.get vf {}).devWin = [] ∧ s.functionLimit vf = 300 ∧ s.fabricShare vf = 8 ∧
    ∀ stack, stack < 12 → s.hbmShare vf stack = 8) ∧
  (∀ cluster, (s.slope cluster).step = 4) ∧ s.power.packageLimit = 2400 ∧ s.power.interval = 1000000 ∧
  s.power.ceiling = 1300 ∧ s.pkg.strands = [] ∧ s.pkg.ctxs = [] ∧ s.pkg.regions = [] ∧ s.pkg.mem = [] ∧ s.pkg.time = 0 ∧
  bits modeReset.toNat 42 32 = 40 ∧ bits modeReset.toNat 45 43 = 4 ∧ bits modeReset.toNat 31 28 = 2 ∧
  (∀ i, i < 28 → modeReset.getLsbD i = false) ∧ (∀ i, 46 ≤ i → modeReset.getLsbD i = false) ∧
  s.pkg.mem.Canonical ∧ s.pkg.hostMem.Canonical

/-- The limits that management and the governors keep hold after reset (R21, R327, R371, R396, R399, R400, R405, R406). -/
def Obligations.LimitsHoldAtReset : Prop :=
 State.reset.PowerLegal

/-- R21, R327, R371, R396, R399, R400, R405, R406: every step keeps the limits: the steps of every slope register and window
within 1 to 64 and at most 64, the power limits and clock ceilings in their ranges, no step ceiling below 8, thermal levels
0 to 2, the accounting interval in its range, and no resource shared out beyond 64 parts of 64. Every step keeps the canonical
form of package HBM, too.

The model's own choices in it: log entries 1 and 45. -/
def Obligations.EveryStepKeepsTheLimits : Prop :=
  ∀ (s t : State), step s = .next t →
    (s.PowerLegal → t.PowerLegal) ∧ (s.pkg.mem.Canonical → t.pkg.mem.Canonical)

/-- Each of the operations named here keeps the canonical form of package HBM, so that equal memories are equal data: the stores,
atomics and sweeps of strands, the writes of engines, copies and Amiah, the table walk and the mapping of pages, the save area, the
writing back of alias lines and the zero-filling of a frame. That a step keeps it is a statement of its own.

The model's own choices in it: log entry 1. -/
def Obligations.StoresKeepTheCanonicalForm : Prop :=
  ∀ (p : Pkg), p.mem.Canonical →
    (∀ who pa data, (p.writeL2 who pa data).mem.Canonical) ∧
    (∀ who engine l data, (p.writeLoc who engine l data).mem.Canonical) ∧
    (∀ line, (p.evictAlias line).mem.Canonical) ∧
    (∀ f, (p.zeroFrame f).mem.Canonical) ∧
    (∀ port cid elastic va need, (p.walk port cid elastic va need).1.mem.Canonical) ∧
    (∀ sid policy accs, (p.doStores sid policy accs).mem.Canonical) ∧
    (∀ sid code wide accs, (p.doAtomics sid code wide accs).mem.Canonical) ∧
    (∀ sid accs, (p.doCas sid accs).mem.Canonical) ∧
    (∀ who n l, (p.writeEach who n l).mem.Canonical) ∧
    (∀ h data l, (p.performAt h data l).mem.Canonical) ∧
    (∀ l fmt red data n, (p.doReduce l fmt red data n).mem.Canonical) ∧
    (∀ l n, (p.addCounter l n).mem.Canonical) ∧
    (∀ key upto, (p.reveal key upto).mem.Canonical) ∧
    (∀ id, (p.copyLine id).mem.Canonical) ∧
    (∀ cid va data, (p.amiahWrite cid va data).1.mem.Canonical) ∧
    (∀ tree, (p.writeRecord tree).1.mem.Canonical) ∧
    (∀ cid va frames, (p.mapPage cid va frames).1.mem.Canonical) ∧
    (∀ cid x, (p.writeImage cid x).mem.Canonical) ∧
    (∀ cid l, (p.writeRegions cid l).mem.Canonical) ∧
    (∀ restore clusters, (p.saveClusters restore clusters).mem.Canonical) ∧
    (∀ (m : Mem) (a : Nat) (b : Byte), m.Canonical → (m.write a b).Canonical ∧ (m.write a b).read a = b ∧
      ∀ c, c ≠ a → (m.write a b).read c = m.read c) ∧
    (∀ m n : Mem, m.Canonical → n.Canonical → (∀ a, m.read a = n.read a) → m = n)
end

