-- ==== Sys2Proof/Laws/Map.lean ====
section
/-!
SUPPORT. The laws of the finite maps: reading after writing, writing twice, what a write adds, removing a key.
-/
namespace Sys2Proof.Machine.AMap

variable {α β : Type}

@[simp] theorem get?_nil (i : Nat) : get? ([] : AMap α) i = none := rfl

/-- A map read at the key just written answers the value written. -/
@[simp] theorem get?_set_self (m : AMap α) (i : Nat) (x : α) : get? (set m i x) i = some x := by
  induction m with
  | nil => simp [set, get?]
  | cons e m ih =>
    obtain ⟨k, v⟩ := e
    simp only [set]
    split
    · simp [get?]
    · split
      · simp [get?]
      · simp [get?, *]

/-- A write leaves the other keys alone. -/
theorem get?_set_ne (m : AMap α) (i j : Nat) (x : α) (h : j ≠ i) : get? (set m i x) j = get? m j := by
  induction m with
  | nil => simp [set, get?, Ne.symm h]
  | cons e m ih =>
    obtain ⟨k, v⟩ := e
    simp only [set]
    split
    · simp [get?, Ne.symm h]
    · split
      · subst_vars
        simp [get?, Ne.symm h]
      · simp [get?, ih]

/-- Reading after writing, both ways. -/
theorem get?_set (m : AMap α) (i j : Nat) (x : α) : get? (set m i x) j = if j = i then some x else get? m j := by
  split
  · subst_vars; exact get?_set_self ..
  · exact get?_set_ne _ _ _ _ ‹_›

@[simp] theorem get_set_self (m : AMap α) (i : Nat) (x d : α) : (set m i x).get i d = x := by simp [get]

theorem get_set_ne (m : AMap α) (i j : Nat) (x d : α) (h : j ≠ i) : (set m i x).get j d = m.get j d := by
  simp [get, get?_set_ne _ _ _ _ h]

theorem get_set (m : AMap α) (i j : Nat) (x d : α) : (set m i x).get j d = if j = i then x else m.get j d := by
  simp only [get, get?_set]; split <;> rfl

/-- The second of two writes of one key stands. -/
@[simp] theorem set_set (m : AMap α) (i : Nat) (x y : α) : set (set m i x) i y = set m i y := by
  induction m with
  | nil => simp [set]
  | cons e m ih =>
    obtain ⟨k, v⟩ := e
    by_cases h : i < k
    · simp [set, h]
    · by_cases hk : k = i
      · simp [set, hk]
      · simp [set, h, hk, ih]

/-- Writing back the value that is there changes nothing where the key heads no earlier pair. -/
theorem update_of_get? (m : AMap α) (i : Nat) (f : α → α) (v : α) (h : get? m i = some v) :
    update m i f = set m i (f v) := by simp [update, h]

theorem update_of_none (m : AMap α) (i : Nat) (f : α → α) (h : get? m i = none) : update m i f = m := by
  simp [update, h]

/-- A change of a key just written. -/
@[simp] theorem update_set_self (m : AMap α) (i : Nat) (x : α) (f : α → α) : update (set m i x) i f = set m i (f x) := by
  simp [update]

/-- Two changes of one key, one after the other. -/
@[simp] theorem update_update (m : AMap α) (i : Nat) (f g : α → α) : update (update m i f) i g = update m i fun x => g (f x) := by
  cases h : get? m i with
  | none => simp [update_of_none _ _ _ h]
  | some v => simp [update_of_get? _ _ _ _ h]

theorem get?_update_self (m : AMap α) (i : Nat) (f : α → α) : get? (update m i f) i = (get? m i).map f := by
  unfold update
  split
  · simp [*]
  · simp [*]

theorem get?_update_ne (m : AMap α) (i j : Nat) (f : α → α) (h : j ≠ i) : get? (update m i f) j = get? m j := by
  unfold update
  split
  · exact get?_set_ne _ _ _ _ h
  · rfl

/-- Every pair of a written map is the one written or an old one. -/
theorem mem_set (m : AMap α) (i : Nat) (x : α) (e : Nat × α) (h : e ∈ set m i x) : e = (i, x) ∨ e ∈ m := by
  induction m with
  | nil => simpa [set] using h
  | cons c m ih =>
    obtain ⟨k, v⟩ := c
    simp only [set] at h
    split at h
    · simpa using h
    · split at h
      · rcases List.mem_cons.1 h with h | h
        · exact .inl h
        · exact .inr (List.mem_cons_of_mem _ h)
      · rcases List.mem_cons.1 h with h | h
        · exact .inr (h ▸ List.mem_cons_self)
        · rcases ih h with h | h
          · exact .inl h
          · exact .inr (List.mem_cons_of_mem _ h)

/-- A value that a map answers is in one of its pairs. -/
theorem mem_of_get? (m : AMap α) (i : Nat) (x : α) (h : get? m i = some x) : (i, x) ∈ m := by
  induction m with
  | nil => simp at h
  | cons c m ih =>
    obtain ⟨k, v⟩ := c
    simp only [get?] at h
    split at h
    · simp_all
    · exact List.mem_cons_of_mem _ (ih h)

/-- A property of every value listed passes to a value read, when the default has it too. -/
theorem get_of_forall (m : AMap α) (i : Nat) (d : α) (P : α → Prop) (hm : ∀ e ∈ m, P e.2) (hd : P d) : P (m.get i d) := by
  unfold get
  cases h : get? m i with
  | none => exact hd
  | some v => exact hm _ (mem_of_get? m i v h)

/-- A property of every value listed is kept by a write of a value that has it. -/
theorem forall_set (m : AMap α) (i : Nat) (x : α) (P : α → Prop) (hm : ∀ e ∈ m, P e.2) (hx : P x) :
    ∀ e ∈ set m i x, P e.2 := by
  intro e h
  rcases mem_set m i x e h with rfl | h
  · exact hx
  · exact hm e h

theorem get?_mapVals (m : AMap α) (f : Nat → α → β) (i : Nat) : get? (mapVals m f) i = (get? m i).map (f i) := by
  induction m with
  | nil => rfl
  | cons e m ih =>
    obtain ⟨k, v⟩ := e
    simp only [mapVals, List.map_cons, get?] at ih ⊢
    split
    · subst_vars; rfl
    · exact ih

theorem get?_erase_self (m : AMap α) (i : Nat) : get? (erase m i) i = none := by
  induction m with
  | nil => rfl
  | cons e m ih =>
    obtain ⟨k, v⟩ := e
    simp only [erase, List.filter_cons] at ih ⊢
    split
    · rename_i h
      simp only [bne_iff_ne, ne_eq] at h
      simp [get?, h, ih]
    · exact ih

theorem get?_erase_ne (m : AMap α) (i j : Nat) (h : j ≠ i) : get? (erase m i) j = get? m j := by
  induction m with
  | nil => rfl
  | cons e m ih =>
    obtain ⟨k, v⟩ := e
    simp only [erase, List.filter_cons] at ih ⊢
    split
    · simp only [get?, ih]
    · rename_i h'
      have : k = i := by simpa using h'
      subst this
      simp [get?, Ne.symm h, ih]

/-- The value of a tabulated key. -/
theorem get?_tabulate (n : Nat) (f : Nat → α) (j : Nat) : get? (tabulate n f) j = if j < n then some (f j) else none := by
  unfold tabulate
  induction n with
  | zero => rfl
  | succ n ih =>
    have app : ∀ (l₁ l₂ : AMap α), get? (l₁ ++ l₂) j = (get? l₁ j).or (get? l₂ j) := by
      intro l₁ l₂
      induction l₁ with
      | nil => simp
      | cons e l ih =>
        obtain ⟨k, v⟩ := e
        simp only [List.cons_append, get?]
        split
        · simp
        · exact ih
    rw [List.range_succ, List.map_append, app, ih]
    by_cases h : j < n
    · simp [h, Nat.lt_succ_of_lt h]
    · by_cases hj : j = n
      · subst hj; simp [get?]
      · simp [get?, h, Ne.symm hj, show ¬ j < n + 1 by omega]

end Sys2Proof.Machine.AMap
end

