-- ==== Sys2Proof/Laws/State.lean ====
section
/-!
SUPPORT. What each named update of the package and of the state leaves in every field.
-/
set_option Elab.async false

namespace Sys2Proof.Machine

/-! ### Pkg.setStrand -/

@[simp] theorem Pkg.setStrand_cur (p : Pkg) (sid : Nat) (st : Strand) : (p.setStrand sid st).cur = p.cur := rfl
@[simp] theorem Pkg.setStrand_fresh (p : Pkg) (sid : Nat) (st : Strand) : (p.setStrand sid st).fresh = p.fresh := rfl
@[simp] theorem Pkg.setStrand_time (p : Pkg) (sid : Nat) (st : Strand) : (p.setStrand sid st).time = p.time := rfl
@[simp] theorem Pkg.setStrand_phases (p : Pkg) (sid : Nat) (st : Strand) : (p.setStrand sid st).phases = p.phases := rfl
@[simp] theorem Pkg.setStrand_issues (p : Pkg) (sid : Nat) (st : Strand) : (p.setStrand sid st).issues = p.issues := rfl
@[simp] theorem Pkg.setStrand_nextId (p : Pkg) (sid : Nat) (st : Strand) : (p.setStrand sid st).nextId = p.nextId := rfl
@[simp] theorem Pkg.setStrand_strands (p : Pkg) (sid : Nat) (st : Strand) : (p.setStrand sid st).strands = p.strands.set sid st := rfl
@[simp] theorem Pkg.setStrand_bents (p : Pkg) (sid : Nat) (st : Strand) : (p.setStrand sid st).bents = p.bents := rfl
@[simp] theorem Pkg.setStrand_launches (p : Pkg) (sid : Nat) (st : Strand) : (p.setStrand sid st).launches = p.launches := rfl
@[simp] theorem Pkg.setStrand_trees (p : Pkg) (sid : Nat) (st : Strand) : (p.setStrand sid st).trees = p.trees := rfl
@[simp] theorem Pkg.setStrand_ctxs (p : Pkg) (sid : Nat) (st : Strand) : (p.setStrand sid st).ctxs = p.ctxs := rfl
@[simp] theorem Pkg.setStrand_clusters (p : Pkg) (sid : Nat) (st : Strand) : (p.setStrand sid st).clusters = p.clusters := rfl
@[simp] theorem Pkg.setStrand_vfs (p : Pkg) (sid : Nat) (st : Strand) : (p.setStrand sid st).vfs = p.vfs := rfl
@[simp] theorem Pkg.setStrand_cores (p : Pkg) (sid : Nat) (st : Strand) : (p.setStrand sid st).cores = p.cores := rfl
@[simp] theorem Pkg.setStrand_mem (p : Pkg) (sid : Nat) (st : Strand) : (p.setStrand sid st).mem = p.mem := rfl
@[simp] theorem Pkg.setStrand_hostMem (p : Pkg) (sid : Nat) (st : Strand) : (p.setStrand sid st).hostMem = p.hostMem := rfl
@[simp] theorem Pkg.setStrand_badLines (p : Pkg) (sid : Nat) (st : Strand) : (p.setStrand sid st).badLines = p.badLines := rfl
@[simp] theorem Pkg.setStrand_badSpots (p : Pkg) (sid : Nat) (st : Strand) : (p.setStrand sid st).badSpots = p.badSpots := rfl
@[simp] theorem Pkg.setStrand_l1 (p : Pkg) (sid : Nat) (st : Strand) : (p.setStrand sid st).l1 = p.l1 := rfl
@[simp] theorem Pkg.setStrand_owner (p : Pkg) (sid : Nat) (st : Strand) : (p.setStrand sid st).owner = p.owner := rfl
@[simp] theorem Pkg.setStrand_pinned (p : Pkg) (sid : Nat) (st : Strand) : (p.setStrand sid st).pinned = p.pinned := rfl
@[simp] theorem Pkg.setStrand_tlb (p : Pkg) (sid : Nat) (st : Strand) : (p.setStrand sid st).tlb = p.tlb := rfl
@[simp] theorem Pkg.setStrand_invalidations (p : Pkg) (sid : Nat) (st : Strand) : (p.setStrand sid st).invalidations = p.invalidations := rfl
@[simp] theorem Pkg.setStrand_frameKeys (p : Pkg) (sid : Nat) (st : Strand) : (p.setStrand sid st).frameKeys = p.frameKeys := rfl
@[simp] theorem Pkg.setStrand_keyVf (p : Pkg) (sid : Nat) (st : Strand) : (p.setStrand sid st).keyVf = p.keyVf := rfl
@[simp] theorem Pkg.setStrand_regions (p : Pkg) (sid : Nat) (st : Strand) : (p.setStrand sid st).regions = p.regions := rfl
@[simp] theorem Pkg.setStrand_aliasLines (p : Pkg) (sid : Nat) (st : Strand) : (p.setStrand sid st).aliasLines = p.aliasLines := rfl
@[simp] theorem Pkg.setStrand_devWrites (p : Pkg) (sid : Nat) (st : Strand) : (p.setStrand sid st).devWrites = p.devWrites := rfl
@[simp] theorem Pkg.setStrand_codeBefore (p : Pkg) (sid : Nat) (st : Strand) : (p.setStrand sid st).codeBefore = p.codeBefore := rfl
@[simp] theorem Pkg.setStrand_owedEnds (p : Pkg) (sid : Nat) (st : Strand) : (p.setStrand sid st).owedEnds = p.owedEnds := rfl
@[simp] theorem Pkg.setStrand_slopes (p : Pkg) (sid : Nat) (st : Strand) : (p.setStrand sid st).slopes = p.slopes := rfl
@[simp] theorem Pkg.setStrand_stepCeilings (p : Pkg) (sid : Nat) (st : Strand) : (p.setStrand sid st).stepCeilings = p.stepCeilings := rfl
@[simp] theorem Pkg.setStrand_hostRing (p : Pkg) (sid : Nat) (st : Strand) : (p.setStrand sid st).hostRing = p.hostRing := rfl
@[simp] theorem Pkg.setStrand_outOfStep (p : Pkg) (sid : Nat) (st : Strand) : (p.setStrand sid st).outOfStep = p.outOfStep := rfl
@[simp] theorem Pkg.setStrand_chains (p : Pkg) (sid : Nat) (st : Strand) : (p.setStrand sid st).chains = p.chains := rfl
@[simp] theorem Pkg.setStrand_entries (p : Pkg) (sid : Nat) (st : Strand) : (p.setStrand sid st).entries = p.entries := rfl
@[simp] theorem Pkg.setStrand_sent (p : Pkg) (sid : Nat) (st : Strand) : (p.setStrand sid st).sent = p.sent := rfl
@[simp] theorem Pkg.setStrand_outbox (p : Pkg) (sid : Nat) (st : Strand) : (p.setStrand sid st).outbox = p.outbox := rfl
@[simp] theorem Pkg.setStrand_yardPort (p : Pkg) (sid : Nat) (st : Strand) : (p.setStrand sid st).yardPort = p.yardPort := rfl
@[simp] theorem Pkg.setStrand_planesDown (p : Pkg) (sid : Nat) (st : Strand) : (p.setStrand sid st).planesDown = p.planesDown := rfl
@[simp] theorem Pkg.setStrand_planeFailures (p : Pkg) (sid : Nat) (st : Strand) : (p.setStrand sid st).planeFailures = p.planeFailures := rfl
@[simp] theorem Pkg.setStrand_linkErrors (p : Pkg) (sid : Nat) (st : Strand) : (p.setStrand sid st).linkErrors = p.linkErrors := rfl
@[simp] theorem Pkg.setStrand_raisings (p : Pkg) (sid : Nat) (st : Strand) : (p.setStrand sid st).raisings = p.raisings := rfl
@[simp] theorem Pkg.setStrand_lastRaisingSeq (p : Pkg) (sid : Nat) (st : Strand) : (p.setStrand sid st).lastRaisingSeq = p.lastRaisingSeq := rfl
@[simp] theorem Pkg.setStrand_inStep (p : Pkg) (sid : Nat) (st : Strand) : (p.setStrand sid st).inStep = p.inStep := rfl
@[simp] theorem Pkg.setStrand_goodOffsets (p : Pkg) (sid : Nat) (st : Strand) : (p.setStrand sid st).goodOffsets = p.goodOffsets := rfl
@[simp] theorem Pkg.setStrand_msgs (p : Pkg) (sid : Nat) (st : Strand) : (p.setStrand sid st).msgs = p.msgs := rfl
@[simp] theorem Pkg.setStrand_published (p : Pkg) (sid : Nat) (st : Strand) : (p.setStrand sid st).published = p.published := rfl
@[simp] theorem Pkg.setStrand_framers (p : Pkg) (sid : Nat) (st : Strand) : (p.setStrand sid st).framers = p.framers := rfl
@[simp] theorem Pkg.setStrand_framer (p : Pkg) (sid : Nat) (st : Strand) : (p.setStrand sid st).framer = p.framer := rfl
@[simp] theorem Pkg.setStrand_framingPriority (p : Pkg) (sid : Nat) (st : Strand) : (p.setStrand sid st).framingPriority = p.framingPriority := rfl
@[simp] theorem Pkg.setStrand_ptpStamps (p : Pkg) (sid : Nat) (st : Strand) : (p.setStrand sid st).ptpStamps = p.ptpStamps := rfl
@[simp] theorem Pkg.setStrand_mgmtInbox (p : Pkg) (sid : Nat) (st : Strand) : (p.setStrand sid st).mgmtInbox = p.mgmtInbox := rfl
@[simp] theorem Pkg.setStrand_hostLoads (p : Pkg) (sid : Nat) (st : Strand) : (p.setStrand sid st).hostLoads = p.hostLoads := rfl
@[simp] theorem Pkg.setStrand_images (p : Pkg) (sid : Nat) (st : Strand) : (p.setStrand sid st).images = p.images := rfl

/-! ### Pkg.updStrand -/

@[simp] theorem Pkg.updStrand_cur (p : Pkg) (sid : Nat) (f : Strand → Strand) : (p.updStrand sid f).cur = p.cur := rfl
@[simp] theorem Pkg.updStrand_fresh (p : Pkg) (sid : Nat) (f : Strand → Strand) : (p.updStrand sid f).fresh = p.fresh := rfl
@[simp] theorem Pkg.updStrand_time (p : Pkg) (sid : Nat) (f : Strand → Strand) : (p.updStrand sid f).time = p.time := rfl
@[simp] theorem Pkg.updStrand_phases (p : Pkg) (sid : Nat) (f : Strand → Strand) : (p.updStrand sid f).phases = p.phases := rfl
@[simp] theorem Pkg.updStrand_issues (p : Pkg) (sid : Nat) (f : Strand → Strand) : (p.updStrand sid f).issues = p.issues := rfl
@[simp] theorem Pkg.updStrand_nextId (p : Pkg) (sid : Nat) (f : Strand → Strand) : (p.updStrand sid f).nextId = p.nextId := rfl
@[simp] theorem Pkg.updStrand_strands (p : Pkg) (sid : Nat) (f : Strand → Strand) : (p.updStrand sid f).strands = p.strands.update sid f := rfl
@[simp] theorem Pkg.updStrand_bents (p : Pkg) (sid : Nat) (f : Strand → Strand) : (p.updStrand sid f).bents = p.bents := rfl
@[simp] theorem Pkg.updStrand_launches (p : Pkg) (sid : Nat) (f : Strand → Strand) : (p.updStrand sid f).launches = p.launches := rfl
@[simp] theorem Pkg.updStrand_trees (p : Pkg) (sid : Nat) (f : Strand → Strand) : (p.updStrand sid f).trees = p.trees := rfl
@[simp] theorem Pkg.updStrand_ctxs (p : Pkg) (sid : Nat) (f : Strand → Strand) : (p.updStrand sid f).ctxs = p.ctxs := rfl
@[simp] theorem Pkg.updStrand_clusters (p : Pkg) (sid : Nat) (f : Strand → Strand) : (p.updStrand sid f).clusters = p.clusters := rfl
@[simp] theorem Pkg.updStrand_vfs (p : Pkg) (sid : Nat) (f : Strand → Strand) : (p.updStrand sid f).vfs = p.vfs := rfl
@[simp] theorem Pkg.updStrand_cores (p : Pkg) (sid : Nat) (f : Strand → Strand) : (p.updStrand sid f).cores = p.cores := rfl
@[simp] theorem Pkg.updStrand_mem (p : Pkg) (sid : Nat) (f : Strand → Strand) : (p.updStrand sid f).mem = p.mem := rfl
@[simp] theorem Pkg.updStrand_hostMem (p : Pkg) (sid : Nat) (f : Strand → Strand) : (p.updStrand sid f).hostMem = p.hostMem := rfl
@[simp] theorem Pkg.updStrand_badLines (p : Pkg) (sid : Nat) (f : Strand → Strand) : (p.updStrand sid f).badLines = p.badLines := rfl
@[simp] theorem Pkg.updStrand_badSpots (p : Pkg) (sid : Nat) (f : Strand → Strand) : (p.updStrand sid f).badSpots = p.badSpots := rfl
@[simp] theorem Pkg.updStrand_l1 (p : Pkg) (sid : Nat) (f : Strand → Strand) : (p.updStrand sid f).l1 = p.l1 := rfl
@[simp] theorem Pkg.updStrand_owner (p : Pkg) (sid : Nat) (f : Strand → Strand) : (p.updStrand sid f).owner = p.owner := rfl
@[simp] theorem Pkg.updStrand_pinned (p : Pkg) (sid : Nat) (f : Strand → Strand) : (p.updStrand sid f).pinned = p.pinned := rfl
@[simp] theorem Pkg.updStrand_tlb (p : Pkg) (sid : Nat) (f : Strand → Strand) : (p.updStrand sid f).tlb = p.tlb := rfl
@[simp] theorem Pkg.updStrand_invalidations (p : Pkg) (sid : Nat) (f : Strand → Strand) : (p.updStrand sid f).invalidations = p.invalidations := rfl
@[simp] theorem Pkg.updStrand_frameKeys (p : Pkg) (sid : Nat) (f : Strand → Strand) : (p.updStrand sid f).frameKeys = p.frameKeys := rfl
@[simp] theorem Pkg.updStrand_keyVf (p : Pkg) (sid : Nat) (f : Strand → Strand) : (p.updStrand sid f).keyVf = p.keyVf := rfl
@[simp] theorem Pkg.updStrand_regions (p : Pkg) (sid : Nat) (f : Strand → Strand) : (p.updStrand sid f).regions = p.regions := rfl
@[simp] theorem Pkg.updStrand_aliasLines (p : Pkg) (sid : Nat) (f : Strand → Strand) : (p.updStrand sid f).aliasLines = p.aliasLines := rfl
@[simp] theorem Pkg.updStrand_devWrites (p : Pkg) (sid : Nat) (f : Strand → Strand) : (p.updStrand sid f).devWrites = p.devWrites := rfl
@[simp] theorem Pkg.updStrand_codeBefore (p : Pkg) (sid : Nat) (f : Strand → Strand) : (p.updStrand sid f).codeBefore = p.codeBefore := rfl
@[simp] theorem Pkg.updStrand_owedEnds (p : Pkg) (sid : Nat) (f : Strand → Strand) : (p.updStrand sid f).owedEnds = p.owedEnds := rfl
@[simp] theorem Pkg.updStrand_slopes (p : Pkg) (sid : Nat) (f : Strand → Strand) : (p.updStrand sid f).slopes = p.slopes := rfl
@[simp] theorem Pkg.updStrand_stepCeilings (p : Pkg) (sid : Nat) (f : Strand → Strand) : (p.updStrand sid f).stepCeilings = p.stepCeilings := rfl
@[simp] theorem Pkg.updStrand_hostRing (p : Pkg) (sid : Nat) (f : Strand → Strand) : (p.updStrand sid f).hostRing = p.hostRing := rfl
@[simp] theorem Pkg.updStrand_outOfStep (p : Pkg) (sid : Nat) (f : Strand → Strand) : (p.updStrand sid f).outOfStep = p.outOfStep := rfl
@[simp] theorem Pkg.updStrand_chains (p : Pkg) (sid : Nat) (f : Strand → Strand) : (p.updStrand sid f).chains = p.chains := rfl
@[simp] theorem Pkg.updStrand_entries (p : Pkg) (sid : Nat) (f : Strand → Strand) : (p.updStrand sid f).entries = p.entries := rfl
@[simp] theorem Pkg.updStrand_sent (p : Pkg) (sid : Nat) (f : Strand → Strand) : (p.updStrand sid f).sent = p.sent := rfl
@[simp] theorem Pkg.updStrand_outbox (p : Pkg) (sid : Nat) (f : Strand → Strand) : (p.updStrand sid f).outbox = p.outbox := rfl
@[simp] theorem Pkg.updStrand_yardPort (p : Pkg) (sid : Nat) (f : Strand → Strand) : (p.updStrand sid f).yardPort = p.yardPort := rfl
@[simp] theorem Pkg.updStrand_planesDown (p : Pkg) (sid : Nat) (f : Strand → Strand) : (p.updStrand sid f).planesDown = p.planesDown := rfl
@[simp] theorem Pkg.updStrand_planeFailures (p : Pkg) (sid : Nat) (f : Strand → Strand) : (p.updStrand sid f).planeFailures = p.planeFailures := rfl
@[simp] theorem Pkg.updStrand_linkErrors (p : Pkg) (sid : Nat) (f : Strand → Strand) : (p.updStrand sid f).linkErrors = p.linkErrors := rfl
@[simp] theorem Pkg.updStrand_raisings (p : Pkg) (sid : Nat) (f : Strand → Strand) : (p.updStrand sid f).raisings = p.raisings := rfl
@[simp] theorem Pkg.updStrand_lastRaisingSeq (p : Pkg) (sid : Nat) (f : Strand → Strand) : (p.updStrand sid f).lastRaisingSeq = p.lastRaisingSeq := rfl
@[simp] theorem Pkg.updStrand_inStep (p : Pkg) (sid : Nat) (f : Strand → Strand) : (p.updStrand sid f).inStep = p.inStep := rfl
@[simp] theorem Pkg.updStrand_goodOffsets (p : Pkg) (sid : Nat) (f : Strand → Strand) : (p.updStrand sid f).goodOffsets = p.goodOffsets := rfl
@[simp] theorem Pkg.updStrand_msgs (p : Pkg) (sid : Nat) (f : Strand → Strand) : (p.updStrand sid f).msgs = p.msgs := rfl
@[simp] theorem Pkg.updStrand_published (p : Pkg) (sid : Nat) (f : Strand → Strand) : (p.updStrand sid f).published = p.published := rfl
@[simp] theorem Pkg.updStrand_framers (p : Pkg) (sid : Nat) (f : Strand → Strand) : (p.updStrand sid f).framers = p.framers := rfl
@[simp] theorem Pkg.updStrand_framer (p : Pkg) (sid : Nat) (f : Strand → Strand) : (p.updStrand sid f).framer = p.framer := rfl
@[simp] theorem Pkg.updStrand_framingPriority (p : Pkg) (sid : Nat) (f : Strand → Strand) : (p.updStrand sid f).framingPriority = p.framingPriority := rfl
@[simp] theorem Pkg.updStrand_ptpStamps (p : Pkg) (sid : Nat) (f : Strand → Strand) : (p.updStrand sid f).ptpStamps = p.ptpStamps := rfl
@[simp] theorem Pkg.updStrand_mgmtInbox (p : Pkg) (sid : Nat) (f : Strand → Strand) : (p.updStrand sid f).mgmtInbox = p.mgmtInbox := rfl
@[simp] theorem Pkg.updStrand_hostLoads (p : Pkg) (sid : Nat) (f : Strand → Strand) : (p.updStrand sid f).hostLoads = p.hostLoads := rfl
@[simp] theorem Pkg.updStrand_images (p : Pkg) (sid : Nat) (f : Strand → Strand) : (p.updStrand sid f).images = p.images := rfl

/-! ### Pkg.updBent -/

@[simp] theorem Pkg.updBent_cur (p : Pkg) (k : Nat) (f : Bent → Bent) : (p.updBent k f).cur = p.cur := rfl
@[simp] theorem Pkg.updBent_fresh (p : Pkg) (k : Nat) (f : Bent → Bent) : (p.updBent k f).fresh = p.fresh := rfl
@[simp] theorem Pkg.updBent_time (p : Pkg) (k : Nat) (f : Bent → Bent) : (p.updBent k f).time = p.time := rfl
@[simp] theorem Pkg.updBent_phases (p : Pkg) (k : Nat) (f : Bent → Bent) : (p.updBent k f).phases = p.phases := rfl
@[simp] theorem Pkg.updBent_issues (p : Pkg) (k : Nat) (f : Bent → Bent) : (p.updBent k f).issues = p.issues := rfl
@[simp] theorem Pkg.updBent_nextId (p : Pkg) (k : Nat) (f : Bent → Bent) : (p.updBent k f).nextId = p.nextId := rfl
@[simp] theorem Pkg.updBent_strands (p : Pkg) (k : Nat) (f : Bent → Bent) : (p.updBent k f).strands = p.strands := rfl
@[simp] theorem Pkg.updBent_bents (p : Pkg) (k : Nat) (f : Bent → Bent) : (p.updBent k f).bents = p.bents.update k f := rfl
@[simp] theorem Pkg.updBent_launches (p : Pkg) (k : Nat) (f : Bent → Bent) : (p.updBent k f).launches = p.launches := rfl
@[simp] theorem Pkg.updBent_trees (p : Pkg) (k : Nat) (f : Bent → Bent) : (p.updBent k f).trees = p.trees := rfl
@[simp] theorem Pkg.updBent_ctxs (p : Pkg) (k : Nat) (f : Bent → Bent) : (p.updBent k f).ctxs = p.ctxs := rfl
@[simp] theorem Pkg.updBent_clusters (p : Pkg) (k : Nat) (f : Bent → Bent) : (p.updBent k f).clusters = p.clusters := rfl
@[simp] theorem Pkg.updBent_vfs (p : Pkg) (k : Nat) (f : Bent → Bent) : (p.updBent k f).vfs = p.vfs := rfl
@[simp] theorem Pkg.updBent_cores (p : Pkg) (k : Nat) (f : Bent → Bent) : (p.updBent k f).cores = p.cores := rfl
@[simp] theorem Pkg.updBent_mem (p : Pkg) (k : Nat) (f : Bent → Bent) : (p.updBent k f).mem = p.mem := rfl
@[simp] theorem Pkg.updBent_hostMem (p : Pkg) (k : Nat) (f : Bent → Bent) : (p.updBent k f).hostMem = p.hostMem := rfl
@[simp] theorem Pkg.updBent_badLines (p : Pkg) (k : Nat) (f : Bent → Bent) : (p.updBent k f).badLines = p.badLines := rfl
@[simp] theorem Pkg.updBent_badSpots (p : Pkg) (k : Nat) (f : Bent → Bent) : (p.updBent k f).badSpots = p.badSpots := rfl
@[simp] theorem Pkg.updBent_l1 (p : Pkg) (k : Nat) (f : Bent → Bent) : (p.updBent k f).l1 = p.l1 := rfl
@[simp] theorem Pkg.updBent_owner (p : Pkg) (k : Nat) (f : Bent → Bent) : (p.updBent k f).owner = p.owner := rfl
@[simp] theorem Pkg.updBent_pinned (p : Pkg) (k : Nat) (f : Bent → Bent) : (p.updBent k f).pinned = p.pinned := rfl
@[simp] theorem Pkg.updBent_tlb (p : Pkg) (k : Nat) (f : Bent → Bent) : (p.updBent k f).tlb = p.tlb := rfl
@[simp] theorem Pkg.updBent_invalidations (p : Pkg) (k : Nat) (f : Bent → Bent) : (p.updBent k f).invalidations = p.invalidations := rfl
@[simp] theorem Pkg.updBent_frameKeys (p : Pkg) (k : Nat) (f : Bent → Bent) : (p.updBent k f).frameKeys = p.frameKeys := rfl
@[simp] theorem Pkg.updBent_keyVf (p : Pkg) (k : Nat) (f : Bent → Bent) : (p.updBent k f).keyVf = p.keyVf := rfl
@[simp] theorem Pkg.updBent_regions (p : Pkg) (k : Nat) (f : Bent → Bent) : (p.updBent k f).regions = p.regions := rfl
@[simp] theorem Pkg.updBent_aliasLines (p : Pkg) (k : Nat) (f : Bent → Bent) : (p.updBent k f).aliasLines = p.aliasLines := rfl
@[simp] theorem Pkg.updBent_devWrites (p : Pkg) (k : Nat) (f : Bent → Bent) : (p.updBent k f).devWrites = p.devWrites := rfl
@[simp] theorem Pkg.updBent_codeBefore (p : Pkg) (k : Nat) (f : Bent → Bent) : (p.updBent k f).codeBefore = p.codeBefore := rfl
@[simp] theorem Pkg.updBent_owedEnds (p : Pkg) (k : Nat) (f : Bent → Bent) : (p.updBent k f).owedEnds = p.owedEnds := rfl
@[simp] theorem Pkg.updBent_slopes (p : Pkg) (k : Nat) (f : Bent → Bent) : (p.updBent k f).slopes = p.slopes := rfl
@[simp] theorem Pkg.updBent_stepCeilings (p : Pkg) (k : Nat) (f : Bent → Bent) : (p.updBent k f).stepCeilings = p.stepCeilings := rfl
@[simp] theorem Pkg.updBent_hostRing (p : Pkg) (k : Nat) (f : Bent → Bent) : (p.updBent k f).hostRing = p.hostRing := rfl
@[simp] theorem Pkg.updBent_outOfStep (p : Pkg) (k : Nat) (f : Bent → Bent) : (p.updBent k f).outOfStep = p.outOfStep := rfl
@[simp] theorem Pkg.updBent_chains (p : Pkg) (k : Nat) (f : Bent → Bent) : (p.updBent k f).chains = p.chains := rfl
@[simp] theorem Pkg.updBent_entries (p : Pkg) (k : Nat) (f : Bent → Bent) : (p.updBent k f).entries = p.entries := rfl
@[simp] theorem Pkg.updBent_sent (p : Pkg) (k : Nat) (f : Bent → Bent) : (p.updBent k f).sent = p.sent := rfl
@[simp] theorem Pkg.updBent_outbox (p : Pkg) (k : Nat) (f : Bent → Bent) : (p.updBent k f).outbox = p.outbox := rfl
@[simp] theorem Pkg.updBent_yardPort (p : Pkg) (k : Nat) (f : Bent → Bent) : (p.updBent k f).yardPort = p.yardPort := rfl
@[simp] theorem Pkg.updBent_planesDown (p : Pkg) (k : Nat) (f : Bent → Bent) : (p.updBent k f).planesDown = p.planesDown := rfl
@[simp] theorem Pkg.updBent_planeFailures (p : Pkg) (k : Nat) (f : Bent → Bent) : (p.updBent k f).planeFailures = p.planeFailures := rfl
@[simp] theorem Pkg.updBent_linkErrors (p : Pkg) (k : Nat) (f : Bent → Bent) : (p.updBent k f).linkErrors = p.linkErrors := rfl
@[simp] theorem Pkg.updBent_raisings (p : Pkg) (k : Nat) (f : Bent → Bent) : (p.updBent k f).raisings = p.raisings := rfl
@[simp] theorem Pkg.updBent_lastRaisingSeq (p : Pkg) (k : Nat) (f : Bent → Bent) : (p.updBent k f).lastRaisingSeq = p.lastRaisingSeq := rfl
@[simp] theorem Pkg.updBent_inStep (p : Pkg) (k : Nat) (f : Bent → Bent) : (p.updBent k f).inStep = p.inStep := rfl
@[simp] theorem Pkg.updBent_goodOffsets (p : Pkg) (k : Nat) (f : Bent → Bent) : (p.updBent k f).goodOffsets = p.goodOffsets := rfl
@[simp] theorem Pkg.updBent_msgs (p : Pkg) (k : Nat) (f : Bent → Bent) : (p.updBent k f).msgs = p.msgs := rfl
@[simp] theorem Pkg.updBent_published (p : Pkg) (k : Nat) (f : Bent → Bent) : (p.updBent k f).published = p.published := rfl
@[simp] theorem Pkg.updBent_framers (p : Pkg) (k : Nat) (f : Bent → Bent) : (p.updBent k f).framers = p.framers := rfl
@[simp] theorem Pkg.updBent_framer (p : Pkg) (k : Nat) (f : Bent → Bent) : (p.updBent k f).framer = p.framer := rfl
@[simp] theorem Pkg.updBent_framingPriority (p : Pkg) (k : Nat) (f : Bent → Bent) : (p.updBent k f).framingPriority = p.framingPriority := rfl
@[simp] theorem Pkg.updBent_ptpStamps (p : Pkg) (k : Nat) (f : Bent → Bent) : (p.updBent k f).ptpStamps = p.ptpStamps := rfl
@[simp] theorem Pkg.updBent_mgmtInbox (p : Pkg) (k : Nat) (f : Bent → Bent) : (p.updBent k f).mgmtInbox = p.mgmtInbox := rfl
@[simp] theorem Pkg.updBent_hostLoads (p : Pkg) (k : Nat) (f : Bent → Bent) : (p.updBent k f).hostLoads = p.hostLoads := rfl
@[simp] theorem Pkg.updBent_images (p : Pkg) (k : Nat) (f : Bent → Bent) : (p.updBent k f).images = p.images := rfl

/-! ### Pkg.updLaunch -/

@[simp] theorem Pkg.updLaunch_cur (p : Pkg) (k : Nat) (f : Launch → Launch) : (p.updLaunch k f).cur = p.cur := rfl
@[simp] theorem Pkg.updLaunch_fresh (p : Pkg) (k : Nat) (f : Launch → Launch) : (p.updLaunch k f).fresh = p.fresh := rfl
@[simp] theorem Pkg.updLaunch_time (p : Pkg) (k : Nat) (f : Launch → Launch) : (p.updLaunch k f).time = p.time := rfl
@[simp] theorem Pkg.updLaunch_phases (p : Pkg) (k : Nat) (f : Launch → Launch) : (p.updLaunch k f).phases = p.phases := rfl
@[simp] theorem Pkg.updLaunch_issues (p : Pkg) (k : Nat) (f : Launch → Launch) : (p.updLaunch k f).issues = p.issues := rfl
@[simp] theorem Pkg.updLaunch_nextId (p : Pkg) (k : Nat) (f : Launch → Launch) : (p.updLaunch k f).nextId = p.nextId := rfl
@[simp] theorem Pkg.updLaunch_strands (p : Pkg) (k : Nat) (f : Launch → Launch) : (p.updLaunch k f).strands = p.strands := rfl
@[simp] theorem Pkg.updLaunch_bents (p : Pkg) (k : Nat) (f : Launch → Launch) : (p.updLaunch k f).bents = p.bents := rfl
@[simp] theorem Pkg.updLaunch_launches (p : Pkg) (k : Nat) (f : Launch → Launch) : (p.updLaunch k f).launches = p.launches.update k f := rfl
@[simp] theorem Pkg.updLaunch_trees (p : Pkg) (k : Nat) (f : Launch → Launch) : (p.updLaunch k f).trees = p.trees := rfl
@[simp] theorem Pkg.updLaunch_ctxs (p : Pkg) (k : Nat) (f : Launch → Launch) : (p.updLaunch k f).ctxs = p.ctxs := rfl
@[simp] theorem Pkg.updLaunch_clusters (p : Pkg) (k : Nat) (f : Launch → Launch) : (p.updLaunch k f).clusters = p.clusters := rfl
@[simp] theorem Pkg.updLaunch_vfs (p : Pkg) (k : Nat) (f : Launch → Launch) : (p.updLaunch k f).vfs = p.vfs := rfl
@[simp] theorem Pkg.updLaunch_cores (p : Pkg) (k : Nat) (f : Launch → Launch) : (p.updLaunch k f).cores = p.cores := rfl
@[simp] theorem Pkg.updLaunch_mem (p : Pkg) (k : Nat) (f : Launch → Launch) : (p.updLaunch k f).mem = p.mem := rfl
@[simp] theorem Pkg.updLaunch_hostMem (p : Pkg) (k : Nat) (f : Launch → Launch) : (p.updLaunch k f).hostMem = p.hostMem := rfl
@[simp] theorem Pkg.updLaunch_badLines (p : Pkg) (k : Nat) (f : Launch → Launch) : (p.updLaunch k f).badLines = p.badLines := rfl
@[simp] theorem Pkg.updLaunch_badSpots (p : Pkg) (k : Nat) (f : Launch → Launch) : (p.updLaunch k f).badSpots = p.badSpots := rfl
@[simp] theorem Pkg.updLaunch_l1 (p : Pkg) (k : Nat) (f : Launch → Launch) : (p.updLaunch k f).l1 = p.l1 := rfl
@[simp] theorem Pkg.updLaunch_owner (p : Pkg) (k : Nat) (f : Launch → Launch) : (p.updLaunch k f).owner = p.owner := rfl
@[simp] theorem Pkg.updLaunch_pinned (p : Pkg) (k : Nat) (f : Launch → Launch) : (p.updLaunch k f).pinned = p.pinned := rfl
@[simp] theorem Pkg.updLaunch_tlb (p : Pkg) (k : Nat) (f : Launch → Launch) : (p.updLaunch k f).tlb = p.tlb := rfl
@[simp] theorem Pkg.updLaunch_invalidations (p : Pkg) (k : Nat) (f : Launch → Launch) : (p.updLaunch k f).invalidations = p.invalidations := rfl
@[simp] theorem Pkg.updLaunch_frameKeys (p : Pkg) (k : Nat) (f : Launch → Launch) : (p.updLaunch k f).frameKeys = p.frameKeys := rfl
@[simp] theorem Pkg.updLaunch_keyVf (p : Pkg) (k : Nat) (f : Launch → Launch) : (p.updLaunch k f).keyVf = p.keyVf := rfl
@[simp] theorem Pkg.updLaunch_regions (p : Pkg) (k : Nat) (f : Launch → Launch) : (p.updLaunch k f).regions = p.regions := rfl
@[simp] theorem Pkg.updLaunch_aliasLines (p : Pkg) (k : Nat) (f : Launch → Launch) : (p.updLaunch k f).aliasLines = p.aliasLines := rfl
@[simp] theorem Pkg.updLaunch_devWrites (p : Pkg) (k : Nat) (f : Launch → Launch) : (p.updLaunch k f).devWrites = p.devWrites := rfl
@[simp] theorem Pkg.updLaunch_codeBefore (p : Pkg) (k : Nat) (f : Launch → Launch) : (p.updLaunch k f).codeBefore = p.codeBefore := rfl
@[simp] theorem Pkg.updLaunch_owedEnds (p : Pkg) (k : Nat) (f : Launch → Launch) : (p.updLaunch k f).owedEnds = p.owedEnds := rfl
@[simp] theorem Pkg.updLaunch_slopes (p : Pkg) (k : Nat) (f : Launch → Launch) : (p.updLaunch k f).slopes = p.slopes := rfl
@[simp] theorem Pkg.updLaunch_stepCeilings (p : Pkg) (k : Nat) (f : Launch → Launch) : (p.updLaunch k f).stepCeilings = p.stepCeilings := rfl
@[simp] theorem Pkg.updLaunch_hostRing (p : Pkg) (k : Nat) (f : Launch → Launch) : (p.updLaunch k f).hostRing = p.hostRing := rfl
@[simp] theorem Pkg.updLaunch_outOfStep (p : Pkg) (k : Nat) (f : Launch → Launch) : (p.updLaunch k f).outOfStep = p.outOfStep := rfl
@[simp] theorem Pkg.updLaunch_chains (p : Pkg) (k : Nat) (f : Launch → Launch) : (p.updLaunch k f).chains = p.chains := rfl
@[simp] theorem Pkg.updLaunch_entries (p : Pkg) (k : Nat) (f : Launch → Launch) : (p.updLaunch k f).entries = p.entries := rfl
@[simp] theorem Pkg.updLaunch_sent (p : Pkg) (k : Nat) (f : Launch → Launch) : (p.updLaunch k f).sent = p.sent := rfl
@[simp] theorem Pkg.updLaunch_outbox (p : Pkg) (k : Nat) (f : Launch → Launch) : (p.updLaunch k f).outbox = p.outbox := rfl
@[simp] theorem Pkg.updLaunch_yardPort (p : Pkg) (k : Nat) (f : Launch → Launch) : (p.updLaunch k f).yardPort = p.yardPort := rfl
@[simp] theorem Pkg.updLaunch_planesDown (p : Pkg) (k : Nat) (f : Launch → Launch) : (p.updLaunch k f).planesDown = p.planesDown := rfl
@[simp] theorem Pkg.updLaunch_planeFailures (p : Pkg) (k : Nat) (f : Launch → Launch) : (p.updLaunch k f).planeFailures = p.planeFailures := rfl
@[simp] theorem Pkg.updLaunch_linkErrors (p : Pkg) (k : Nat) (f : Launch → Launch) : (p.updLaunch k f).linkErrors = p.linkErrors := rfl
@[simp] theorem Pkg.updLaunch_raisings (p : Pkg) (k : Nat) (f : Launch → Launch) : (p.updLaunch k f).raisings = p.raisings := rfl
@[simp] theorem Pkg.updLaunch_lastRaisingSeq (p : Pkg) (k : Nat) (f : Launch → Launch) : (p.updLaunch k f).lastRaisingSeq = p.lastRaisingSeq := rfl
@[simp] theorem Pkg.updLaunch_inStep (p : Pkg) (k : Nat) (f : Launch → Launch) : (p.updLaunch k f).inStep = p.inStep := rfl
@[simp] theorem Pkg.updLaunch_goodOffsets (p : Pkg) (k : Nat) (f : Launch → Launch) : (p.updLaunch k f).goodOffsets = p.goodOffsets := rfl
@[simp] theorem Pkg.updLaunch_msgs (p : Pkg) (k : Nat) (f : Launch → Launch) : (p.updLaunch k f).msgs = p.msgs := rfl
@[simp] theorem Pkg.updLaunch_published (p : Pkg) (k : Nat) (f : Launch → Launch) : (p.updLaunch k f).published = p.published := rfl
@[simp] theorem Pkg.updLaunch_framers (p : Pkg) (k : Nat) (f : Launch → Launch) : (p.updLaunch k f).framers = p.framers := rfl
@[simp] theorem Pkg.updLaunch_framer (p : Pkg) (k : Nat) (f : Launch → Launch) : (p.updLaunch k f).framer = p.framer := rfl
@[simp] theorem Pkg.updLaunch_framingPriority (p : Pkg) (k : Nat) (f : Launch → Launch) : (p.updLaunch k f).framingPriority = p.framingPriority := rfl
@[simp] theorem Pkg.updLaunch_ptpStamps (p : Pkg) (k : Nat) (f : Launch → Launch) : (p.updLaunch k f).ptpStamps = p.ptpStamps := rfl
@[simp] theorem Pkg.updLaunch_mgmtInbox (p : Pkg) (k : Nat) (f : Launch → Launch) : (p.updLaunch k f).mgmtInbox = p.mgmtInbox := rfl
@[simp] theorem Pkg.updLaunch_hostLoads (p : Pkg) (k : Nat) (f : Launch → Launch) : (p.updLaunch k f).hostLoads = p.hostLoads := rfl
@[simp] theorem Pkg.updLaunch_images (p : Pkg) (k : Nat) (f : Launch → Launch) : (p.updLaunch k f).images = p.images := rfl

/-! ### Pkg.updTree -/

@[simp] theorem Pkg.updTree_cur (p : Pkg) (k : Nat) (f : Tree → Tree) : (p.updTree k f).cur = p.cur := rfl
@[simp] theorem Pkg.updTree_fresh (p : Pkg) (k : Nat) (f : Tree → Tree) : (p.updTree k f).fresh = p.fresh := rfl
@[simp] theorem Pkg.updTree_time (p : Pkg) (k : Nat) (f : Tree → Tree) : (p.updTree k f).time = p.time := rfl
@[simp] theorem Pkg.updTree_phases (p : Pkg) (k : Nat) (f : Tree → Tree) : (p.updTree k f).phases = p.phases := rfl
@[simp] theorem Pkg.updTree_issues (p : Pkg) (k : Nat) (f : Tree → Tree) : (p.updTree k f).issues = p.issues := rfl
@[simp] theorem Pkg.updTree_nextId (p : Pkg) (k : Nat) (f : Tree → Tree) : (p.updTree k f).nextId = p.nextId := rfl
@[simp] theorem Pkg.updTree_strands (p : Pkg) (k : Nat) (f : Tree → Tree) : (p.updTree k f).strands = p.strands := rfl
@[simp] theorem Pkg.updTree_bents (p : Pkg) (k : Nat) (f : Tree → Tree) : (p.updTree k f).bents = p.bents := rfl
@[simp] theorem Pkg.updTree_launches (p : Pkg) (k : Nat) (f : Tree → Tree) : (p.updTree k f).launches = p.launches := rfl
@[simp] theorem Pkg.updTree_trees (p : Pkg) (k : Nat) (f : Tree → Tree) : (p.updTree k f).trees = p.trees.update k f := rfl
@[simp] theorem Pkg.updTree_ctxs (p : Pkg) (k : Nat) (f : Tree → Tree) : (p.updTree k f).ctxs = p.ctxs := rfl
@[simp] theorem Pkg.updTree_clusters (p : Pkg) (k : Nat) (f : Tree → Tree) : (p.updTree k f).clusters = p.clusters := rfl
@[simp] theorem Pkg.updTree_vfs (p : Pkg) (k : Nat) (f : Tree → Tree) : (p.updTree k f).vfs = p.vfs := rfl
@[simp] theorem Pkg.updTree_cores (p : Pkg) (k : Nat) (f : Tree → Tree) : (p.updTree k f).cores = p.cores := rfl
@[simp] theorem Pkg.updTree_mem (p : Pkg) (k : Nat) (f : Tree → Tree) : (p.updTree k f).mem = p.mem := rfl
@[simp] theorem Pkg.updTree_hostMem (p : Pkg) (k : Nat) (f : Tree → Tree) : (p.updTree k f).hostMem = p.hostMem := rfl
@[simp] theorem Pkg.updTree_badLines (p : Pkg) (k : Nat) (f : Tree → Tree) : (p.updTree k f).badLines = p.badLines := rfl
@[simp] theorem Pkg.updTree_badSpots (p : Pkg) (k : Nat) (f : Tree → Tree) : (p.updTree k f).badSpots = p.badSpots := rfl
@[simp] theorem Pkg.updTree_l1 (p : Pkg) (k : Nat) (f : Tree → Tree) : (p.updTree k f).l1 = p.l1 := rfl
@[simp] theorem Pkg.updTree_owner (p : Pkg) (k : Nat) (f : Tree → Tree) : (p.updTree k f).owner = p.owner := rfl
@[simp] theorem Pkg.updTree_pinned (p : Pkg) (k : Nat) (f : Tree → Tree) : (p.updTree k f).pinned = p.pinned := rfl
@[simp] theorem Pkg.updTree_tlb (p : Pkg) (k : Nat) (f : Tree → Tree) : (p.updTree k f).tlb = p.tlb := rfl
@[simp] theorem Pkg.updTree_invalidations (p : Pkg) (k : Nat) (f : Tree → Tree) : (p.updTree k f).invalidations = p.invalidations := rfl
@[simp] theorem Pkg.updTree_frameKeys (p : Pkg) (k : Nat) (f : Tree → Tree) : (p.updTree k f).frameKeys = p.frameKeys := rfl
@[simp] theorem Pkg.updTree_keyVf (p : Pkg) (k : Nat) (f : Tree → Tree) : (p.updTree k f).keyVf = p.keyVf := rfl
@[simp] theorem Pkg.updTree_regions (p : Pkg) (k : Nat) (f : Tree → Tree) : (p.updTree k f).regions = p.regions := rfl
@[simp] theorem Pkg.updTree_aliasLines (p : Pkg) (k : Nat) (f : Tree → Tree) : (p.updTree k f).aliasLines = p.aliasLines := rfl
@[simp] theorem Pkg.updTree_devWrites (p : Pkg) (k : Nat) (f : Tree → Tree) : (p.updTree k f).devWrites = p.devWrites := rfl
@[simp] theorem Pkg.updTree_codeBefore (p : Pkg) (k : Nat) (f : Tree → Tree) : (p.updTree k f).codeBefore = p.codeBefore := rfl
@[simp] theorem Pkg.updTree_owedEnds (p : Pkg) (k : Nat) (f : Tree → Tree) : (p.updTree k f).owedEnds = p.owedEnds := rfl
@[simp] theorem Pkg.updTree_slopes (p : Pkg) (k : Nat) (f : Tree → Tree) : (p.updTree k f).slopes = p.slopes := rfl
@[simp] theorem Pkg.updTree_stepCeilings (p : Pkg) (k : Nat) (f : Tree → Tree) : (p.updTree k f).stepCeilings = p.stepCeilings := rfl
@[simp] theorem Pkg.updTree_hostRing (p : Pkg) (k : Nat) (f : Tree → Tree) : (p.updTree k f).hostRing = p.hostRing := rfl
@[simp] theorem Pkg.updTree_outOfStep (p : Pkg) (k : Nat) (f : Tree → Tree) : (p.updTree k f).outOfStep = p.outOfStep := rfl
@[simp] theorem Pkg.updTree_chains (p : Pkg) (k : Nat) (f : Tree → Tree) : (p.updTree k f).chains = p.chains := rfl
@[simp] theorem Pkg.updTree_entries (p : Pkg) (k : Nat) (f : Tree → Tree) : (p.updTree k f).entries = p.entries := rfl
@[simp] theorem Pkg.updTree_sent (p : Pkg) (k : Nat) (f : Tree → Tree) : (p.updTree k f).sent = p.sent := rfl
@[simp] theorem Pkg.updTree_outbox (p : Pkg) (k : Nat) (f : Tree → Tree) : (p.updTree k f).outbox = p.outbox := rfl
@[simp] theorem Pkg.updTree_yardPort (p : Pkg) (k : Nat) (f : Tree → Tree) : (p.updTree k f).yardPort = p.yardPort := rfl
@[simp] theorem Pkg.updTree_planesDown (p : Pkg) (k : Nat) (f : Tree → Tree) : (p.updTree k f).planesDown = p.planesDown := rfl
@[simp] theorem Pkg.updTree_planeFailures (p : Pkg) (k : Nat) (f : Tree → Tree) : (p.updTree k f).planeFailures = p.planeFailures := rfl
@[simp] theorem Pkg.updTree_linkErrors (p : Pkg) (k : Nat) (f : Tree → Tree) : (p.updTree k f).linkErrors = p.linkErrors := rfl
@[simp] theorem Pkg.updTree_raisings (p : Pkg) (k : Nat) (f : Tree → Tree) : (p.updTree k f).raisings = p.raisings := rfl
@[simp] theorem Pkg.updTree_lastRaisingSeq (p : Pkg) (k : Nat) (f : Tree → Tree) : (p.updTree k f).lastRaisingSeq = p.lastRaisingSeq := rfl
@[simp] theorem Pkg.updTree_inStep (p : Pkg) (k : Nat) (f : Tree → Tree) : (p.updTree k f).inStep = p.inStep := rfl
@[simp] theorem Pkg.updTree_goodOffsets (p : Pkg) (k : Nat) (f : Tree → Tree) : (p.updTree k f).goodOffsets = p.goodOffsets := rfl
@[simp] theorem Pkg.updTree_msgs (p : Pkg) (k : Nat) (f : Tree → Tree) : (p.updTree k f).msgs = p.msgs := rfl
@[simp] theorem Pkg.updTree_published (p : Pkg) (k : Nat) (f : Tree → Tree) : (p.updTree k f).published = p.published := rfl
@[simp] theorem Pkg.updTree_framers (p : Pkg) (k : Nat) (f : Tree → Tree) : (p.updTree k f).framers = p.framers := rfl
@[simp] theorem Pkg.updTree_framer (p : Pkg) (k : Nat) (f : Tree → Tree) : (p.updTree k f).framer = p.framer := rfl
@[simp] theorem Pkg.updTree_framingPriority (p : Pkg) (k : Nat) (f : Tree → Tree) : (p.updTree k f).framingPriority = p.framingPriority := rfl
@[simp] theorem Pkg.updTree_ptpStamps (p : Pkg) (k : Nat) (f : Tree → Tree) : (p.updTree k f).ptpStamps = p.ptpStamps := rfl
@[simp] theorem Pkg.updTree_mgmtInbox (p : Pkg) (k : Nat) (f : Tree → Tree) : (p.updTree k f).mgmtInbox = p.mgmtInbox := rfl
@[simp] theorem Pkg.updTree_hostLoads (p : Pkg) (k : Nat) (f : Tree → Tree) : (p.updTree k f).hostLoads = p.hostLoads := rfl
@[simp] theorem Pkg.updTree_images (p : Pkg) (k : Nat) (f : Tree → Tree) : (p.updTree k f).images = p.images := rfl

/-! ### Pkg.updCtx -/

@[simp] theorem Pkg.updCtx_cur (p : Pkg) (k : Nat) (f : Ctx → Ctx) : (p.updCtx k f).cur = p.cur := rfl
@[simp] theorem Pkg.updCtx_fresh (p : Pkg) (k : Nat) (f : Ctx → Ctx) : (p.updCtx k f).fresh = p.fresh := rfl
@[simp] theorem Pkg.updCtx_time (p : Pkg) (k : Nat) (f : Ctx → Ctx) : (p.updCtx k f).time = p.time := rfl
@[simp] theorem Pkg.updCtx_phases (p : Pkg) (k : Nat) (f : Ctx → Ctx) : (p.updCtx k f).phases = p.phases := rfl
@[simp] theorem Pkg.updCtx_issues (p : Pkg) (k : Nat) (f : Ctx → Ctx) : (p.updCtx k f).issues = p.issues := rfl
@[simp] theorem Pkg.updCtx_nextId (p : Pkg) (k : Nat) (f : Ctx → Ctx) : (p.updCtx k f).nextId = p.nextId := rfl
@[simp] theorem Pkg.updCtx_strands (p : Pkg) (k : Nat) (f : Ctx → Ctx) : (p.updCtx k f).strands = p.strands := rfl
@[simp] theorem Pkg.updCtx_bents (p : Pkg) (k : Nat) (f : Ctx → Ctx) : (p.updCtx k f).bents = p.bents := rfl
@[simp] theorem Pkg.updCtx_launches (p : Pkg) (k : Nat) (f : Ctx → Ctx) : (p.updCtx k f).launches = p.launches := rfl
@[simp] theorem Pkg.updCtx_trees (p : Pkg) (k : Nat) (f : Ctx → Ctx) : (p.updCtx k f).trees = p.trees := rfl
@[simp] theorem Pkg.updCtx_ctxs (p : Pkg) (k : Nat) (f : Ctx → Ctx) : (p.updCtx k f).ctxs = p.ctxs.update k f := rfl
@[simp] theorem Pkg.updCtx_clusters (p : Pkg) (k : Nat) (f : Ctx → Ctx) : (p.updCtx k f).clusters = p.clusters := rfl
@[simp] theorem Pkg.updCtx_vfs (p : Pkg) (k : Nat) (f : Ctx → Ctx) : (p.updCtx k f).vfs = p.vfs := rfl
@[simp] theorem Pkg.updCtx_cores (p : Pkg) (k : Nat) (f : Ctx → Ctx) : (p.updCtx k f).cores = p.cores := rfl
@[simp] theorem Pkg.updCtx_mem (p : Pkg) (k : Nat) (f : Ctx → Ctx) : (p.updCtx k f).mem = p.mem := rfl
@[simp] theorem Pkg.updCtx_hostMem (p : Pkg) (k : Nat) (f : Ctx → Ctx) : (p.updCtx k f).hostMem = p.hostMem := rfl
@[simp] theorem Pkg.updCtx_badLines (p : Pkg) (k : Nat) (f : Ctx → Ctx) : (p.updCtx k f).badLines = p.badLines := rfl
@[simp] theorem Pkg.updCtx_badSpots (p : Pkg) (k : Nat) (f : Ctx → Ctx) : (p.updCtx k f).badSpots = p.badSpots := rfl
@[simp] theorem Pkg.updCtx_l1 (p : Pkg) (k : Nat) (f : Ctx → Ctx) : (p.updCtx k f).l1 = p.l1 := rfl
@[simp] theorem Pkg.updCtx_owner (p : Pkg) (k : Nat) (f : Ctx → Ctx) : (p.updCtx k f).owner = p.owner := rfl
@[simp] theorem Pkg.updCtx_pinned (p : Pkg) (k : Nat) (f : Ctx → Ctx) : (p.updCtx k f).pinned = p.pinned := rfl
@[simp] theorem Pkg.updCtx_tlb (p : Pkg) (k : Nat) (f : Ctx → Ctx) : (p.updCtx k f).tlb = p.tlb := rfl
@[simp] theorem Pkg.updCtx_invalidations (p : Pkg) (k : Nat) (f : Ctx → Ctx) : (p.updCtx k f).invalidations = p.invalidations := rfl
@[simp] theorem Pkg.updCtx_frameKeys (p : Pkg) (k : Nat) (f : Ctx → Ctx) : (p.updCtx k f).frameKeys = p.frameKeys := rfl
@[simp] theorem Pkg.updCtx_keyVf (p : Pkg) (k : Nat) (f : Ctx → Ctx) : (p.updCtx k f).keyVf = p.keyVf := rfl
@[simp] theorem Pkg.updCtx_regions (p : Pkg) (k : Nat) (f : Ctx → Ctx) : (p.updCtx k f).regions = p.regions := rfl
@[simp] theorem Pkg.updCtx_aliasLines (p : Pkg) (k : Nat) (f : Ctx → Ctx) : (p.updCtx k f).aliasLines = p.aliasLines := rfl
@[simp] theorem Pkg.updCtx_devWrites (p : Pkg) (k : Nat) (f : Ctx → Ctx) : (p.updCtx k f).devWrites = p.devWrites := rfl
@[simp] theorem Pkg.updCtx_codeBefore (p : Pkg) (k : Nat) (f : Ctx → Ctx) : (p.updCtx k f).codeBefore = p.codeBefore := rfl
@[simp] theorem Pkg.updCtx_owedEnds (p : Pkg) (k : Nat) (f : Ctx → Ctx) : (p.updCtx k f).owedEnds = p.owedEnds := rfl
@[simp] theorem Pkg.updCtx_slopes (p : Pkg) (k : Nat) (f : Ctx → Ctx) : (p.updCtx k f).slopes = p.slopes := rfl
@[simp] theorem Pkg.updCtx_stepCeilings (p : Pkg) (k : Nat) (f : Ctx → Ctx) : (p.updCtx k f).stepCeilings = p.stepCeilings := rfl
@[simp] theorem Pkg.updCtx_hostRing (p : Pkg) (k : Nat) (f : Ctx → Ctx) : (p.updCtx k f).hostRing = p.hostRing := rfl
@[simp] theorem Pkg.updCtx_outOfStep (p : Pkg) (k : Nat) (f : Ctx → Ctx) : (p.updCtx k f).outOfStep = p.outOfStep := rfl
@[simp] theorem Pkg.updCtx_chains (p : Pkg) (k : Nat) (f : Ctx → Ctx) : (p.updCtx k f).chains = p.chains := rfl
@[simp] theorem Pkg.updCtx_entries (p : Pkg) (k : Nat) (f : Ctx → Ctx) : (p.updCtx k f).entries = p.entries := rfl
@[simp] theorem Pkg.updCtx_sent (p : Pkg) (k : Nat) (f : Ctx → Ctx) : (p.updCtx k f).sent = p.sent := rfl
@[simp] theorem Pkg.updCtx_outbox (p : Pkg) (k : Nat) (f : Ctx → Ctx) : (p.updCtx k f).outbox = p.outbox := rfl
@[simp] theorem Pkg.updCtx_yardPort (p : Pkg) (k : Nat) (f : Ctx → Ctx) : (p.updCtx k f).yardPort = p.yardPort := rfl
@[simp] theorem Pkg.updCtx_planesDown (p : Pkg) (k : Nat) (f : Ctx → Ctx) : (p.updCtx k f).planesDown = p.planesDown := rfl
@[simp] theorem Pkg.updCtx_planeFailures (p : Pkg) (k : Nat) (f : Ctx → Ctx) : (p.updCtx k f).planeFailures = p.planeFailures := rfl
@[simp] theorem Pkg.updCtx_linkErrors (p : Pkg) (k : Nat) (f : Ctx → Ctx) : (p.updCtx k f).linkErrors = p.linkErrors := rfl
@[simp] theorem Pkg.updCtx_raisings (p : Pkg) (k : Nat) (f : Ctx → Ctx) : (p.updCtx k f).raisings = p.raisings := rfl
@[simp] theorem Pkg.updCtx_lastRaisingSeq (p : Pkg) (k : Nat) (f : Ctx → Ctx) : (p.updCtx k f).lastRaisingSeq = p.lastRaisingSeq := rfl
@[simp] theorem Pkg.updCtx_inStep (p : Pkg) (k : Nat) (f : Ctx → Ctx) : (p.updCtx k f).inStep = p.inStep := rfl
@[simp] theorem Pkg.updCtx_goodOffsets (p : Pkg) (k : Nat) (f : Ctx → Ctx) : (p.updCtx k f).goodOffsets = p.goodOffsets := rfl
@[simp] theorem Pkg.updCtx_msgs (p : Pkg) (k : Nat) (f : Ctx → Ctx) : (p.updCtx k f).msgs = p.msgs := rfl
@[simp] theorem Pkg.updCtx_published (p : Pkg) (k : Nat) (f : Ctx → Ctx) : (p.updCtx k f).published = p.published := rfl
@[simp] theorem Pkg.updCtx_framers (p : Pkg) (k : Nat) (f : Ctx → Ctx) : (p.updCtx k f).framers = p.framers := rfl
@[simp] theorem Pkg.updCtx_framer (p : Pkg) (k : Nat) (f : Ctx → Ctx) : (p.updCtx k f).framer = p.framer := rfl
@[simp] theorem Pkg.updCtx_framingPriority (p : Pkg) (k : Nat) (f : Ctx → Ctx) : (p.updCtx k f).framingPriority = p.framingPriority := rfl
@[simp] theorem Pkg.updCtx_ptpStamps (p : Pkg) (k : Nat) (f : Ctx → Ctx) : (p.updCtx k f).ptpStamps = p.ptpStamps := rfl
@[simp] theorem Pkg.updCtx_mgmtInbox (p : Pkg) (k : Nat) (f : Ctx → Ctx) : (p.updCtx k f).mgmtInbox = p.mgmtInbox := rfl
@[simp] theorem Pkg.updCtx_hostLoads (p : Pkg) (k : Nat) (f : Ctx → Ctx) : (p.updCtx k f).hostLoads = p.hostLoads := rfl
@[simp] theorem Pkg.updCtx_images (p : Pkg) (k : Nat) (f : Ctx → Ctx) : (p.updCtx k f).images = p.images := rfl

/-! ### Pkg.updEntry -/

@[simp] theorem Pkg.updEntry_cur (p : Pkg) (k : Nat) (f : Entry → Entry) : (p.updEntry k f).cur = p.cur := rfl
@[simp] theorem Pkg.updEntry_fresh (p : Pkg) (k : Nat) (f : Entry → Entry) : (p.updEntry k f).fresh = p.fresh := rfl
@[simp] theorem Pkg.updEntry_time (p : Pkg) (k : Nat) (f : Entry → Entry) : (p.updEntry k f).time = p.time := rfl
@[simp] theorem Pkg.updEntry_phases (p : Pkg) (k : Nat) (f : Entry → Entry) : (p.updEntry k f).phases = p.phases := rfl
@[simp] theorem Pkg.updEntry_issues (p : Pkg) (k : Nat) (f : Entry → Entry) : (p.updEntry k f).issues = p.issues := rfl
@[simp] theorem Pkg.updEntry_nextId (p : Pkg) (k : Nat) (f : Entry → Entry) : (p.updEntry k f).nextId = p.nextId := rfl
@[simp] theorem Pkg.updEntry_strands (p : Pkg) (k : Nat) (f : Entry → Entry) : (p.updEntry k f).strands = p.strands := rfl
@[simp] theorem Pkg.updEntry_bents (p : Pkg) (k : Nat) (f : Entry → Entry) : (p.updEntry k f).bents = p.bents := rfl
@[simp] theorem Pkg.updEntry_launches (p : Pkg) (k : Nat) (f : Entry → Entry) : (p.updEntry k f).launches = p.launches := rfl
@[simp] theorem Pkg.updEntry_trees (p : Pkg) (k : Nat) (f : Entry → Entry) : (p.updEntry k f).trees = p.trees := rfl
@[simp] theorem Pkg.updEntry_ctxs (p : Pkg) (k : Nat) (f : Entry → Entry) : (p.updEntry k f).ctxs = p.ctxs := rfl
@[simp] theorem Pkg.updEntry_clusters (p : Pkg) (k : Nat) (f : Entry → Entry) : (p.updEntry k f).clusters = p.clusters := rfl
@[simp] theorem Pkg.updEntry_vfs (p : Pkg) (k : Nat) (f : Entry → Entry) : (p.updEntry k f).vfs = p.vfs := rfl
@[simp] theorem Pkg.updEntry_cores (p : Pkg) (k : Nat) (f : Entry → Entry) : (p.updEntry k f).cores = p.cores := rfl
@[simp] theorem Pkg.updEntry_mem (p : Pkg) (k : Nat) (f : Entry → Entry) : (p.updEntry k f).mem = p.mem := rfl
@[simp] theorem Pkg.updEntry_hostMem (p : Pkg) (k : Nat) (f : Entry → Entry) : (p.updEntry k f).hostMem = p.hostMem := rfl
@[simp] theorem Pkg.updEntry_badLines (p : Pkg) (k : Nat) (f : Entry → Entry) : (p.updEntry k f).badLines = p.badLines := rfl
@[simp] theorem Pkg.updEntry_badSpots (p : Pkg) (k : Nat) (f : Entry → Entry) : (p.updEntry k f).badSpots = p.badSpots := rfl
@[simp] theorem Pkg.updEntry_l1 (p : Pkg) (k : Nat) (f : Entry → Entry) : (p.updEntry k f).l1 = p.l1 := rfl
@[simp] theorem Pkg.updEntry_owner (p : Pkg) (k : Nat) (f : Entry → Entry) : (p.updEntry k f).owner = p.owner := rfl
@[simp] theorem Pkg.updEntry_pinned (p : Pkg) (k : Nat) (f : Entry → Entry) : (p.updEntry k f).pinned = p.pinned := rfl
@[simp] theorem Pkg.updEntry_tlb (p : Pkg) (k : Nat) (f : Entry → Entry) : (p.updEntry k f).tlb = p.tlb := rfl
@[simp] theorem Pkg.updEntry_invalidations (p : Pkg) (k : Nat) (f : Entry → Entry) : (p.updEntry k f).invalidations = p.invalidations := rfl
@[simp] theorem Pkg.updEntry_frameKeys (p : Pkg) (k : Nat) (f : Entry → Entry) : (p.updEntry k f).frameKeys = p.frameKeys := rfl
@[simp] theorem Pkg.updEntry_keyVf (p : Pkg) (k : Nat) (f : Entry → Entry) : (p.updEntry k f).keyVf = p.keyVf := rfl
@[simp] theorem Pkg.updEntry_regions (p : Pkg) (k : Nat) (f : Entry → Entry) : (p.updEntry k f).regions = p.regions := rfl
@[simp] theorem Pkg.updEntry_aliasLines (p : Pkg) (k : Nat) (f : Entry → Entry) : (p.updEntry k f).aliasLines = p.aliasLines := rfl
@[simp] theorem Pkg.updEntry_devWrites (p : Pkg) (k : Nat) (f : Entry → Entry) : (p.updEntry k f).devWrites = p.devWrites := rfl
@[simp] theorem Pkg.updEntry_codeBefore (p : Pkg) (k : Nat) (f : Entry → Entry) : (p.updEntry k f).codeBefore = p.codeBefore := rfl
@[simp] theorem Pkg.updEntry_owedEnds (p : Pkg) (k : Nat) (f : Entry → Entry) : (p.updEntry k f).owedEnds = p.owedEnds := rfl
@[simp] theorem Pkg.updEntry_slopes (p : Pkg) (k : Nat) (f : Entry → Entry) : (p.updEntry k f).slopes = p.slopes := rfl
@[simp] theorem Pkg.updEntry_stepCeilings (p : Pkg) (k : Nat) (f : Entry → Entry) : (p.updEntry k f).stepCeilings = p.stepCeilings := rfl
@[simp] theorem Pkg.updEntry_hostRing (p : Pkg) (k : Nat) (f : Entry → Entry) : (p.updEntry k f).hostRing = p.hostRing := rfl
@[simp] theorem Pkg.updEntry_outOfStep (p : Pkg) (k : Nat) (f : Entry → Entry) : (p.updEntry k f).outOfStep = p.outOfStep := rfl
@[simp] theorem Pkg.updEntry_chains (p : Pkg) (k : Nat) (f : Entry → Entry) : (p.updEntry k f).chains = p.chains := rfl
@[simp] theorem Pkg.updEntry_entries (p : Pkg) (k : Nat) (f : Entry → Entry) : (p.updEntry k f).entries = p.entries.update k f := rfl
@[simp] theorem Pkg.updEntry_sent (p : Pkg) (k : Nat) (f : Entry → Entry) : (p.updEntry k f).sent = p.sent := rfl
@[simp] theorem Pkg.updEntry_outbox (p : Pkg) (k : Nat) (f : Entry → Entry) : (p.updEntry k f).outbox = p.outbox := rfl
@[simp] theorem Pkg.updEntry_yardPort (p : Pkg) (k : Nat) (f : Entry → Entry) : (p.updEntry k f).yardPort = p.yardPort := rfl
@[simp] theorem Pkg.updEntry_planesDown (p : Pkg) (k : Nat) (f : Entry → Entry) : (p.updEntry k f).planesDown = p.planesDown := rfl
@[simp] theorem Pkg.updEntry_planeFailures (p : Pkg) (k : Nat) (f : Entry → Entry) : (p.updEntry k f).planeFailures = p.planeFailures := rfl
@[simp] theorem Pkg.updEntry_linkErrors (p : Pkg) (k : Nat) (f : Entry → Entry) : (p.updEntry k f).linkErrors = p.linkErrors := rfl
@[simp] theorem Pkg.updEntry_raisings (p : Pkg) (k : Nat) (f : Entry → Entry) : (p.updEntry k f).raisings = p.raisings := rfl
@[simp] theorem Pkg.updEntry_lastRaisingSeq (p : Pkg) (k : Nat) (f : Entry → Entry) : (p.updEntry k f).lastRaisingSeq = p.lastRaisingSeq := rfl
@[simp] theorem Pkg.updEntry_inStep (p : Pkg) (k : Nat) (f : Entry → Entry) : (p.updEntry k f).inStep = p.inStep := rfl
@[simp] theorem Pkg.updEntry_goodOffsets (p : Pkg) (k : Nat) (f : Entry → Entry) : (p.updEntry k f).goodOffsets = p.goodOffsets := rfl
@[simp] theorem Pkg.updEntry_msgs (p : Pkg) (k : Nat) (f : Entry → Entry) : (p.updEntry k f).msgs = p.msgs := rfl
@[simp] theorem Pkg.updEntry_published (p : Pkg) (k : Nat) (f : Entry → Entry) : (p.updEntry k f).published = p.published := rfl
@[simp] theorem Pkg.updEntry_framers (p : Pkg) (k : Nat) (f : Entry → Entry) : (p.updEntry k f).framers = p.framers := rfl
@[simp] theorem Pkg.updEntry_framer (p : Pkg) (k : Nat) (f : Entry → Entry) : (p.updEntry k f).framer = p.framer := rfl
@[simp] theorem Pkg.updEntry_framingPriority (p : Pkg) (k : Nat) (f : Entry → Entry) : (p.updEntry k f).framingPriority = p.framingPriority := rfl
@[simp] theorem Pkg.updEntry_ptpStamps (p : Pkg) (k : Nat) (f : Entry → Entry) : (p.updEntry k f).ptpStamps = p.ptpStamps := rfl
@[simp] theorem Pkg.updEntry_mgmtInbox (p : Pkg) (k : Nat) (f : Entry → Entry) : (p.updEntry k f).mgmtInbox = p.mgmtInbox := rfl
@[simp] theorem Pkg.updEntry_hostLoads (p : Pkg) (k : Nat) (f : Entry → Entry) : (p.updEntry k f).hostLoads = p.hostLoads := rfl
@[simp] theorem Pkg.updEntry_images (p : Pkg) (k : Nat) (f : Entry → Entry) : (p.updEntry k f).images = p.images := rfl

/-! ### Pkg.updVf -/

@[simp] theorem Pkg.updVf_cur (p : Pkg) (k : Nat) (f : Vf → Vf) : (p.updVf k f).cur = p.cur := rfl
@[simp] theorem Pkg.updVf_fresh (p : Pkg) (k : Nat) (f : Vf → Vf) : (p.updVf k f).fresh = p.fresh := rfl
@[simp] theorem Pkg.updVf_time (p : Pkg) (k : Nat) (f : Vf → Vf) : (p.updVf k f).time = p.time := rfl
@[simp] theorem Pkg.updVf_phases (p : Pkg) (k : Nat) (f : Vf → Vf) : (p.updVf k f).phases = p.phases := rfl
@[simp] theorem Pkg.updVf_issues (p : Pkg) (k : Nat) (f : Vf → Vf) : (p.updVf k f).issues = p.issues := rfl
@[simp] theorem Pkg.updVf_nextId (p : Pkg) (k : Nat) (f : Vf → Vf) : (p.updVf k f).nextId = p.nextId := rfl
@[simp] theorem Pkg.updVf_strands (p : Pkg) (k : Nat) (f : Vf → Vf) : (p.updVf k f).strands = p.strands := rfl
@[simp] theorem Pkg.updVf_bents (p : Pkg) (k : Nat) (f : Vf → Vf) : (p.updVf k f).bents = p.bents := rfl
@[simp] theorem Pkg.updVf_launches (p : Pkg) (k : Nat) (f : Vf → Vf) : (p.updVf k f).launches = p.launches := rfl
@[simp] theorem Pkg.updVf_trees (p : Pkg) (k : Nat) (f : Vf → Vf) : (p.updVf k f).trees = p.trees := rfl
@[simp] theorem Pkg.updVf_ctxs (p : Pkg) (k : Nat) (f : Vf → Vf) : (p.updVf k f).ctxs = p.ctxs := rfl
@[simp] theorem Pkg.updVf_clusters (p : Pkg) (k : Nat) (f : Vf → Vf) : (p.updVf k f).clusters = p.clusters := rfl
@[simp] theorem Pkg.updVf_vfs (p : Pkg) (k : Nat) (f : Vf → Vf) : (p.updVf k f).vfs = p.vfs.set k (f (p.vfs.get k {})) := rfl
@[simp] theorem Pkg.updVf_cores (p : Pkg) (k : Nat) (f : Vf → Vf) : (p.updVf k f).cores = p.cores := rfl
@[simp] theorem Pkg.updVf_mem (p : Pkg) (k : Nat) (f : Vf → Vf) : (p.updVf k f).mem = p.mem := rfl
@[simp] theorem Pkg.updVf_hostMem (p : Pkg) (k : Nat) (f : Vf → Vf) : (p.updVf k f).hostMem = p.hostMem := rfl
@[simp] theorem Pkg.updVf_badLines (p : Pkg) (k : Nat) (f : Vf → Vf) : (p.updVf k f).badLines = p.badLines := rfl
@[simp] theorem Pkg.updVf_badSpots (p : Pkg) (k : Nat) (f : Vf → Vf) : (p.updVf k f).badSpots = p.badSpots := rfl
@[simp] theorem Pkg.updVf_l1 (p : Pkg) (k : Nat) (f : Vf → Vf) : (p.updVf k f).l1 = p.l1 := rfl
@[simp] theorem Pkg.updVf_owner (p : Pkg) (k : Nat) (f : Vf → Vf) : (p.updVf k f).owner = p.owner := rfl
@[simp] theorem Pkg.updVf_pinned (p : Pkg) (k : Nat) (f : Vf → Vf) : (p.updVf k f).pinned = p.pinned := rfl
@[simp] theorem Pkg.updVf_tlb (p : Pkg) (k : Nat) (f : Vf → Vf) : (p.updVf k f).tlb = p.tlb := rfl
@[simp] theorem Pkg.updVf_invalidations (p : Pkg) (k : Nat) (f : Vf → Vf) : (p.updVf k f).invalidations = p.invalidations := rfl
@[simp] theorem Pkg.updVf_frameKeys (p : Pkg) (k : Nat) (f : Vf → Vf) : (p.updVf k f).frameKeys = p.frameKeys := rfl
@[simp] theorem Pkg.updVf_keyVf (p : Pkg) (k : Nat) (f : Vf → Vf) : (p.updVf k f).keyVf = p.keyVf := rfl
@[simp] theorem Pkg.updVf_regions (p : Pkg) (k : Nat) (f : Vf → Vf) : (p.updVf k f).regions = p.regions := rfl
@[simp] theorem Pkg.updVf_aliasLines (p : Pkg) (k : Nat) (f : Vf → Vf) : (p.updVf k f).aliasLines = p.aliasLines := rfl
@[simp] theorem Pkg.updVf_devWrites (p : Pkg) (k : Nat) (f : Vf → Vf) : (p.updVf k f).devWrites = p.devWrites := rfl
@[simp] theorem Pkg.updVf_codeBefore (p : Pkg) (k : Nat) (f : Vf → Vf) : (p.updVf k f).codeBefore = p.codeBefore := rfl
@[simp] theorem Pkg.updVf_owedEnds (p : Pkg) (k : Nat) (f : Vf → Vf) : (p.updVf k f).owedEnds = p.owedEnds := rfl
@[simp] theorem Pkg.updVf_slopes (p : Pkg) (k : Nat) (f : Vf → Vf) : (p.updVf k f).slopes = p.slopes := rfl
@[simp] theorem Pkg.updVf_stepCeilings (p : Pkg) (k : Nat) (f : Vf → Vf) : (p.updVf k f).stepCeilings = p.stepCeilings := rfl
@[simp] theorem Pkg.updVf_hostRing (p : Pkg) (k : Nat) (f : Vf → Vf) : (p.updVf k f).hostRing = p.hostRing := rfl
@[simp] theorem Pkg.updVf_outOfStep (p : Pkg) (k : Nat) (f : Vf → Vf) : (p.updVf k f).outOfStep = p.outOfStep := rfl
@[simp] theorem Pkg.updVf_chains (p : Pkg) (k : Nat) (f : Vf → Vf) : (p.updVf k f).chains = p.chains := rfl
@[simp] theorem Pkg.updVf_entries (p : Pkg) (k : Nat) (f : Vf → Vf) : (p.updVf k f).entries = p.entries := rfl
@[simp] theorem Pkg.updVf_sent (p : Pkg) (k : Nat) (f : Vf → Vf) : (p.updVf k f).sent = p.sent := rfl
@[simp] theorem Pkg.updVf_outbox (p : Pkg) (k : Nat) (f : Vf → Vf) : (p.updVf k f).outbox = p.outbox := rfl
@[simp] theorem Pkg.updVf_yardPort (p : Pkg) (k : Nat) (f : Vf → Vf) : (p.updVf k f).yardPort = p.yardPort := rfl
@[simp] theorem Pkg.updVf_planesDown (p : Pkg) (k : Nat) (f : Vf → Vf) : (p.updVf k f).planesDown = p.planesDown := rfl
@[simp] theorem Pkg.updVf_planeFailures (p : Pkg) (k : Nat) (f : Vf → Vf) : (p.updVf k f).planeFailures = p.planeFailures := rfl
@[simp] theorem Pkg.updVf_linkErrors (p : Pkg) (k : Nat) (f : Vf → Vf) : (p.updVf k f).linkErrors = p.linkErrors := rfl
@[simp] theorem Pkg.updVf_raisings (p : Pkg) (k : Nat) (f : Vf → Vf) : (p.updVf k f).raisings = p.raisings := rfl
@[simp] theorem Pkg.updVf_lastRaisingSeq (p : Pkg) (k : Nat) (f : Vf → Vf) : (p.updVf k f).lastRaisingSeq = p.lastRaisingSeq := rfl
@[simp] theorem Pkg.updVf_inStep (p : Pkg) (k : Nat) (f : Vf → Vf) : (p.updVf k f).inStep = p.inStep := rfl
@[simp] theorem Pkg.updVf_goodOffsets (p : Pkg) (k : Nat) (f : Vf → Vf) : (p.updVf k f).goodOffsets = p.goodOffsets := rfl
@[simp] theorem Pkg.updVf_msgs (p : Pkg) (k : Nat) (f : Vf → Vf) : (p.updVf k f).msgs = p.msgs := rfl
@[simp] theorem Pkg.updVf_published (p : Pkg) (k : Nat) (f : Vf → Vf) : (p.updVf k f).published = p.published := rfl
@[simp] theorem Pkg.updVf_framers (p : Pkg) (k : Nat) (f : Vf → Vf) : (p.updVf k f).framers = p.framers := rfl
@[simp] theorem Pkg.updVf_framer (p : Pkg) (k : Nat) (f : Vf → Vf) : (p.updVf k f).framer = p.framer := rfl
@[simp] theorem Pkg.updVf_framingPriority (p : Pkg) (k : Nat) (f : Vf → Vf) : (p.updVf k f).framingPriority = p.framingPriority := rfl
@[simp] theorem Pkg.updVf_ptpStamps (p : Pkg) (k : Nat) (f : Vf → Vf) : (p.updVf k f).ptpStamps = p.ptpStamps := rfl
@[simp] theorem Pkg.updVf_mgmtInbox (p : Pkg) (k : Nat) (f : Vf → Vf) : (p.updVf k f).mgmtInbox = p.mgmtInbox := rfl
@[simp] theorem Pkg.updVf_hostLoads (p : Pkg) (k : Nat) (f : Vf → Vf) : (p.updVf k f).hostLoads = p.hostLoads := rfl
@[simp] theorem Pkg.updVf_images (p : Pkg) (k : Nat) (f : Vf → Vf) : (p.updVf k f).images = p.images := rfl

/-! ### Pkg.updCluster -/

@[simp] theorem Pkg.updCluster_cur (p : Pkg) (k : Nat) (f : Cluster → Cluster) : (p.updCluster k f).cur = p.cur := rfl
@[simp] theorem Pkg.updCluster_fresh (p : Pkg) (k : Nat) (f : Cluster → Cluster) : (p.updCluster k f).fresh = p.fresh := rfl
@[simp] theorem Pkg.updCluster_time (p : Pkg) (k : Nat) (f : Cluster → Cluster) : (p.updCluster k f).time = p.time := rfl
@[simp] theorem Pkg.updCluster_phases (p : Pkg) (k : Nat) (f : Cluster → Cluster) : (p.updCluster k f).phases = p.phases := rfl
@[simp] theorem Pkg.updCluster_issues (p : Pkg) (k : Nat) (f : Cluster → Cluster) : (p.updCluster k f).issues = p.issues := rfl
@[simp] theorem Pkg.updCluster_nextId (p : Pkg) (k : Nat) (f : Cluster → Cluster) : (p.updCluster k f).nextId = p.nextId := rfl
@[simp] theorem Pkg.updCluster_strands (p : Pkg) (k : Nat) (f : Cluster → Cluster) : (p.updCluster k f).strands = p.strands := rfl
@[simp] theorem Pkg.updCluster_bents (p : Pkg) (k : Nat) (f : Cluster → Cluster) : (p.updCluster k f).bents = p.bents := rfl
@[simp] theorem Pkg.updCluster_launches (p : Pkg) (k : Nat) (f : Cluster → Cluster) : (p.updCluster k f).launches = p.launches := rfl
@[simp] theorem Pkg.updCluster_trees (p : Pkg) (k : Nat) (f : Cluster → Cluster) : (p.updCluster k f).trees = p.trees := rfl
@[simp] theorem Pkg.updCluster_ctxs (p : Pkg) (k : Nat) (f : Cluster → Cluster) : (p.updCluster k f).ctxs = p.ctxs := rfl
@[simp] theorem Pkg.updCluster_clusters (p : Pkg) (k : Nat) (f : Cluster → Cluster) : (p.updCluster k f).clusters = p.clusters.set k (f (p.clusters.get k {})) := rfl
@[simp] theorem Pkg.updCluster_vfs (p : Pkg) (k : Nat) (f : Cluster → Cluster) : (p.updCluster k f).vfs = p.vfs := rfl
@[simp] theorem Pkg.updCluster_cores (p : Pkg) (k : Nat) (f : Cluster → Cluster) : (p.updCluster k f).cores = p.cores := rfl
@[simp] theorem Pkg.updCluster_mem (p : Pkg) (k : Nat) (f : Cluster → Cluster) : (p.updCluster k f).mem = p.mem := rfl
@[simp] theorem Pkg.updCluster_hostMem (p : Pkg) (k : Nat) (f : Cluster → Cluster) : (p.updCluster k f).hostMem = p.hostMem := rfl
@[simp] theorem Pkg.updCluster_badLines (p : Pkg) (k : Nat) (f : Cluster → Cluster) : (p.updCluster k f).badLines = p.badLines := rfl
@[simp] theorem Pkg.updCluster_badSpots (p : Pkg) (k : Nat) (f : Cluster → Cluster) : (p.updCluster k f).badSpots = p.badSpots := rfl
@[simp] theorem Pkg.updCluster_l1 (p : Pkg) (k : Nat) (f : Cluster → Cluster) : (p.updCluster k f).l1 = p.l1 := rfl
@[simp] theorem Pkg.updCluster_owner (p : Pkg) (k : Nat) (f : Cluster → Cluster) : (p.updCluster k f).owner = p.owner := rfl
@[simp] theorem Pkg.updCluster_pinned (p : Pkg) (k : Nat) (f : Cluster → Cluster) : (p.updCluster k f).pinned = p.pinned := rfl
@[simp] theorem Pkg.updCluster_tlb (p : Pkg) (k : Nat) (f : Cluster → Cluster) : (p.updCluster k f).tlb = p.tlb := rfl
@[simp] theorem Pkg.updCluster_invalidations (p : Pkg) (k : Nat) (f : Cluster → Cluster) : (p.updCluster k f).invalidations = p.invalidations := rfl
@[simp] theorem Pkg.updCluster_frameKeys (p : Pkg) (k : Nat) (f : Cluster → Cluster) : (p.updCluster k f).frameKeys = p.frameKeys := rfl
@[simp] theorem Pkg.updCluster_keyVf (p : Pkg) (k : Nat) (f : Cluster → Cluster) : (p.updCluster k f).keyVf = p.keyVf := rfl
@[simp] theorem Pkg.updCluster_regions (p : Pkg) (k : Nat) (f : Cluster → Cluster) : (p.updCluster k f).regions = p.regions := rfl
@[simp] theorem Pkg.updCluster_aliasLines (p : Pkg) (k : Nat) (f : Cluster → Cluster) : (p.updCluster k f).aliasLines = p.aliasLines := rfl
@[simp] theorem Pkg.updCluster_devWrites (p : Pkg) (k : Nat) (f : Cluster → Cluster) : (p.updCluster k f).devWrites = p.devWrites := rfl
@[simp] theorem Pkg.updCluster_codeBefore (p : Pkg) (k : Nat) (f : Cluster → Cluster) : (p.updCluster k f).codeBefore = p.codeBefore := rfl
@[simp] theorem Pkg.updCluster_owedEnds (p : Pkg) (k : Nat) (f : Cluster → Cluster) : (p.updCluster k f).owedEnds = p.owedEnds := rfl
@[simp] theorem Pkg.updCluster_slopes (p : Pkg) (k : Nat) (f : Cluster → Cluster) : (p.updCluster k f).slopes = p.slopes := rfl
@[simp] theorem Pkg.updCluster_stepCeilings (p : Pkg) (k : Nat) (f : Cluster → Cluster) : (p.updCluster k f).stepCeilings = p.stepCeilings := rfl
@[simp] theorem Pkg.updCluster_hostRing (p : Pkg) (k : Nat) (f : Cluster → Cluster) : (p.updCluster k f).hostRing = p.hostRing := rfl
@[simp] theorem Pkg.updCluster_outOfStep (p : Pkg) (k : Nat) (f : Cluster → Cluster) : (p.updCluster k f).outOfStep = p.outOfStep := rfl
@[simp] theorem Pkg.updCluster_chains (p : Pkg) (k : Nat) (f : Cluster → Cluster) : (p.updCluster k f).chains = p.chains := rfl
@[simp] theorem Pkg.updCluster_entries (p : Pkg) (k : Nat) (f : Cluster → Cluster) : (p.updCluster k f).entries = p.entries := rfl
@[simp] theorem Pkg.updCluster_sent (p : Pkg) (k : Nat) (f : Cluster → Cluster) : (p.updCluster k f).sent = p.sent := rfl
@[simp] theorem Pkg.updCluster_outbox (p : Pkg) (k : Nat) (f : Cluster → Cluster) : (p.updCluster k f).outbox = p.outbox := rfl
@[simp] theorem Pkg.updCluster_yardPort (p : Pkg) (k : Nat) (f : Cluster → Cluster) : (p.updCluster k f).yardPort = p.yardPort := rfl
@[simp] theorem Pkg.updCluster_planesDown (p : Pkg) (k : Nat) (f : Cluster → Cluster) : (p.updCluster k f).planesDown = p.planesDown := rfl
@[simp] theorem Pkg.updCluster_planeFailures (p : Pkg) (k : Nat) (f : Cluster → Cluster) : (p.updCluster k f).planeFailures = p.planeFailures := rfl
@[simp] theorem Pkg.updCluster_linkErrors (p : Pkg) (k : Nat) (f : Cluster → Cluster) : (p.updCluster k f).linkErrors = p.linkErrors := rfl
@[simp] theorem Pkg.updCluster_raisings (p : Pkg) (k : Nat) (f : Cluster → Cluster) : (p.updCluster k f).raisings = p.raisings := rfl
@[simp] theorem Pkg.updCluster_lastRaisingSeq (p : Pkg) (k : Nat) (f : Cluster → Cluster) : (p.updCluster k f).lastRaisingSeq = p.lastRaisingSeq := rfl
@[simp] theorem Pkg.updCluster_inStep (p : Pkg) (k : Nat) (f : Cluster → Cluster) : (p.updCluster k f).inStep = p.inStep := rfl
@[simp] theorem Pkg.updCluster_goodOffsets (p : Pkg) (k : Nat) (f : Cluster → Cluster) : (p.updCluster k f).goodOffsets = p.goodOffsets := rfl
@[simp] theorem Pkg.updCluster_msgs (p : Pkg) (k : Nat) (f : Cluster → Cluster) : (p.updCluster k f).msgs = p.msgs := rfl
@[simp] theorem Pkg.updCluster_published (p : Pkg) (k : Nat) (f : Cluster → Cluster) : (p.updCluster k f).published = p.published := rfl
@[simp] theorem Pkg.updCluster_framers (p : Pkg) (k : Nat) (f : Cluster → Cluster) : (p.updCluster k f).framers = p.framers := rfl
@[simp] theorem Pkg.updCluster_framer (p : Pkg) (k : Nat) (f : Cluster → Cluster) : (p.updCluster k f).framer = p.framer := rfl
@[simp] theorem Pkg.updCluster_framingPriority (p : Pkg) (k : Nat) (f : Cluster → Cluster) : (p.updCluster k f).framingPriority = p.framingPriority := rfl
@[simp] theorem Pkg.updCluster_ptpStamps (p : Pkg) (k : Nat) (f : Cluster → Cluster) : (p.updCluster k f).ptpStamps = p.ptpStamps := rfl
@[simp] theorem Pkg.updCluster_mgmtInbox (p : Pkg) (k : Nat) (f : Cluster → Cluster) : (p.updCluster k f).mgmtInbox = p.mgmtInbox := rfl
@[simp] theorem Pkg.updCluster_hostLoads (p : Pkg) (k : Nat) (f : Cluster → Cluster) : (p.updCluster k f).hostLoads = p.hostLoads := rfl
@[simp] theorem Pkg.updCluster_images (p : Pkg) (k : Nat) (f : Cluster → Cluster) : (p.updCluster k f).images = p.images := rfl

/-! ### Pkg.updSlope -/

@[simp] theorem Pkg.updSlope_cur (p : Pkg) (k : Nat) (f : Slope → Slope) : (p.updSlope k f).cur = p.cur := rfl
@[simp] theorem Pkg.updSlope_fresh (p : Pkg) (k : Nat) (f : Slope → Slope) : (p.updSlope k f).fresh = p.fresh := rfl
@[simp] theorem Pkg.updSlope_time (p : Pkg) (k : Nat) (f : Slope → Slope) : (p.updSlope k f).time = p.time := rfl
@[simp] theorem Pkg.updSlope_phases (p : Pkg) (k : Nat) (f : Slope → Slope) : (p.updSlope k f).phases = p.phases := rfl
@[simp] theorem Pkg.updSlope_issues (p : Pkg) (k : Nat) (f : Slope → Slope) : (p.updSlope k f).issues = p.issues := rfl
@[simp] theorem Pkg.updSlope_nextId (p : Pkg) (k : Nat) (f : Slope → Slope) : (p.updSlope k f).nextId = p.nextId := rfl
@[simp] theorem Pkg.updSlope_strands (p : Pkg) (k : Nat) (f : Slope → Slope) : (p.updSlope k f).strands = p.strands := rfl
@[simp] theorem Pkg.updSlope_bents (p : Pkg) (k : Nat) (f : Slope → Slope) : (p.updSlope k f).bents = p.bents := rfl
@[simp] theorem Pkg.updSlope_launches (p : Pkg) (k : Nat) (f : Slope → Slope) : (p.updSlope k f).launches = p.launches := rfl
@[simp] theorem Pkg.updSlope_trees (p : Pkg) (k : Nat) (f : Slope → Slope) : (p.updSlope k f).trees = p.trees := rfl
@[simp] theorem Pkg.updSlope_ctxs (p : Pkg) (k : Nat) (f : Slope → Slope) : (p.updSlope k f).ctxs = p.ctxs := rfl
@[simp] theorem Pkg.updSlope_clusters (p : Pkg) (k : Nat) (f : Slope → Slope) : (p.updSlope k f).clusters = p.clusters := rfl
@[simp] theorem Pkg.updSlope_vfs (p : Pkg) (k : Nat) (f : Slope → Slope) : (p.updSlope k f).vfs = p.vfs := rfl
@[simp] theorem Pkg.updSlope_cores (p : Pkg) (k : Nat) (f : Slope → Slope) : (p.updSlope k f).cores = p.cores := rfl
@[simp] theorem Pkg.updSlope_mem (p : Pkg) (k : Nat) (f : Slope → Slope) : (p.updSlope k f).mem = p.mem := rfl
@[simp] theorem Pkg.updSlope_hostMem (p : Pkg) (k : Nat) (f : Slope → Slope) : (p.updSlope k f).hostMem = p.hostMem := rfl
@[simp] theorem Pkg.updSlope_badLines (p : Pkg) (k : Nat) (f : Slope → Slope) : (p.updSlope k f).badLines = p.badLines := rfl
@[simp] theorem Pkg.updSlope_badSpots (p : Pkg) (k : Nat) (f : Slope → Slope) : (p.updSlope k f).badSpots = p.badSpots := rfl
@[simp] theorem Pkg.updSlope_l1 (p : Pkg) (k : Nat) (f : Slope → Slope) : (p.updSlope k f).l1 = p.l1 := rfl
@[simp] theorem Pkg.updSlope_owner (p : Pkg) (k : Nat) (f : Slope → Slope) : (p.updSlope k f).owner = p.owner := rfl
@[simp] theorem Pkg.updSlope_pinned (p : Pkg) (k : Nat) (f : Slope → Slope) : (p.updSlope k f).pinned = p.pinned := rfl
@[simp] theorem Pkg.updSlope_tlb (p : Pkg) (k : Nat) (f : Slope → Slope) : (p.updSlope k f).tlb = p.tlb := rfl
@[simp] theorem Pkg.updSlope_invalidations (p : Pkg) (k : Nat) (f : Slope → Slope) : (p.updSlope k f).invalidations = p.invalidations := rfl
@[simp] theorem Pkg.updSlope_frameKeys (p : Pkg) (k : Nat) (f : Slope → Slope) : (p.updSlope k f).frameKeys = p.frameKeys := rfl
@[simp] theorem Pkg.updSlope_keyVf (p : Pkg) (k : Nat) (f : Slope → Slope) : (p.updSlope k f).keyVf = p.keyVf := rfl
@[simp] theorem Pkg.updSlope_regions (p : Pkg) (k : Nat) (f : Slope → Slope) : (p.updSlope k f).regions = p.regions := rfl
@[simp] theorem Pkg.updSlope_aliasLines (p : Pkg) (k : Nat) (f : Slope → Slope) : (p.updSlope k f).aliasLines = p.aliasLines := rfl
@[simp] theorem Pkg.updSlope_devWrites (p : Pkg) (k : Nat) (f : Slope → Slope) : (p.updSlope k f).devWrites = p.devWrites := rfl
@[simp] theorem Pkg.updSlope_codeBefore (p : Pkg) (k : Nat) (f : Slope → Slope) : (p.updSlope k f).codeBefore = p.codeBefore := rfl
@[simp] theorem Pkg.updSlope_owedEnds (p : Pkg) (k : Nat) (f : Slope → Slope) : (p.updSlope k f).owedEnds = p.owedEnds := rfl
@[simp] theorem Pkg.updSlope_slopes (p : Pkg) (k : Nat) (f : Slope → Slope) :
    (p.updSlope k f).slopes = p.slopes.set k (f (p.slope k)) := rfl
@[simp] theorem Pkg.updSlope_stepCeilings (p : Pkg) (k : Nat) (f : Slope → Slope) : (p.updSlope k f).stepCeilings = p.stepCeilings := rfl
@[simp] theorem Pkg.updSlope_hostRing (p : Pkg) (k : Nat) (f : Slope → Slope) : (p.updSlope k f).hostRing = p.hostRing := rfl
@[simp] theorem Pkg.updSlope_outOfStep (p : Pkg) (k : Nat) (f : Slope → Slope) : (p.updSlope k f).outOfStep = p.outOfStep := rfl
@[simp] theorem Pkg.updSlope_chains (p : Pkg) (k : Nat) (f : Slope → Slope) : (p.updSlope k f).chains = p.chains := rfl
@[simp] theorem Pkg.updSlope_entries (p : Pkg) (k : Nat) (f : Slope → Slope) : (p.updSlope k f).entries = p.entries := rfl
@[simp] theorem Pkg.updSlope_sent (p : Pkg) (k : Nat) (f : Slope → Slope) : (p.updSlope k f).sent = p.sent := rfl
@[simp] theorem Pkg.updSlope_outbox (p : Pkg) (k : Nat) (f : Slope → Slope) : (p.updSlope k f).outbox = p.outbox := rfl
@[simp] theorem Pkg.updSlope_yardPort (p : Pkg) (k : Nat) (f : Slope → Slope) : (p.updSlope k f).yardPort = p.yardPort := rfl
@[simp] theorem Pkg.updSlope_planesDown (p : Pkg) (k : Nat) (f : Slope → Slope) : (p.updSlope k f).planesDown = p.planesDown := rfl
@[simp] theorem Pkg.updSlope_planeFailures (p : Pkg) (k : Nat) (f : Slope → Slope) : (p.updSlope k f).planeFailures = p.planeFailures := rfl
@[simp] theorem Pkg.updSlope_linkErrors (p : Pkg) (k : Nat) (f : Slope → Slope) : (p.updSlope k f).linkErrors = p.linkErrors := rfl
@[simp] theorem Pkg.updSlope_raisings (p : Pkg) (k : Nat) (f : Slope → Slope) : (p.updSlope k f).raisings = p.raisings := rfl
@[simp] theorem Pkg.updSlope_lastRaisingSeq (p : Pkg) (k : Nat) (f : Slope → Slope) : (p.updSlope k f).lastRaisingSeq = p.lastRaisingSeq := rfl
@[simp] theorem Pkg.updSlope_inStep (p : Pkg) (k : Nat) (f : Slope → Slope) : (p.updSlope k f).inStep = p.inStep := rfl
@[simp] theorem Pkg.updSlope_goodOffsets (p : Pkg) (k : Nat) (f : Slope → Slope) : (p.updSlope k f).goodOffsets = p.goodOffsets := rfl
@[simp] theorem Pkg.updSlope_msgs (p : Pkg) (k : Nat) (f : Slope → Slope) : (p.updSlope k f).msgs = p.msgs := rfl
@[simp] theorem Pkg.updSlope_published (p : Pkg) (k : Nat) (f : Slope → Slope) : (p.updSlope k f).published = p.published := rfl
@[simp] theorem Pkg.updSlope_framers (p : Pkg) (k : Nat) (f : Slope → Slope) : (p.updSlope k f).framers = p.framers := rfl
@[simp] theorem Pkg.updSlope_framer (p : Pkg) (k : Nat) (f : Slope → Slope) : (p.updSlope k f).framer = p.framer := rfl
@[simp] theorem Pkg.updSlope_framingPriority (p : Pkg) (k : Nat) (f : Slope → Slope) : (p.updSlope k f).framingPriority = p.framingPriority := rfl
@[simp] theorem Pkg.updSlope_ptpStamps (p : Pkg) (k : Nat) (f : Slope → Slope) : (p.updSlope k f).ptpStamps = p.ptpStamps := rfl
@[simp] theorem Pkg.updSlope_mgmtInbox (p : Pkg) (k : Nat) (f : Slope → Slope) : (p.updSlope k f).mgmtInbox = p.mgmtInbox := rfl
@[simp] theorem Pkg.updSlope_hostLoads (p : Pkg) (k : Nat) (f : Slope → Slope) : (p.updSlope k f).hostLoads = p.hostLoads := rfl
@[simp] theorem Pkg.updSlope_images (p : Pkg) (k : Nat) (f : Slope → Slope) : (p.updSlope k f).images = p.images := rfl

/-! ### Pkg.updCore -/

@[simp] theorem Pkg.updCore_cur (p : Pkg) (k : Nat) (f : Core → Core) : (p.updCore k f).cur = p.cur := rfl
@[simp] theorem Pkg.updCore_fresh (p : Pkg) (k : Nat) (f : Core → Core) : (p.updCore k f).fresh = p.fresh := rfl
@[simp] theorem Pkg.updCore_time (p : Pkg) (k : Nat) (f : Core → Core) : (p.updCore k f).time = p.time := rfl
@[simp] theorem Pkg.updCore_phases (p : Pkg) (k : Nat) (f : Core → Core) : (p.updCore k f).phases = p.phases := rfl
@[simp] theorem Pkg.updCore_issues (p : Pkg) (k : Nat) (f : Core → Core) : (p.updCore k f).issues = p.issues := rfl
@[simp] theorem Pkg.updCore_nextId (p : Pkg) (k : Nat) (f : Core → Core) : (p.updCore k f).nextId = p.nextId := rfl
@[simp] theorem Pkg.updCore_strands (p : Pkg) (k : Nat) (f : Core → Core) : (p.updCore k f).strands = p.strands := rfl
@[simp] theorem Pkg.updCore_bents (p : Pkg) (k : Nat) (f : Core → Core) : (p.updCore k f).bents = p.bents := rfl
@[simp] theorem Pkg.updCore_launches (p : Pkg) (k : Nat) (f : Core → Core) : (p.updCore k f).launches = p.launches := rfl
@[simp] theorem Pkg.updCore_trees (p : Pkg) (k : Nat) (f : Core → Core) : (p.updCore k f).trees = p.trees := rfl
@[simp] theorem Pkg.updCore_ctxs (p : Pkg) (k : Nat) (f : Core → Core) : (p.updCore k f).ctxs = p.ctxs := rfl
@[simp] theorem Pkg.updCore_clusters (p : Pkg) (k : Nat) (f : Core → Core) : (p.updCore k f).clusters = p.clusters := rfl
@[simp] theorem Pkg.updCore_vfs (p : Pkg) (k : Nat) (f : Core → Core) : (p.updCore k f).vfs = p.vfs := rfl
@[simp] theorem Pkg.updCore_cores (p : Pkg) (k : Nat) (f : Core → Core) : (p.updCore k f).cores = p.cores.set k (f (p.core k)) := rfl
@[simp] theorem Pkg.updCore_mem (p : Pkg) (k : Nat) (f : Core → Core) : (p.updCore k f).mem = p.mem := rfl
@[simp] theorem Pkg.updCore_hostMem (p : Pkg) (k : Nat) (f : Core → Core) : (p.updCore k f).hostMem = p.hostMem := rfl
@[simp] theorem Pkg.updCore_badLines (p : Pkg) (k : Nat) (f : Core → Core) : (p.updCore k f).badLines = p.badLines := rfl
@[simp] theorem Pkg.updCore_badSpots (p : Pkg) (k : Nat) (f : Core → Core) : (p.updCore k f).badSpots = p.badSpots := rfl
@[simp] theorem Pkg.updCore_l1 (p : Pkg) (k : Nat) (f : Core → Core) : (p.updCore k f).l1 = p.l1 := rfl
@[simp] theorem Pkg.updCore_owner (p : Pkg) (k : Nat) (f : Core → Core) : (p.updCore k f).owner = p.owner := rfl
@[simp] theorem Pkg.updCore_pinned (p : Pkg) (k : Nat) (f : Core → Core) : (p.updCore k f).pinned = p.pinned := rfl
@[simp] theorem Pkg.updCore_tlb (p : Pkg) (k : Nat) (f : Core → Core) : (p.updCore k f).tlb = p.tlb := rfl
@[simp] theorem Pkg.updCore_invalidations (p : Pkg) (k : Nat) (f : Core → Core) : (p.updCore k f).invalidations = p.invalidations := rfl
@[simp] theorem Pkg.updCore_frameKeys (p : Pkg) (k : Nat) (f : Core → Core) : (p.updCore k f).frameKeys = p.frameKeys := rfl
@[simp] theorem Pkg.updCore_keyVf (p : Pkg) (k : Nat) (f : Core → Core) : (p.updCore k f).keyVf = p.keyVf := rfl
@[simp] theorem Pkg.updCore_regions (p : Pkg) (k : Nat) (f : Core → Core) : (p.updCore k f).regions = p.regions := rfl
@[simp] theorem Pkg.updCore_aliasLines (p : Pkg) (k : Nat) (f : Core → Core) : (p.updCore k f).aliasLines = p.aliasLines := rfl
@[simp] theorem Pkg.updCore_devWrites (p : Pkg) (k : Nat) (f : Core → Core) : (p.updCore k f).devWrites = p.devWrites := rfl
@[simp] theorem Pkg.updCore_codeBefore (p : Pkg) (k : Nat) (f : Core → Core) : (p.updCore k f).codeBefore = p.codeBefore := rfl
@[simp] theorem Pkg.updCore_owedEnds (p : Pkg) (k : Nat) (f : Core → Core) : (p.updCore k f).owedEnds = p.owedEnds := rfl
@[simp] theorem Pkg.updCore_slopes (p : Pkg) (k : Nat) (f : Core → Core) : (p.updCore k f).slopes = p.slopes := rfl
@[simp] theorem Pkg.updCore_stepCeilings (p : Pkg) (k : Nat) (f : Core → Core) : (p.updCore k f).stepCeilings = p.stepCeilings := rfl
@[simp] theorem Pkg.updCore_hostRing (p : Pkg) (k : Nat) (f : Core → Core) : (p.updCore k f).hostRing = p.hostRing := rfl
@[simp] theorem Pkg.updCore_outOfStep (p : Pkg) (k : Nat) (f : Core → Core) : (p.updCore k f).outOfStep = p.outOfStep := rfl
@[simp] theorem Pkg.updCore_chains (p : Pkg) (k : Nat) (f : Core → Core) : (p.updCore k f).chains = p.chains := rfl
@[simp] theorem Pkg.updCore_entries (p : Pkg) (k : Nat) (f : Core → Core) : (p.updCore k f).entries = p.entries := rfl
@[simp] theorem Pkg.updCore_sent (p : Pkg) (k : Nat) (f : Core → Core) : (p.updCore k f).sent = p.sent := rfl
@[simp] theorem Pkg.updCore_outbox (p : Pkg) (k : Nat) (f : Core → Core) : (p.updCore k f).outbox = p.outbox := rfl
@[simp] theorem Pkg.updCore_yardPort (p : Pkg) (k : Nat) (f : Core → Core) : (p.updCore k f).yardPort = p.yardPort := rfl
@[simp] theorem Pkg.updCore_planesDown (p : Pkg) (k : Nat) (f : Core → Core) : (p.updCore k f).planesDown = p.planesDown := rfl
@[simp] theorem Pkg.updCore_planeFailures (p : Pkg) (k : Nat) (f : Core → Core) : (p.updCore k f).planeFailures = p.planeFailures := rfl
@[simp] theorem Pkg.updCore_linkErrors (p : Pkg) (k : Nat) (f : Core → Core) : (p.updCore k f).linkErrors = p.linkErrors := rfl
@[simp] theorem Pkg.updCore_raisings (p : Pkg) (k : Nat) (f : Core → Core) : (p.updCore k f).raisings = p.raisings := rfl
@[simp] theorem Pkg.updCore_lastRaisingSeq (p : Pkg) (k : Nat) (f : Core → Core) : (p.updCore k f).lastRaisingSeq = p.lastRaisingSeq := rfl
@[simp] theorem Pkg.updCore_inStep (p : Pkg) (k : Nat) (f : Core → Core) : (p.updCore k f).inStep = p.inStep := rfl
@[simp] theorem Pkg.updCore_goodOffsets (p : Pkg) (k : Nat) (f : Core → Core) : (p.updCore k f).goodOffsets = p.goodOffsets := rfl
@[simp] theorem Pkg.updCore_msgs (p : Pkg) (k : Nat) (f : Core → Core) : (p.updCore k f).msgs = p.msgs := rfl
@[simp] theorem Pkg.updCore_published (p : Pkg) (k : Nat) (f : Core → Core) : (p.updCore k f).published = p.published := rfl
@[simp] theorem Pkg.updCore_framers (p : Pkg) (k : Nat) (f : Core → Core) : (p.updCore k f).framers = p.framers := rfl
@[simp] theorem Pkg.updCore_framer (p : Pkg) (k : Nat) (f : Core → Core) : (p.updCore k f).framer = p.framer := rfl
@[simp] theorem Pkg.updCore_framingPriority (p : Pkg) (k : Nat) (f : Core → Core) : (p.updCore k f).framingPriority = p.framingPriority := rfl
@[simp] theorem Pkg.updCore_ptpStamps (p : Pkg) (k : Nat) (f : Core → Core) : (p.updCore k f).ptpStamps = p.ptpStamps := rfl
@[simp] theorem Pkg.updCore_mgmtInbox (p : Pkg) (k : Nat) (f : Core → Core) : (p.updCore k f).mgmtInbox = p.mgmtInbox := rfl
@[simp] theorem Pkg.updCore_hostLoads (p : Pkg) (k : Nat) (f : Core → Core) : (p.updCore k f).hostLoads = p.hostLoads := rfl
@[simp] theorem Pkg.updCore_images (p : Pkg) (k : Nat) (f : Core → Core) : (p.updCore k f).images = p.images := rfl

/-! ### Pkg.say -/

@[simp] theorem Pkg.say_cur (p : Pkg) (m : Msg) : (p.say m).cur = p.cur := rfl
@[simp] theorem Pkg.say_fresh (p : Pkg) (m : Msg) : (p.say m).fresh = p.fresh := rfl
@[simp] theorem Pkg.say_time (p : Pkg) (m : Msg) : (p.say m).time = p.time := rfl
@[simp] theorem Pkg.say_phases (p : Pkg) (m : Msg) : (p.say m).phases = p.phases := rfl
@[simp] theorem Pkg.say_issues (p : Pkg) (m : Msg) : (p.say m).issues = p.issues := rfl
@[simp] theorem Pkg.say_nextId (p : Pkg) (m : Msg) : (p.say m).nextId = p.nextId := rfl
@[simp] theorem Pkg.say_strands (p : Pkg) (m : Msg) : (p.say m).strands = p.strands := rfl
@[simp] theorem Pkg.say_bents (p : Pkg) (m : Msg) : (p.say m).bents = p.bents := rfl
@[simp] theorem Pkg.say_launches (p : Pkg) (m : Msg) : (p.say m).launches = p.launches := rfl
@[simp] theorem Pkg.say_trees (p : Pkg) (m : Msg) : (p.say m).trees = p.trees := rfl
@[simp] theorem Pkg.say_ctxs (p : Pkg) (m : Msg) : (p.say m).ctxs = p.ctxs := rfl
@[simp] theorem Pkg.say_clusters (p : Pkg) (m : Msg) : (p.say m).clusters = p.clusters := rfl
@[simp] theorem Pkg.say_vfs (p : Pkg) (m : Msg) : (p.say m).vfs = p.vfs := rfl
@[simp] theorem Pkg.say_cores (p : Pkg) (m : Msg) : (p.say m).cores = p.cores := rfl
@[simp] theorem Pkg.say_mem (p : Pkg) (m : Msg) : (p.say m).mem = p.mem := rfl
@[simp] theorem Pkg.say_hostMem (p : Pkg) (m : Msg) : (p.say m).hostMem = p.hostMem := rfl
@[simp] theorem Pkg.say_badLines (p : Pkg) (m : Msg) : (p.say m).badLines = p.badLines := rfl
@[simp] theorem Pkg.say_badSpots (p : Pkg) (m : Msg) : (p.say m).badSpots = p.badSpots := rfl
@[simp] theorem Pkg.say_l1 (p : Pkg) (m : Msg) : (p.say m).l1 = p.l1 := rfl
@[simp] theorem Pkg.say_owner (p : Pkg) (m : Msg) : (p.say m).owner = p.owner := rfl
@[simp] theorem Pkg.say_pinned (p : Pkg) (m : Msg) : (p.say m).pinned = p.pinned := rfl
@[simp] theorem Pkg.say_tlb (p : Pkg) (m : Msg) : (p.say m).tlb = p.tlb := rfl
@[simp] theorem Pkg.say_invalidations (p : Pkg) (m : Msg) : (p.say m).invalidations = p.invalidations := rfl
@[simp] theorem Pkg.say_frameKeys (p : Pkg) (m : Msg) : (p.say m).frameKeys = p.frameKeys := rfl
@[simp] theorem Pkg.say_keyVf (p : Pkg) (m : Msg) : (p.say m).keyVf = p.keyVf := rfl
@[simp] theorem Pkg.say_regions (p : Pkg) (m : Msg) : (p.say m).regions = p.regions := rfl
@[simp] theorem Pkg.say_aliasLines (p : Pkg) (m : Msg) : (p.say m).aliasLines = p.aliasLines := rfl
@[simp] theorem Pkg.say_devWrites (p : Pkg) (m : Msg) : (p.say m).devWrites = p.devWrites := rfl
@[simp] theorem Pkg.say_codeBefore (p : Pkg) (m : Msg) : (p.say m).codeBefore = p.codeBefore := rfl
@[simp] theorem Pkg.say_owedEnds (p : Pkg) (m : Msg) : (p.say m).owedEnds = p.owedEnds := rfl
@[simp] theorem Pkg.say_slopes (p : Pkg) (m : Msg) : (p.say m).slopes = p.slopes := rfl
@[simp] theorem Pkg.say_stepCeilings (p : Pkg) (m : Msg) : (p.say m).stepCeilings = p.stepCeilings := rfl
@[simp] theorem Pkg.say_hostRing (p : Pkg) (m : Msg) : (p.say m).hostRing = p.hostRing := rfl
@[simp] theorem Pkg.say_outOfStep (p : Pkg) (m : Msg) : (p.say m).outOfStep = p.outOfStep := rfl
@[simp] theorem Pkg.say_chains (p : Pkg) (m : Msg) : (p.say m).chains = p.chains := rfl
@[simp] theorem Pkg.say_entries (p : Pkg) (m : Msg) : (p.say m).entries = p.entries := rfl
@[simp] theorem Pkg.say_sent (p : Pkg) (m : Msg) : (p.say m).sent = p.sent := rfl
@[simp] theorem Pkg.say_outbox (p : Pkg) (m : Msg) : (p.say m).outbox = p.outbox := rfl
@[simp] theorem Pkg.say_yardPort (p : Pkg) (m : Msg) : (p.say m).yardPort = p.yardPort := rfl
@[simp] theorem Pkg.say_planesDown (p : Pkg) (m : Msg) : (p.say m).planesDown = p.planesDown := rfl
@[simp] theorem Pkg.say_planeFailures (p : Pkg) (m : Msg) : (p.say m).planeFailures = p.planeFailures := rfl
@[simp] theorem Pkg.say_linkErrors (p : Pkg) (m : Msg) : (p.say m).linkErrors = p.linkErrors := rfl
@[simp] theorem Pkg.say_raisings (p : Pkg) (m : Msg) : (p.say m).raisings = p.raisings := rfl
@[simp] theorem Pkg.say_lastRaisingSeq (p : Pkg) (m : Msg) : (p.say m).lastRaisingSeq = p.lastRaisingSeq := rfl
@[simp] theorem Pkg.say_inStep (p : Pkg) (m : Msg) : (p.say m).inStep = p.inStep := rfl
@[simp] theorem Pkg.say_goodOffsets (p : Pkg) (m : Msg) : (p.say m).goodOffsets = p.goodOffsets := rfl
@[simp] theorem Pkg.say_msgs (p : Pkg) (m : Msg) : (p.say m).msgs = p.msgs ++ [m] := rfl
@[simp] theorem Pkg.say_published (p : Pkg) (m : Msg) : (p.say m).published = p.published := rfl
@[simp] theorem Pkg.say_framers (p : Pkg) (m : Msg) : (p.say m).framers = p.framers := rfl
@[simp] theorem Pkg.say_framer (p : Pkg) (m : Msg) : (p.say m).framer = p.framer := rfl
@[simp] theorem Pkg.say_framingPriority (p : Pkg) (m : Msg) : (p.say m).framingPriority = p.framingPriority := rfl
@[simp] theorem Pkg.say_ptpStamps (p : Pkg) (m : Msg) : (p.say m).ptpStamps = p.ptpStamps := rfl
@[simp] theorem Pkg.say_mgmtInbox (p : Pkg) (m : Msg) : (p.say m).mgmtInbox = p.mgmtInbox := rfl
@[simp] theorem Pkg.say_hostLoads (p : Pkg) (m : Msg) : (p.say m).hostLoads = p.hostLoads := rfl
@[simp] theorem Pkg.say_images (p : Pkg) (m : Msg) : (p.say m).images = p.images := rfl

/-! ### Pkg.takeId -/

@[simp] theorem Pkg.takeId_fst (p : Pkg) : p.takeId.1 = p.nextId := rfl
@[simp] theorem Pkg.takeId_cur (p : Pkg) : p.takeId.2.cur = p.cur := rfl
@[simp] theorem Pkg.takeId_fresh (p : Pkg) : p.takeId.2.fresh = p.fresh := rfl
@[simp] theorem Pkg.takeId_time (p : Pkg) : p.takeId.2.time = p.time := rfl
@[simp] theorem Pkg.takeId_phases (p : Pkg) : p.takeId.2.phases = p.phases := rfl
@[simp] theorem Pkg.takeId_issues (p : Pkg) : p.takeId.2.issues = p.issues := rfl
@[simp] theorem Pkg.takeId_nextId (p : Pkg) : p.takeId.2.nextId = p.nextId + 1 := rfl
@[simp] theorem Pkg.takeId_strands (p : Pkg) : p.takeId.2.strands = p.strands := rfl
@[simp] theorem Pkg.takeId_bents (p : Pkg) : p.takeId.2.bents = p.bents := rfl
@[simp] theorem Pkg.takeId_launches (p : Pkg) : p.takeId.2.launches = p.launches := rfl
@[simp] theorem Pkg.takeId_trees (p : Pkg) : p.takeId.2.trees = p.trees := rfl
@[simp] theorem Pkg.takeId_ctxs (p : Pkg) : p.takeId.2.ctxs = p.ctxs := rfl
@[simp] theorem Pkg.takeId_clusters (p : Pkg) : p.takeId.2.clusters = p.clusters := rfl
@[simp] theorem Pkg.takeId_vfs (p : Pkg) : p.takeId.2.vfs = p.vfs := rfl
@[simp] theorem Pkg.takeId_cores (p : Pkg) : p.takeId.2.cores = p.cores := rfl
@[simp] theorem Pkg.takeId_mem (p : Pkg) : p.takeId.2.mem = p.mem := rfl
@[simp] theorem Pkg.takeId_hostMem (p : Pkg) : p.takeId.2.hostMem = p.hostMem := rfl
@[simp] theorem Pkg.takeId_badLines (p : Pkg) : p.takeId.2.badLines = p.badLines := rfl
@[simp] theorem Pkg.takeId_badSpots (p : Pkg) : p.takeId.2.badSpots = p.badSpots := rfl
@[simp] theorem Pkg.takeId_l1 (p : Pkg) : p.takeId.2.l1 = p.l1 := rfl
@[simp] theorem Pkg.takeId_owner (p : Pkg) : p.takeId.2.owner = p.owner := rfl
@[simp] theorem Pkg.takeId_pinned (p : Pkg) : p.takeId.2.pinned = p.pinned := rfl
@[simp] theorem Pkg.takeId_tlb (p : Pkg) : p.takeId.2.tlb = p.tlb := rfl
@[simp] theorem Pkg.takeId_invalidations (p : Pkg) : p.takeId.2.invalidations = p.invalidations := rfl
@[simp] theorem Pkg.takeId_frameKeys (p : Pkg) : p.takeId.2.frameKeys = p.frameKeys := rfl
@[simp] theorem Pkg.takeId_keyVf (p : Pkg) : p.takeId.2.keyVf = p.keyVf := rfl
@[simp] theorem Pkg.takeId_regions (p : Pkg) : p.takeId.2.regions = p.regions := rfl
@[simp] theorem Pkg.takeId_aliasLines (p : Pkg) : p.takeId.2.aliasLines = p.aliasLines := rfl
@[simp] theorem Pkg.takeId_devWrites (p : Pkg) : p.takeId.2.devWrites = p.devWrites := rfl
@[simp] theorem Pkg.takeId_codeBefore (p : Pkg) : p.takeId.2.codeBefore = p.codeBefore := rfl
@[simp] theorem Pkg.takeId_owedEnds (p : Pkg) : p.takeId.2.owedEnds = p.owedEnds := rfl
@[simp] theorem Pkg.takeId_slopes (p : Pkg) : p.takeId.2.slopes = p.slopes := rfl
@[simp] theorem Pkg.takeId_stepCeilings (p : Pkg) : p.takeId.2.stepCeilings = p.stepCeilings := rfl
@[simp] theorem Pkg.takeId_hostRing (p : Pkg) : p.takeId.2.hostRing = p.hostRing := rfl
@[simp] theorem Pkg.takeId_outOfStep (p : Pkg) : p.takeId.2.outOfStep = p.outOfStep := rfl
@[simp] theorem Pkg.takeId_chains (p : Pkg) : p.takeId.2.chains = p.chains := rfl
@[simp] theorem Pkg.takeId_entries (p : Pkg) : p.takeId.2.entries = p.entries := rfl
@[simp] theorem Pkg.takeId_sent (p : Pkg) : p.takeId.2.sent = p.sent := rfl
@[simp] theorem Pkg.takeId_outbox (p : Pkg) : p.takeId.2.outbox = p.outbox := rfl
@[simp] theorem Pkg.takeId_yardPort (p : Pkg) : p.takeId.2.yardPort = p.yardPort := rfl
@[simp] theorem Pkg.takeId_planesDown (p : Pkg) : p.takeId.2.planesDown = p.planesDown := rfl
@[simp] theorem Pkg.takeId_planeFailures (p : Pkg) : p.takeId.2.planeFailures = p.planeFailures := rfl
@[simp] theorem Pkg.takeId_linkErrors (p : Pkg) : p.takeId.2.linkErrors = p.linkErrors := rfl
@[simp] theorem Pkg.takeId_raisings (p : Pkg) : p.takeId.2.raisings = p.raisings := rfl
@[simp] theorem Pkg.takeId_lastRaisingSeq (p : Pkg) : p.takeId.2.lastRaisingSeq = p.lastRaisingSeq := rfl
@[simp] theorem Pkg.takeId_inStep (p : Pkg) : p.takeId.2.inStep = p.inStep := rfl
@[simp] theorem Pkg.takeId_goodOffsets (p : Pkg) : p.takeId.2.goodOffsets = p.goodOffsets := rfl
@[simp] theorem Pkg.takeId_msgs (p : Pkg) : p.takeId.2.msgs = p.msgs := rfl
@[simp] theorem Pkg.takeId_published (p : Pkg) : p.takeId.2.published = p.published := rfl
@[simp] theorem Pkg.takeId_framers (p : Pkg) : p.takeId.2.framers = p.framers := rfl
@[simp] theorem Pkg.takeId_framer (p : Pkg) : p.takeId.2.framer = p.framer := rfl
@[simp] theorem Pkg.takeId_framingPriority (p : Pkg) : p.takeId.2.framingPriority = p.framingPriority := rfl
@[simp] theorem Pkg.takeId_ptpStamps (p : Pkg) : p.takeId.2.ptpStamps = p.ptpStamps := rfl
@[simp] theorem Pkg.takeId_mgmtInbox (p : Pkg) : p.takeId.2.mgmtInbox = p.mgmtInbox := rfl
@[simp] theorem Pkg.takeId_hostLoads (p : Pkg) : p.takeId.2.hostLoads = p.hostLoads := rfl
@[simp] theorem Pkg.takeId_images (p : Pkg) : p.takeId.2.images = p.images := rfl

/-! ### State -/

@[simp] theorem State.updPkg_agenda (s : State) (f : Pkg → Pkg) : (s.updPkg f).agenda = s.agenda := rfl
@[simp] theorem State.updPkg_pkg (s : State) (f : Pkg → Pkg) : (s.updPkg f).pkg = f s.pkg := rfl
@[simp] theorem State.updPkg_power (s : State) (f : Pkg → Pkg) : (s.updPkg f).power = s.power := rfl
@[simp] theorem State.updPkg_plat (s : State) (f : Pkg → Pkg) : (s.updPkg f).plat = s.plat := rfl
@[simp] theorem State.updPower_agenda (s : State) (f : Power → Power) : (s.updPower f).agenda = s.agenda := rfl
@[simp] theorem State.updPower_pkg (s : State) (f : Power → Power) : (s.updPower f).pkg = s.pkg := rfl
@[simp] theorem State.updPower_power (s : State) (f : Power → Power) : (s.updPower f).power = f s.power := rfl
@[simp] theorem State.updPower_plat (s : State) (f : Power → Power) : (s.updPower f).plat = s.plat := rfl
@[simp] theorem State.withStrand_agenda (s : State) (sid : Nat) (st : Strand) : (s.withStrand sid st).agenda = s.agenda := rfl
@[simp] theorem State.withStrand_pkg (s : State) (sid : Nat) (st : Strand) : (s.withStrand sid st).pkg = s.pkg.setStrand sid st := rfl
@[simp] theorem State.withStrand_power (s : State) (sid : Nat) (st : Strand) : (s.withStrand sid st).power = s.power := rfl
@[simp] theorem State.withStrand_plat (s : State) (sid : Nat) (st : Strand) : (s.withStrand sid st).plat = s.plat := rfl
@[simp] theorem State.advance_agenda (s : State) (ns : Nat) (mhz : AMap Nat) : (s.advance ns mhz).agenda = s.agenda := rfl
@[simp] theorem State.advance_pkg (s : State) (ns : Nat) (mhz : AMap Nat) : (s.advance ns mhz).pkg = s.pkg.tick ns (s.clockOf mhz) := rfl
@[simp] theorem State.advance_power (s : State) (ns : Nat) (mhz : AMap Nat) : (s.advance ns mhz).power = s.power := rfl
@[simp] theorem State.advance_plat (s : State) (ns : Nat) (mhz : AMap Nat) : (s.advance ns mhz).plat = s.plat := rfl
@[simp] theorem State.fitCaches_agenda (s : State) : s.fitCaches.agenda = s.agenda := rfl
@[simp] theorem State.fitCaches_pkg (s : State) : s.fitCaches.pkg = s.pkg.replaceL2.replaceL1 := rfl
@[simp] theorem State.fitCaches_power (s : State) : s.fitCaches.power = s.power := rfl
@[simp] theorem State.fitCaches_plat (s : State) : s.fitCaches.plat = s.plat := rfl

end Sys2Proof.Machine
end

