-- ==== Sys2Proof/Laws/Strand.lean ====
section
/-!
SUPPORT. What each write of a strand's registers leaves in every other field.
-/
set_option Elab.async false

namespace Sys2Proof.Machine

/-! ### Strand.mapCf -/

@[simp] theorem Strand.mapCf_launch (st : Strand) (on : Nat → Bool) (f : Nat → Word → Word) : (st.mapCf on f).launch = st.launch := rfl
@[simp] theorem Strand.mapCf_bent (st : Strand) (on : Nat → Bool) (f : Nat → Word → Word) : (st.mapCf on f).bent = st.bent := rfl
@[simp] theorem Strand.mapCf_crew (st : Strand) (on : Nat → Bool) (f : Nat → Word → Word) : (st.mapCf on f).crew = st.crew := rfl
@[simp] theorem Strand.mapCf_sn (st : Strand) (on : Nat → Bool) (f : Nat → Word → Word) : (st.mapCf on f).sn = st.sn := rfl
@[simp] theorem Strand.mapCf_truss (st : Strand) (on : Nat → Bool) (f : Nat → Word → Word) : (st.mapCf on f).truss = st.truss := rfl
@[simp] theorem Strand.mapCf_nregs (st : Strand) (on : Nat → Bool) (f : Nat → Word → Word) : (st.mapCf on f).nregs = st.nregs := rfl
@[simp] theorem Strand.mapCf_present (st : Strand) (on : Nat → Bool) (f : Nat → Word → Word) : (st.mapCf on f).present = st.present := rfl
@[simp] theorem Strand.mapCf_em (st : Strand) (on : Nat → Bool) (f : Nat → Word → Word) : (st.mapCf on f).em = st.em := rfl
@[simp] theorem Strand.mapCf_v (st : Strand) (on : Nat → Bool) (f : Nat → Word → Word) : (st.mapCf on f).v = st.v := rfl
@[simp] theorem Strand.mapCf_t (st : Strand) (on : Nat → Bool) (f : Nat → Word → Word) : (st.mapCf on f).t = st.t := rfl
@[simp] theorem Strand.mapCf_mode (st : Strand) (on : Nat → Bool) (f : Nat → Word → Word) : (st.mapCf on f).mode = st.mode := rfl
@[simp] theorem Strand.mapCf_sh (st : Strand) (on : Nat → Bool) (f : Nat → Word → Word) : (st.mapCf on f).sh = st.sh := rfl
@[simp] theorem Strand.mapCf_clause (st : Strand) (on : Nat → Bool) (f : Nat → Word → Word) : (st.mapCf on f).clause = st.clause := rfl
@[simp] theorem Strand.mapCf_slot (st : Strand) (on : Nat → Bool) (f : Nat → Word → Word) : (st.mapCf on f).slot = st.slot := rfl
@[simp] theorem Strand.mapCf_words (st : Strand) (on : Nat → Bool) (f : Nat → Word → Word) : (st.mapCf on f).words = st.words := rfl
@[simp] theorem Strand.mapCf_executing (st : Strand) (on : Nat → Bool) (f : Nat → Word → Word) : (st.mapCf on f).executing = st.executing := rfl
@[simp] theorem Strand.mapCf_jump (st : Strand) (on : Nat → Bool) (f : Nat → Word → Word) : (st.mapCf on f).jump = st.jump := rfl
@[simp] theorem Strand.mapCf_ops (st : Strand) (on : Nat → Bool) (f : Nat → Word → Word) : (st.mapCf on f).ops = st.ops := rfl
@[simp] theorem Strand.mapCf_failures (st : Strand) (on : Nat → Bool) (f : Nat → Word → Word) : (st.mapCf on f).failures = st.failures := rfl
@[simp] theorem Strand.mapCf_park (st : Strand) (on : Nat → Bool) (f : Nat → Word → Word) : (st.mapCf on f).park = st.park := rfl
@[simp] theorem Strand.mapCf_aging (st : Strand) (on : Nat → Bool) (f : Nat → Word → Word) : (st.mapCf on f).aging = st.aging := rfl
@[simp] theorem Strand.mapCf_lastIssue (st : Strand) (on : Nat → Bool) (f : Nat → Word → Word) : (st.mapCf on f).lastIssue = st.lastIssue := rfl
@[simp] theorem Strand.mapCf_yieldUntil (st : Strand) (on : Nat → Bool) (f : Nat → Word → Word) : (st.mapCf on f).yieldUntil = st.yieldUntil := rfl
@[simp] theorem Strand.mapCf_exports (st : Strand) (on : Nat → Bool) (f : Nat → Word → Word) : (st.mapCf on f).exports = st.exports := rfl
@[simp] theorem Strand.mapCf_pollLast (st : Strand) (on : Nat → Bool) (f : Nat → Word → Word) : (st.mapCf on f).pollLast = st.pollLast := rfl
@[simp] theorem Strand.mapCf_handler (st : Strand) (on : Nat → Bool) (f : Nat → Word → Word) : (st.mapCf on f).handler = st.handler := rfl
@[simp] theorem Strand.mapCf_frame (st : Strand) (on : Nat → Bool) (f : Nat → Word → Word) : (st.mapCf on f).frame = st.frame := rfl
@[simp] theorem Strand.mapCf_trapRecord (st : Strand) (on : Nat → Bool) (f : Nat → Word → Word) : (st.mapCf on f).trapRecord = st.trapRecord := rfl
@[simp] theorem Strand.mapCf_arrivals (st : Strand) (on : Nat → Bool) (f : Nat → Word → Word) : (st.mapCf on f).arrivals = st.arrivals := rfl
@[simp] theorem Strand.mapCf_atBarrier (st : Strand) (on : Nat → Bool) (f : Nat → Word → Word) : (st.mapCf on f).atBarrier = st.atBarrier := rfl
@[simp] theorem Strand.mapCf_departing (st : Strand) (on : Nat → Bool) (f : Nat → Word → Word) : (st.mapCf on f).departing = st.departing := rfl
@[simp] theorem Strand.mapCf_invalAddr (st : Strand) (on : Nat → Bool) (f : Nat → Word → Word) : (st.mapCf on f).invalAddr = st.invalAddr := rfl
@[simp] theorem Strand.mapCf_invalidation (st : Strand) (on : Nat → Bool) (f : Nat → Word → Word) : (st.mapCf on f).invalidation = st.invalidation := rfl
@[simp] theorem Strand.mapCf_finished (st : Strand) (on : Nat → Bool) (f : Nat → Word → Word) : (st.mapCf on f).finished = st.finished := rfl
@[simp] theorem Strand.mapCf_ended (st : Strand) (on : Nat → Bool) (f : Nat → Word → Word) : (st.mapCf on f).ended = st.ended := rfl
@[simp] theorem Strand.mapCf_slice (st : Strand) (on : Nat → Bool) (f : Nat → Word → Word) : (st.mapCf on f).slice = st.slice := rfl

/-! ### Strand.orFlags -/

@[simp] theorem Strand.orFlags_launch (st : Strand) (on : Nat → Bool) (f : Nat → Word) : (st.orFlags on f).launch = st.launch := rfl
@[simp] theorem Strand.orFlags_bent (st : Strand) (on : Nat → Bool) (f : Nat → Word) : (st.orFlags on f).bent = st.bent := rfl
@[simp] theorem Strand.orFlags_crew (st : Strand) (on : Nat → Bool) (f : Nat → Word) : (st.orFlags on f).crew = st.crew := rfl
@[simp] theorem Strand.orFlags_sn (st : Strand) (on : Nat → Bool) (f : Nat → Word) : (st.orFlags on f).sn = st.sn := rfl
@[simp] theorem Strand.orFlags_truss (st : Strand) (on : Nat → Bool) (f : Nat → Word) : (st.orFlags on f).truss = st.truss := rfl
@[simp] theorem Strand.orFlags_nregs (st : Strand) (on : Nat → Bool) (f : Nat → Word) : (st.orFlags on f).nregs = st.nregs := rfl
@[simp] theorem Strand.orFlags_present (st : Strand) (on : Nat → Bool) (f : Nat → Word) : (st.orFlags on f).present = st.present := rfl
@[simp] theorem Strand.orFlags_em (st : Strand) (on : Nat → Bool) (f : Nat → Word) : (st.orFlags on f).em = st.em := rfl
@[simp] theorem Strand.orFlags_v (st : Strand) (on : Nat → Bool) (f : Nat → Word) : (st.orFlags on f).v = st.v := rfl
@[simp] theorem Strand.orFlags_t (st : Strand) (on : Nat → Bool) (f : Nat → Word) : (st.orFlags on f).t = st.t := rfl
@[simp] theorem Strand.orFlags_mode (st : Strand) (on : Nat → Bool) (f : Nat → Word) : (st.orFlags on f).mode = st.mode := rfl
@[simp] theorem Strand.orFlags_sh (st : Strand) (on : Nat → Bool) (f : Nat → Word) : (st.orFlags on f).sh = st.sh := rfl
@[simp] theorem Strand.orFlags_clause (st : Strand) (on : Nat → Bool) (f : Nat → Word) : (st.orFlags on f).clause = st.clause := rfl
@[simp] theorem Strand.orFlags_slot (st : Strand) (on : Nat → Bool) (f : Nat → Word) : (st.orFlags on f).slot = st.slot := rfl
@[simp] theorem Strand.orFlags_words (st : Strand) (on : Nat → Bool) (f : Nat → Word) : (st.orFlags on f).words = st.words := rfl
@[simp] theorem Strand.orFlags_executing (st : Strand) (on : Nat → Bool) (f : Nat → Word) : (st.orFlags on f).executing = st.executing := rfl
@[simp] theorem Strand.orFlags_jump (st : Strand) (on : Nat → Bool) (f : Nat → Word) : (st.orFlags on f).jump = st.jump := rfl
@[simp] theorem Strand.orFlags_ops (st : Strand) (on : Nat → Bool) (f : Nat → Word) : (st.orFlags on f).ops = st.ops := rfl
@[simp] theorem Strand.orFlags_failures (st : Strand) (on : Nat → Bool) (f : Nat → Word) : (st.orFlags on f).failures = st.failures := rfl
@[simp] theorem Strand.orFlags_park (st : Strand) (on : Nat → Bool) (f : Nat → Word) : (st.orFlags on f).park = st.park := rfl
@[simp] theorem Strand.orFlags_aging (st : Strand) (on : Nat → Bool) (f : Nat → Word) : (st.orFlags on f).aging = st.aging := rfl
@[simp] theorem Strand.orFlags_lastIssue (st : Strand) (on : Nat → Bool) (f : Nat → Word) : (st.orFlags on f).lastIssue = st.lastIssue := rfl
@[simp] theorem Strand.orFlags_yieldUntil (st : Strand) (on : Nat → Bool) (f : Nat → Word) : (st.orFlags on f).yieldUntil = st.yieldUntil := rfl
@[simp] theorem Strand.orFlags_exports (st : Strand) (on : Nat → Bool) (f : Nat → Word) : (st.orFlags on f).exports = st.exports := rfl
@[simp] theorem Strand.orFlags_pollLast (st : Strand) (on : Nat → Bool) (f : Nat → Word) : (st.orFlags on f).pollLast = st.pollLast := rfl
@[simp] theorem Strand.orFlags_handler (st : Strand) (on : Nat → Bool) (f : Nat → Word) : (st.orFlags on f).handler = st.handler := rfl
@[simp] theorem Strand.orFlags_frame (st : Strand) (on : Nat → Bool) (f : Nat → Word) : (st.orFlags on f).frame = st.frame := rfl
@[simp] theorem Strand.orFlags_trapRecord (st : Strand) (on : Nat → Bool) (f : Nat → Word) : (st.orFlags on f).trapRecord = st.trapRecord := rfl
@[simp] theorem Strand.orFlags_arrivals (st : Strand) (on : Nat → Bool) (f : Nat → Word) : (st.orFlags on f).arrivals = st.arrivals := rfl
@[simp] theorem Strand.orFlags_atBarrier (st : Strand) (on : Nat → Bool) (f : Nat → Word) : (st.orFlags on f).atBarrier = st.atBarrier := rfl
@[simp] theorem Strand.orFlags_departing (st : Strand) (on : Nat → Bool) (f : Nat → Word) : (st.orFlags on f).departing = st.departing := rfl
@[simp] theorem Strand.orFlags_invalAddr (st : Strand) (on : Nat → Bool) (f : Nat → Word) : (st.orFlags on f).invalAddr = st.invalAddr := rfl
@[simp] theorem Strand.orFlags_invalidation (st : Strand) (on : Nat → Bool) (f : Nat → Word) : (st.orFlags on f).invalidation = st.invalidation := rfl
@[simp] theorem Strand.orFlags_finished (st : Strand) (on : Nat → Bool) (f : Nat → Word) : (st.orFlags on f).finished = st.finished := rfl
@[simp] theorem Strand.orFlags_ended (st : Strand) (on : Nat → Bool) (f : Nat → Word) : (st.orFlags on f).ended = st.ended := rfl
@[simp] theorem Strand.orFlags_slice (st : Strand) (on : Nat → Bool) (f : Nat → Word) : (st.orFlags on f).slice = st.slice := rfl

/-! ### Strand.putCarry -/

@[simp] theorem Strand.putCarry_launch (st : Strand) (on : Nat → Bool) (f : Nat → Bool) : (st.putCarry on f).launch = st.launch := rfl
@[simp] theorem Strand.putCarry_bent (st : Strand) (on : Nat → Bool) (f : Nat → Bool) : (st.putCarry on f).bent = st.bent := rfl
@[simp] theorem Strand.putCarry_crew (st : Strand) (on : Nat → Bool) (f : Nat → Bool) : (st.putCarry on f).crew = st.crew := rfl
@[simp] theorem Strand.putCarry_sn (st : Strand) (on : Nat → Bool) (f : Nat → Bool) : (st.putCarry on f).sn = st.sn := rfl
@[simp] theorem Strand.putCarry_truss (st : Strand) (on : Nat → Bool) (f : Nat → Bool) : (st.putCarry on f).truss = st.truss := rfl
@[simp] theorem Strand.putCarry_nregs (st : Strand) (on : Nat → Bool) (f : Nat → Bool) : (st.putCarry on f).nregs = st.nregs := rfl
@[simp] theorem Strand.putCarry_present (st : Strand) (on : Nat → Bool) (f : Nat → Bool) : (st.putCarry on f).present = st.present := rfl
@[simp] theorem Strand.putCarry_em (st : Strand) (on : Nat → Bool) (f : Nat → Bool) : (st.putCarry on f).em = st.em := rfl
@[simp] theorem Strand.putCarry_v (st : Strand) (on : Nat → Bool) (f : Nat → Bool) : (st.putCarry on f).v = st.v := rfl
@[simp] theorem Strand.putCarry_t (st : Strand) (on : Nat → Bool) (f : Nat → Bool) : (st.putCarry on f).t = st.t := rfl
@[simp] theorem Strand.putCarry_mode (st : Strand) (on : Nat → Bool) (f : Nat → Bool) : (st.putCarry on f).mode = st.mode := rfl
@[simp] theorem Strand.putCarry_sh (st : Strand) (on : Nat → Bool) (f : Nat → Bool) : (st.putCarry on f).sh = st.sh := rfl
@[simp] theorem Strand.putCarry_clause (st : Strand) (on : Nat → Bool) (f : Nat → Bool) : (st.putCarry on f).clause = st.clause := rfl
@[simp] theorem Strand.putCarry_slot (st : Strand) (on : Nat → Bool) (f : Nat → Bool) : (st.putCarry on f).slot = st.slot := rfl
@[simp] theorem Strand.putCarry_words (st : Strand) (on : Nat → Bool) (f : Nat → Bool) : (st.putCarry on f).words = st.words := rfl
@[simp] theorem Strand.putCarry_executing (st : Strand) (on : Nat → Bool) (f : Nat → Bool) : (st.putCarry on f).executing = st.executing := rfl
@[simp] theorem Strand.putCarry_jump (st : Strand) (on : Nat → Bool) (f : Nat → Bool) : (st.putCarry on f).jump = st.jump := rfl
@[simp] theorem Strand.putCarry_ops (st : Strand) (on : Nat → Bool) (f : Nat → Bool) : (st.putCarry on f).ops = st.ops := rfl
@[simp] theorem Strand.putCarry_failures (st : Strand) (on : Nat → Bool) (f : Nat → Bool) : (st.putCarry on f).failures = st.failures := rfl
@[simp] theorem Strand.putCarry_park (st : Strand) (on : Nat → Bool) (f : Nat → Bool) : (st.putCarry on f).park = st.park := rfl
@[simp] theorem Strand.putCarry_aging (st : Strand) (on : Nat → Bool) (f : Nat → Bool) : (st.putCarry on f).aging = st.aging := rfl
@[simp] theorem Strand.putCarry_lastIssue (st : Strand) (on : Nat → Bool) (f : Nat → Bool) : (st.putCarry on f).lastIssue = st.lastIssue := rfl
@[simp] theorem Strand.putCarry_yieldUntil (st : Strand) (on : Nat → Bool) (f : Nat → Bool) : (st.putCarry on f).yieldUntil = st.yieldUntil := rfl
@[simp] theorem Strand.putCarry_exports (st : Strand) (on : Nat → Bool) (f : Nat → Bool) : (st.putCarry on f).exports = st.exports := rfl
@[simp] theorem Strand.putCarry_pollLast (st : Strand) (on : Nat → Bool) (f : Nat → Bool) : (st.putCarry on f).pollLast = st.pollLast := rfl
@[simp] theorem Strand.putCarry_handler (st : Strand) (on : Nat → Bool) (f : Nat → Bool) : (st.putCarry on f).handler = st.handler := rfl
@[simp] theorem Strand.putCarry_frame (st : Strand) (on : Nat → Bool) (f : Nat → Bool) : (st.putCarry on f).frame = st.frame := rfl
@[simp] theorem Strand.putCarry_trapRecord (st : Strand) (on : Nat → Bool) (f : Nat → Bool) : (st.putCarry on f).trapRecord = st.trapRecord := rfl
@[simp] theorem Strand.putCarry_arrivals (st : Strand) (on : Nat → Bool) (f : Nat → Bool) : (st.putCarry on f).arrivals = st.arrivals := rfl
@[simp] theorem Strand.putCarry_atBarrier (st : Strand) (on : Nat → Bool) (f : Nat → Bool) : (st.putCarry on f).atBarrier = st.atBarrier := rfl
@[simp] theorem Strand.putCarry_departing (st : Strand) (on : Nat → Bool) (f : Nat → Bool) : (st.putCarry on f).departing = st.departing := rfl
@[simp] theorem Strand.putCarry_invalAddr (st : Strand) (on : Nat → Bool) (f : Nat → Bool) : (st.putCarry on f).invalAddr = st.invalAddr := rfl
@[simp] theorem Strand.putCarry_invalidation (st : Strand) (on : Nat → Bool) (f : Nat → Bool) : (st.putCarry on f).invalidation = st.invalidation := rfl
@[simp] theorem Strand.putCarry_finished (st : Strand) (on : Nat → Bool) (f : Nat → Bool) : (st.putCarry on f).finished = st.finished := rfl
@[simp] theorem Strand.putCarry_ended (st : Strand) (on : Nat → Bool) (f : Nat → Bool) : (st.putCarry on f).ended = st.ended := rfl
@[simp] theorem Strand.putCarry_slice (st : Strand) (on : Nat → Bool) (f : Nat → Bool) : (st.putCarry on f).slice = st.slice := rfl

/-! ### Strand.putEm -/

@[simp] theorem Strand.putEm_launch (st : Strand) (w : Nat) (x : Word) : (st.putEm w x).launch = st.launch := rfl
@[simp] theorem Strand.putEm_bent (st : Strand) (w : Nat) (x : Word) : (st.putEm w x).bent = st.bent := rfl
@[simp] theorem Strand.putEm_crew (st : Strand) (w : Nat) (x : Word) : (st.putEm w x).crew = st.crew := rfl
@[simp] theorem Strand.putEm_sn (st : Strand) (w : Nat) (x : Word) : (st.putEm w x).sn = st.sn := rfl
@[simp] theorem Strand.putEm_truss (st : Strand) (w : Nat) (x : Word) : (st.putEm w x).truss = st.truss := rfl
@[simp] theorem Strand.putEm_nregs (st : Strand) (w : Nat) (x : Word) : (st.putEm w x).nregs = st.nregs := rfl
@[simp] theorem Strand.putEm_present (st : Strand) (w : Nat) (x : Word) : (st.putEm w x).present = st.present := rfl
@[simp] theorem Strand.putEm_v (st : Strand) (w : Nat) (x : Word) : (st.putEm w x).v = st.v := rfl
@[simp] theorem Strand.putEm_t (st : Strand) (w : Nat) (x : Word) : (st.putEm w x).t = st.t := rfl
@[simp] theorem Strand.putEm_cf (st : Strand) (w : Nat) (x : Word) : (st.putEm w x).cf = st.cf := rfl
@[simp] theorem Strand.putEm_mode (st : Strand) (w : Nat) (x : Word) : (st.putEm w x).mode = st.mode := rfl
@[simp] theorem Strand.putEm_sh (st : Strand) (w : Nat) (x : Word) : (st.putEm w x).sh = st.sh := rfl
@[simp] theorem Strand.putEm_clause (st : Strand) (w : Nat) (x : Word) : (st.putEm w x).clause = st.clause := rfl
@[simp] theorem Strand.putEm_slot (st : Strand) (w : Nat) (x : Word) : (st.putEm w x).slot = st.slot := rfl
@[simp] theorem Strand.putEm_words (st : Strand) (w : Nat) (x : Word) : (st.putEm w x).words = st.words := rfl
@[simp] theorem Strand.putEm_executing (st : Strand) (w : Nat) (x : Word) : (st.putEm w x).executing = st.executing := rfl
@[simp] theorem Strand.putEm_jump (st : Strand) (w : Nat) (x : Word) : (st.putEm w x).jump = st.jump := rfl
@[simp] theorem Strand.putEm_ops (st : Strand) (w : Nat) (x : Word) : (st.putEm w x).ops = st.ops := rfl
@[simp] theorem Strand.putEm_failures (st : Strand) (w : Nat) (x : Word) : (st.putEm w x).failures = st.failures := rfl
@[simp] theorem Strand.putEm_park (st : Strand) (w : Nat) (x : Word) : (st.putEm w x).park = st.park := rfl
@[simp] theorem Strand.putEm_aging (st : Strand) (w : Nat) (x : Word) : (st.putEm w x).aging = st.aging := rfl
@[simp] theorem Strand.putEm_lastIssue (st : Strand) (w : Nat) (x : Word) : (st.putEm w x).lastIssue = st.lastIssue := rfl
@[simp] theorem Strand.putEm_yieldUntil (st : Strand) (w : Nat) (x : Word) : (st.putEm w x).yieldUntil = st.yieldUntil := rfl
@[simp] theorem Strand.putEm_exports (st : Strand) (w : Nat) (x : Word) : (st.putEm w x).exports = st.exports := rfl
@[simp] theorem Strand.putEm_pollLast (st : Strand) (w : Nat) (x : Word) : (st.putEm w x).pollLast = st.pollLast := rfl
@[simp] theorem Strand.putEm_handler (st : Strand) (w : Nat) (x : Word) : (st.putEm w x).handler = st.handler := rfl
@[simp] theorem Strand.putEm_frame (st : Strand) (w : Nat) (x : Word) : (st.putEm w x).frame = st.frame := rfl
@[simp] theorem Strand.putEm_trapRecord (st : Strand) (w : Nat) (x : Word) : (st.putEm w x).trapRecord = st.trapRecord := rfl
@[simp] theorem Strand.putEm_arrivals (st : Strand) (w : Nat) (x : Word) : (st.putEm w x).arrivals = st.arrivals := rfl
@[simp] theorem Strand.putEm_atBarrier (st : Strand) (w : Nat) (x : Word) : (st.putEm w x).atBarrier = st.atBarrier := rfl
@[simp] theorem Strand.putEm_departing (st : Strand) (w : Nat) (x : Word) : (st.putEm w x).departing = st.departing := rfl
@[simp] theorem Strand.putEm_invalAddr (st : Strand) (w : Nat) (x : Word) : (st.putEm w x).invalAddr = st.invalAddr := rfl
@[simp] theorem Strand.putEm_invalidation (st : Strand) (w : Nat) (x : Word) : (st.putEm w x).invalidation = st.invalidation := rfl
@[simp] theorem Strand.putEm_finished (st : Strand) (w : Nat) (x : Word) : (st.putEm w x).finished = st.finished := rfl
@[simp] theorem Strand.putEm_ended (st : Strand) (w : Nat) (x : Word) : (st.putEm w x).ended = st.ended := rfl
@[simp] theorem Strand.putEm_slice (st : Strand) (w : Nat) (x : Word) : (st.putEm w x).slice = st.slice := rfl

/-! ### Strand.put -/

@[simp] theorem Strand.put_launch (st : Strand) (c : Nat) (on : Nat → Bool) (f : Nat → Word) : (st.put c on f).launch = st.launch := by
  unfold Strand.put; repeat' split
  all_goals rfl
@[simp] theorem Strand.put_bent (st : Strand) (c : Nat) (on : Nat → Bool) (f : Nat → Word) : (st.put c on f).bent = st.bent := by
  unfold Strand.put; repeat' split
  all_goals rfl
@[simp] theorem Strand.put_crew (st : Strand) (c : Nat) (on : Nat → Bool) (f : Nat → Word) : (st.put c on f).crew = st.crew := by
  unfold Strand.put; repeat' split
  all_goals rfl
@[simp] theorem Strand.put_sn (st : Strand) (c : Nat) (on : Nat → Bool) (f : Nat → Word) : (st.put c on f).sn = st.sn := by
  unfold Strand.put; repeat' split
  all_goals rfl
@[simp] theorem Strand.put_truss (st : Strand) (c : Nat) (on : Nat → Bool) (f : Nat → Word) : (st.put c on f).truss = st.truss := by
  unfold Strand.put; repeat' split
  all_goals rfl
@[simp] theorem Strand.put_nregs (st : Strand) (c : Nat) (on : Nat → Bool) (f : Nat → Word) : (st.put c on f).nregs = st.nregs := by
  unfold Strand.put; repeat' split
  all_goals rfl
@[simp] theorem Strand.put_present (st : Strand) (c : Nat) (on : Nat → Bool) (f : Nat → Word) : (st.put c on f).present = st.present := by
  unfold Strand.put; repeat' split
  all_goals rfl
@[simp] theorem Strand.put_mode (st : Strand) (c : Nat) (on : Nat → Bool) (f : Nat → Word) : (st.put c on f).mode = st.mode := by
  unfold Strand.put; repeat' split
  all_goals rfl
@[simp] theorem Strand.put_sh (st : Strand) (c : Nat) (on : Nat → Bool) (f : Nat → Word) : (st.put c on f).sh = st.sh := by
  unfold Strand.put; repeat' split
  all_goals rfl
@[simp] theorem Strand.put_clause (st : Strand) (c : Nat) (on : Nat → Bool) (f : Nat → Word) : (st.put c on f).clause = st.clause := by
  unfold Strand.put; repeat' split
  all_goals rfl
@[simp] theorem Strand.put_slot (st : Strand) (c : Nat) (on : Nat → Bool) (f : Nat → Word) : (st.put c on f).slot = st.slot := by
  unfold Strand.put; repeat' split
  all_goals rfl
@[simp] theorem Strand.put_words (st : Strand) (c : Nat) (on : Nat → Bool) (f : Nat → Word) : (st.put c on f).words = st.words := by
  unfold Strand.put; repeat' split
  all_goals rfl
@[simp] theorem Strand.put_executing (st : Strand) (c : Nat) (on : Nat → Bool) (f : Nat → Word) : (st.put c on f).executing = st.executing := by
  unfold Strand.put; repeat' split
  all_goals rfl
@[simp] theorem Strand.put_jump (st : Strand) (c : Nat) (on : Nat → Bool) (f : Nat → Word) : (st.put c on f).jump = st.jump := by
  unfold Strand.put; repeat' split
  all_goals rfl
@[simp] theorem Strand.put_ops (st : Strand) (c : Nat) (on : Nat → Bool) (f : Nat → Word) : (st.put c on f).ops = st.ops := by
  unfold Strand.put; repeat' split
  all_goals rfl
@[simp] theorem Strand.put_failures (st : Strand) (c : Nat) (on : Nat → Bool) (f : Nat → Word) : (st.put c on f).failures = st.failures := by
  unfold Strand.put; repeat' split
  all_goals rfl
@[simp] theorem Strand.put_park (st : Strand) (c : Nat) (on : Nat → Bool) (f : Nat → Word) : (st.put c on f).park = st.park := by
  unfold Strand.put; repeat' split
  all_goals rfl
@[simp] theorem Strand.put_aging (st : Strand) (c : Nat) (on : Nat → Bool) (f : Nat → Word) : (st.put c on f).aging = st.aging := by
  unfold Strand.put; repeat' split
  all_goals rfl
@[simp] theorem Strand.put_lastIssue (st : Strand) (c : Nat) (on : Nat → Bool) (f : Nat → Word) : (st.put c on f).lastIssue = st.lastIssue := by
  unfold Strand.put; repeat' split
  all_goals rfl
@[simp] theorem Strand.put_yieldUntil (st : Strand) (c : Nat) (on : Nat → Bool) (f : Nat → Word) : (st.put c on f).yieldUntil = st.yieldUntil := by
  unfold Strand.put; repeat' split
  all_goals rfl
@[simp] theorem Strand.put_exports (st : Strand) (c : Nat) (on : Nat → Bool) (f : Nat → Word) : (st.put c on f).exports = st.exports := by
  unfold Strand.put; repeat' split
  all_goals rfl
@[simp] theorem Strand.put_pollLast (st : Strand) (c : Nat) (on : Nat → Bool) (f : Nat → Word) : (st.put c on f).pollLast = st.pollLast := by
  unfold Strand.put; repeat' split
  all_goals rfl
@[simp] theorem Strand.put_handler (st : Strand) (c : Nat) (on : Nat → Bool) (f : Nat → Word) : (st.put c on f).handler = st.handler := by
  unfold Strand.put; repeat' split
  all_goals rfl
@[simp] theorem Strand.put_frame (st : Strand) (c : Nat) (on : Nat → Bool) (f : Nat → Word) : (st.put c on f).frame = st.frame := by
  unfold Strand.put; repeat' split
  all_goals rfl
@[simp] theorem Strand.put_trapRecord (st : Strand) (c : Nat) (on : Nat → Bool) (f : Nat → Word) : (st.put c on f).trapRecord = st.trapRecord := by
  unfold Strand.put; repeat' split
  all_goals rfl
@[simp] theorem Strand.put_arrivals (st : Strand) (c : Nat) (on : Nat → Bool) (f : Nat → Word) : (st.put c on f).arrivals = st.arrivals := by
  unfold Strand.put; repeat' split
  all_goals rfl
@[simp] theorem Strand.put_atBarrier (st : Strand) (c : Nat) (on : Nat → Bool) (f : Nat → Word) : (st.put c on f).atBarrier = st.atBarrier := by
  unfold Strand.put; repeat' split
  all_goals rfl
@[simp] theorem Strand.put_departing (st : Strand) (c : Nat) (on : Nat → Bool) (f : Nat → Word) : (st.put c on f).departing = st.departing := by
  unfold Strand.put; repeat' split
  all_goals rfl
@[simp] theorem Strand.put_invalAddr (st : Strand) (c : Nat) (on : Nat → Bool) (f : Nat → Word) : (st.put c on f).invalAddr = st.invalAddr := by
  unfold Strand.put; repeat' split
  all_goals rfl
@[simp] theorem Strand.put_invalidation (st : Strand) (c : Nat) (on : Nat → Bool) (f : Nat → Word) : (st.put c on f).invalidation = st.invalidation := by
  unfold Strand.put; repeat' split
  all_goals rfl
@[simp] theorem Strand.put_finished (st : Strand) (c : Nat) (on : Nat → Bool) (f : Nat → Word) : (st.put c on f).finished = st.finished := by
  unfold Strand.put; repeat' split
  all_goals rfl
@[simp] theorem Strand.put_ended (st : Strand) (c : Nat) (on : Nat → Bool) (f : Nat → Word) : (st.put c on f).ended = st.ended := by
  unfold Strand.put; repeat' split
  all_goals rfl
@[simp] theorem Strand.put_slice (st : Strand) (c : Nat) (on : Nat → Bool) (f : Nat → Word) : (st.put c on f).slice = st.slice := by
  unfold Strand.put; repeat' split
  all_goals rfl

/-! ### Strand.put2 -/

@[simp] theorem Strand.put2_launch (st : Strand) (c : Nat) (on : Nat → Bool) (f : Nat → DWord) : (st.put2 c on f).launch = st.launch := by
  simp [Strand.put2]
@[simp] theorem Strand.put2_bent (st : Strand) (c : Nat) (on : Nat → Bool) (f : Nat → DWord) : (st.put2 c on f).bent = st.bent := by
  simp [Strand.put2]
@[simp] theorem Strand.put2_crew (st : Strand) (c : Nat) (on : Nat → Bool) (f : Nat → DWord) : (st.put2 c on f).crew = st.crew := by
  simp [Strand.put2]
@[simp] theorem Strand.put2_sn (st : Strand) (c : Nat) (on : Nat → Bool) (f : Nat → DWord) : (st.put2 c on f).sn = st.sn := by
  simp [Strand.put2]
@[simp] theorem Strand.put2_truss (st : Strand) (c : Nat) (on : Nat → Bool) (f : Nat → DWord) : (st.put2 c on f).truss = st.truss := by
  simp [Strand.put2]
@[simp] theorem Strand.put2_nregs (st : Strand) (c : Nat) (on : Nat → Bool) (f : Nat → DWord) : (st.put2 c on f).nregs = st.nregs := by
  simp [Strand.put2]
@[simp] theorem Strand.put2_present (st : Strand) (c : Nat) (on : Nat → Bool) (f : Nat → DWord) : (st.put2 c on f).present = st.present := by
  simp [Strand.put2]
@[simp] theorem Strand.put2_mode (st : Strand) (c : Nat) (on : Nat → Bool) (f : Nat → DWord) : (st.put2 c on f).mode = st.mode := by
  simp [Strand.put2]
@[simp] theorem Strand.put2_sh (st : Strand) (c : Nat) (on : Nat → Bool) (f : Nat → DWord) : (st.put2 c on f).sh = st.sh := by
  simp [Strand.put2]
@[simp] theorem Strand.put2_clause (st : Strand) (c : Nat) (on : Nat → Bool) (f : Nat → DWord) : (st.put2 c on f).clause = st.clause := by
  simp [Strand.put2]
@[simp] theorem Strand.put2_slot (st : Strand) (c : Nat) (on : Nat → Bool) (f : Nat → DWord) : (st.put2 c on f).slot = st.slot := by
  simp [Strand.put2]
@[simp] theorem Strand.put2_words (st : Strand) (c : Nat) (on : Nat → Bool) (f : Nat → DWord) : (st.put2 c on f).words = st.words := by
  simp [Strand.put2]
@[simp] theorem Strand.put2_executing (st : Strand) (c : Nat) (on : Nat → Bool) (f : Nat → DWord) : (st.put2 c on f).executing = st.executing := by
  simp [Strand.put2]
@[simp] theorem Strand.put2_jump (st : Strand) (c : Nat) (on : Nat → Bool) (f : Nat → DWord) : (st.put2 c on f).jump = st.jump := by
  simp [Strand.put2]
@[simp] theorem Strand.put2_ops (st : Strand) (c : Nat) (on : Nat → Bool) (f : Nat → DWord) : (st.put2 c on f).ops = st.ops := by
  simp [Strand.put2]
@[simp] theorem Strand.put2_failures (st : Strand) (c : Nat) (on : Nat → Bool) (f : Nat → DWord) : (st.put2 c on f).failures = st.failures := by
  simp [Strand.put2]
@[simp] theorem Strand.put2_park (st : Strand) (c : Nat) (on : Nat → Bool) (f : Nat → DWord) : (st.put2 c on f).park = st.park := by
  simp [Strand.put2]
@[simp] theorem Strand.put2_aging (st : Strand) (c : Nat) (on : Nat → Bool) (f : Nat → DWord) : (st.put2 c on f).aging = st.aging := by
  simp [Strand.put2]
@[simp] theorem Strand.put2_lastIssue (st : Strand) (c : Nat) (on : Nat → Bool) (f : Nat → DWord) : (st.put2 c on f).lastIssue = st.lastIssue := by
  simp [Strand.put2]
@[simp] theorem Strand.put2_yieldUntil (st : Strand) (c : Nat) (on : Nat → Bool) (f : Nat → DWord) : (st.put2 c on f).yieldUntil = st.yieldUntil := by
  simp [Strand.put2]
@[simp] theorem Strand.put2_exports (st : Strand) (c : Nat) (on : Nat → Bool) (f : Nat → DWord) : (st.put2 c on f).exports = st.exports := by
  simp [Strand.put2]
@[simp] theorem Strand.put2_pollLast (st : Strand) (c : Nat) (on : Nat → Bool) (f : Nat → DWord) : (st.put2 c on f).pollLast = st.pollLast := by
  simp [Strand.put2]
@[simp] theorem Strand.put2_handler (st : Strand) (c : Nat) (on : Nat → Bool) (f : Nat → DWord) : (st.put2 c on f).handler = st.handler := by
  simp [Strand.put2]
@[simp] theorem Strand.put2_frame (st : Strand) (c : Nat) (on : Nat → Bool) (f : Nat → DWord) : (st.put2 c on f).frame = st.frame := by
  simp [Strand.put2]
@[simp] theorem Strand.put2_trapRecord (st : Strand) (c : Nat) (on : Nat → Bool) (f : Nat → DWord) : (st.put2 c on f).trapRecord = st.trapRecord := by
  simp [Strand.put2]
@[simp] theorem Strand.put2_arrivals (st : Strand) (c : Nat) (on : Nat → Bool) (f : Nat → DWord) : (st.put2 c on f).arrivals = st.arrivals := by
  simp [Strand.put2]
@[simp] theorem Strand.put2_atBarrier (st : Strand) (c : Nat) (on : Nat → Bool) (f : Nat → DWord) : (st.put2 c on f).atBarrier = st.atBarrier := by
  simp [Strand.put2]
@[simp] theorem Strand.put2_departing (st : Strand) (c : Nat) (on : Nat → Bool) (f : Nat → DWord) : (st.put2 c on f).departing = st.departing := by
  simp [Strand.put2]
@[simp] theorem Strand.put2_invalAddr (st : Strand) (c : Nat) (on : Nat → Bool) (f : Nat → DWord) : (st.put2 c on f).invalAddr = st.invalAddr := by
  simp [Strand.put2]
@[simp] theorem Strand.put2_invalidation (st : Strand) (c : Nat) (on : Nat → Bool) (f : Nat → DWord) : (st.put2 c on f).invalidation = st.invalidation := by
  simp [Strand.put2]
@[simp] theorem Strand.put2_finished (st : Strand) (c : Nat) (on : Nat → Bool) (f : Nat → DWord) : (st.put2 c on f).finished = st.finished := by
  simp [Strand.put2]
@[simp] theorem Strand.put2_ended (st : Strand) (c : Nat) (on : Nat → Bool) (f : Nat → DWord) : (st.put2 c on f).ended = st.ended := by
  simp [Strand.put2]
@[simp] theorem Strand.put2_slice (st : Strand) (c : Nat) (on : Nat → Bool) (f : Nat → DWord) : (st.put2 c on f).slice = st.slice := by
  simp [Strand.put2]

/-! ### Strand.putN -/

@[simp] theorem Strand.putN_launch (st : Strand) (n c : Nat) (on : Nat → Bool) (f : Nat → DWord) : (st.putN n c on f).launch = st.launch := by
  unfold Strand.putN; split <;> simp
@[simp] theorem Strand.putN_bent (st : Strand) (n c : Nat) (on : Nat → Bool) (f : Nat → DWord) : (st.putN n c on f).bent = st.bent := by
  unfold Strand.putN; split <;> simp
@[simp] theorem Strand.putN_crew (st : Strand) (n c : Nat) (on : Nat → Bool) (f : Nat → DWord) : (st.putN n c on f).crew = st.crew := by
  unfold Strand.putN; split <;> simp
@[simp] theorem Strand.putN_sn (st : Strand) (n c : Nat) (on : Nat → Bool) (f : Nat → DWord) : (st.putN n c on f).sn = st.sn := by
  unfold Strand.putN; split <;> simp
@[simp] theorem Strand.putN_truss (st : Strand) (n c : Nat) (on : Nat → Bool) (f : Nat → DWord) : (st.putN n c on f).truss = st.truss := by
  unfold Strand.putN; split <;> simp
@[simp] theorem Strand.putN_nregs (st : Strand) (n c : Nat) (on : Nat → Bool) (f : Nat → DWord) : (st.putN n c on f).nregs = st.nregs := by
  unfold Strand.putN; split <;> simp
@[simp] theorem Strand.putN_present (st : Strand) (n c : Nat) (on : Nat → Bool) (f : Nat → DWord) : (st.putN n c on f).present = st.present := by
  unfold Strand.putN; split <;> simp
@[simp] theorem Strand.putN_mode (st : Strand) (n c : Nat) (on : Nat → Bool) (f : Nat → DWord) : (st.putN n c on f).mode = st.mode := by
  unfold Strand.putN; split <;> simp
@[simp] theorem Strand.putN_sh (st : Strand) (n c : Nat) (on : Nat → Bool) (f : Nat → DWord) : (st.putN n c on f).sh = st.sh := by
  unfold Strand.putN; split <;> simp
@[simp] theorem Strand.putN_clause (st : Strand) (n c : Nat) (on : Nat → Bool) (f : Nat → DWord) : (st.putN n c on f).clause = st.clause := by
  unfold Strand.putN; split <;> simp
@[simp] theorem Strand.putN_slot (st : Strand) (n c : Nat) (on : Nat → Bool) (f : Nat → DWord) : (st.putN n c on f).slot = st.slot := by
  unfold Strand.putN; split <;> simp
@[simp] theorem Strand.putN_words (st : Strand) (n c : Nat) (on : Nat → Bool) (f : Nat → DWord) : (st.putN n c on f).words = st.words := by
  unfold Strand.putN; split <;> simp
@[simp] theorem Strand.putN_executing (st : Strand) (n c : Nat) (on : Nat → Bool) (f : Nat → DWord) : (st.putN n c on f).executing = st.executing := by
  unfold Strand.putN; split <;> simp
@[simp] theorem Strand.putN_jump (st : Strand) (n c : Nat) (on : Nat → Bool) (f : Nat → DWord) : (st.putN n c on f).jump = st.jump := by
  unfold Strand.putN; split <;> simp
@[simp] theorem Strand.putN_ops (st : Strand) (n c : Nat) (on : Nat → Bool) (f : Nat → DWord) : (st.putN n c on f).ops = st.ops := by
  unfold Strand.putN; split <;> simp
@[simp] theorem Strand.putN_failures (st : Strand) (n c : Nat) (on : Nat → Bool) (f : Nat → DWord) : (st.putN n c on f).failures = st.failures := by
  unfold Strand.putN; split <;> simp
@[simp] theorem Strand.putN_park (st : Strand) (n c : Nat) (on : Nat → Bool) (f : Nat → DWord) : (st.putN n c on f).park = st.park := by
  unfold Strand.putN; split <;> simp
@[simp] theorem Strand.putN_aging (st : Strand) (n c : Nat) (on : Nat → Bool) (f : Nat → DWord) : (st.putN n c on f).aging = st.aging := by
  unfold Strand.putN; split <;> simp
@[simp] theorem Strand.putN_lastIssue (st : Strand) (n c : Nat) (on : Nat → Bool) (f : Nat → DWord) : (st.putN n c on f).lastIssue = st.lastIssue := by
  unfold Strand.putN; split <;> simp
@[simp] theorem Strand.putN_yieldUntil (st : Strand) (n c : Nat) (on : Nat → Bool) (f : Nat → DWord) : (st.putN n c on f).yieldUntil = st.yieldUntil := by
  unfold Strand.putN; split <;> simp
@[simp] theorem Strand.putN_exports (st : Strand) (n c : Nat) (on : Nat → Bool) (f : Nat → DWord) : (st.putN n c on f).exports = st.exports := by
  unfold Strand.putN; split <;> simp
@[simp] theorem Strand.putN_pollLast (st : Strand) (n c : Nat) (on : Nat → Bool) (f : Nat → DWord) : (st.putN n c on f).pollLast = st.pollLast := by
  unfold Strand.putN; split <;> simp
@[simp] theorem Strand.putN_handler (st : Strand) (n c : Nat) (on : Nat → Bool) (f : Nat → DWord) : (st.putN n c on f).handler = st.handler := by
  unfold Strand.putN; split <;> simp
@[simp] theorem Strand.putN_frame (st : Strand) (n c : Nat) (on : Nat → Bool) (f : Nat → DWord) : (st.putN n c on f).frame = st.frame := by
  unfold Strand.putN; split <;> simp
@[simp] theorem Strand.putN_trapRecord (st : Strand) (n c : Nat) (on : Nat → Bool) (f : Nat → DWord) : (st.putN n c on f).trapRecord = st.trapRecord := by
  unfold Strand.putN; split <;> simp
@[simp] theorem Strand.putN_arrivals (st : Strand) (n c : Nat) (on : Nat → Bool) (f : Nat → DWord) : (st.putN n c on f).arrivals = st.arrivals := by
  unfold Strand.putN; split <;> simp
@[simp] theorem Strand.putN_atBarrier (st : Strand) (n c : Nat) (on : Nat → Bool) (f : Nat → DWord) : (st.putN n c on f).atBarrier = st.atBarrier := by
  unfold Strand.putN; split <;> simp
@[simp] theorem Strand.putN_departing (st : Strand) (n c : Nat) (on : Nat → Bool) (f : Nat → DWord) : (st.putN n c on f).departing = st.departing := by
  unfold Strand.putN; split <;> simp
@[simp] theorem Strand.putN_invalAddr (st : Strand) (n c : Nat) (on : Nat → Bool) (f : Nat → DWord) : (st.putN n c on f).invalAddr = st.invalAddr := by
  unfold Strand.putN; split <;> simp
@[simp] theorem Strand.putN_invalidation (st : Strand) (n c : Nat) (on : Nat → Bool) (f : Nat → DWord) : (st.putN n c on f).invalidation = st.invalidation := by
  unfold Strand.putN; split <;> simp
@[simp] theorem Strand.putN_finished (st : Strand) (n c : Nat) (on : Nat → Bool) (f : Nat → DWord) : (st.putN n c on f).finished = st.finished := by
  unfold Strand.putN; split <;> simp
@[simp] theorem Strand.putN_ended (st : Strand) (n c : Nat) (on : Nat → Bool) (f : Nat → DWord) : (st.putN n c on f).ended = st.ended := by
  unfold Strand.putN; split <;> simp
@[simp] theorem Strand.putN_slice (st : Strand) (n c : Nat) (on : Nat → Bool) (f : Nat → DWord) : (st.putN n c on f).slice = st.slice := by
  unfold Strand.putN; split <;> simp

end Sys2Proof.Machine
end

