-- ==== Sys2Proof/Laws/Exec.lean ====
section
/-!
SUPPORT. What the step of one instruction word does, once and for all: what the gate answers with, what settling an effect
leaves, and what the meanings built from a lane's computation answer.
-/
namespace Sys2Proof.Machine

namespace Pkg

/-- What passes the gate executes in the package, strand, opcode and operands that it was given. -/
theorem gate_ok {p : Pkg} {sid : Nat} {st : Strand} {op d a b : Nat} {x : Exe} (h : p.gate sid st op d a b = .ok x) :
    x.p = p ∧ x.sid = sid ∧ x.st = st ∧ x.op = op ∧ x.d = d ∧ x.a = a ∧ x.b = b ∧ x.env.st = st ∧ x.env.fresh = p.fresh := by
  simp only [gate] at h
  repeat' split at h
  all_goals first
    | cases h; done
    | cases h; exact ⟨rfl, rfl, rfl, rfl, rfl, rfl, rfl, rfl, rfl⟩

/-- The form of what passes the gate. -/
theorem gate_form {p : Pkg} {sid : Nat} {st : Strand} {op d a b : Nat} {x : Exe} (h : p.gate sid st op d a b = .ok x) :
    formOf op b (modeElem st.mode) st.truss = some x.form := by
  simp only [gate] at h
  repeat' split at h
  all_goals first
    | cases h; done
    | cases h; assumption

/-- The operands of what passes the gate are legal. -/
theorem gate_legal {p : Pkg} {sid : Nat} {st : Strand} {op d a b : Nat} {x : Exe} (h : p.gate sid st op d a b = .ok x) :
    legalOperands x.form op d a b st.nregs st.litCount st.mode = true := by
  simp only [gate] at h
  repeat' split at h
  all_goals first
    | cases h; done
    | cases h; simp_all only [Bool.or_eq_true, not_or, Bool.not_eq_true', Bool.not_eq_false]

theorem setStrand_setStrand (p : Pkg) (sid : Nat) (st u : Strand) : (p.setStrand sid st).setStrand sid u = p.setStrand sid u := by
  simp [setStrand]

theorem updStrand_setStrand (p : Pkg) (sid : Nat) (st : Strand) (f : Strand → Strand) :
    (p.setStrand sid st).updStrand sid f = p.setStrand sid (f st) := by
  simp [setStrand, updStrand]

theorem strand?_setStrand_self (p : Pkg) (sid : Nat) (st : Strand) : (p.setStrand sid st).strand? sid = some st := by
  simp [strand?]

theorem strand?_setStrand_ne (p : Pkg) (sid k : Nat) (st : Strand) (h : k ≠ sid) :
    (p.setStrand sid st).strand? k = p.strand? k := by
  simp [strand?, AMap.get?_set_ne _ _ _ _ h]

theorem updStrand_of (p : Pkg) (sid : Nat) (st : Strand) (f : Strand → Strand) (h : p.strand? sid = some st) :
    p.updStrand sid f = p.setStrand sid (f st) := by
  simp only [strand?] at h
  simp [updStrand, setStrand, AMap.update, h]

end Pkg

/-- A word of a running strand answers the settled outcome of its checks and its meaning. -/
theorem execWord_runs {s : State} {sid : Nat} {st : Strand} (h : s.Runs sid st) (op : Nat) (d a b : Field)
    (body : Pkg.Exe → Eff) :
    execWord op d a b body s = .next { s with pkg := s.pkg.runWord sid st op d a b body } := by
  simp [execWord, h.cur, h.strand]

/-- A word that is admitted answers what settling its meaning leaves. -/
theorem execWord_admits {s : State} {op : Nat} {d a b : Field} {x : Pkg.Exe} (h : s.Admits op d a b x)
    (body : Pkg.Exe → Eff) :
    execWord op d a b body s = .next { s with pkg := s.pkg.settle x.sid x.st x.dx (body x) } := by
  rw [execWord_runs h.runs]
  simp only [Pkg.runWord, h.gate]

/-- What is admitted executes in the state's own package. -/
theorem State.Admits.pkg {s : State} {op : Nat} {d a b : Field} {x : Pkg.Exe} (h : s.Admits op d a b x) : x.p = s.pkg :=
  (Pkg.gate_ok h.gate).1

theorem State.Admits.env {s : State} {op : Nat} {d a b : Field} {x : Pkg.Exe} (h : s.Admits op d a b x) :
    x.op = op ∧ x.d = d.toNat ∧ x.a = a.toNat ∧ x.b = b.toNat ∧ x.env.st = x.st ∧ x.env.fresh = s.pkg.fresh :=
  (Pkg.gate_ok h.gate).2.2.2

theorem State.Admits.form {s : State} {op : Nat} {d a b : Field} {x : Pkg.Exe} (h : s.Admits op d a b x) :
    formOf op b.toNat (modeElem x.st.mode) x.st.truss = some x.form :=
  Pkg.gate_form h.gate

/-- Settling an effect that lets the strand go on. -/
theorem settle_next (p q : Pkg) (x : Pkg.Exe) :
    p.settle x.sid x.st x.dx (.next q) = q.updStrand x.sid (q.past x) := rfl

/-- The form that an admitted word has, where the form of its opcode is known. -/
theorem State.Admits.form_eq {s : State} {op : Nat} {d a b : Field} {x : Pkg.Exe} (h : s.Admits op d a b x) {f : Form}
    (hf : formOf op b.toNat (modeElem x.st.mode) x.st.truss = some f) : x.form = f :=
  Option.some.inj (h.form.symm.trans hf)

/-- A word whose meaning leaves a package. -/
theorem execWord_onward {s : State} {op : Nat} {d a b : Field} {x : Pkg.Exe} (h : s.Admits op d a b x)
    (body : Pkg.Exe → Eff) (p : Pkg) (hb : body x = .next p) : execWord op d a b body s = .next (s.onward x p) := by
  rw [execWord_admits h, hb, settle_next]; rfl

/-- A word whose meaning only changes its strand. -/
theorem execWord_strand {s : State} {op : Nat} {d a b : Field} {x : Pkg.Exe} (h : s.Admits op d a b x)
    (body : Pkg.Exe → Eff) (u : Strand) (hb : body x = .next (x.p.setStrand x.sid u)) :
    execWord op d a b body s = .next (s.after x u) := by
  rw [execWord_admits h, hb, h.pkg, settle_next, Pkg.updStrand_setStrand]; rfl

/-- A word whose meaning issues an operation on some package. -/
theorem execWord_issue {s : State} {op : Nat} {d a b : Field} {x : Pkg.Exe} (h : s.Admits op d a b x)
    (body : Pkg.Exe → Eff) (p : Pkg) (flag : Nat) (dests : List Nat) (entry : Bool) (k : OpKind)
    (hb : body x = .next (p.addOp x.sid flag dests entry k)) :
    execWord op d a b body s = .next { s with pkg := p.issued x flag dests entry k } := by
  rw [execWord_admits h, hb, settle_next]
  simp [Pkg.addOp, Pkg.issued, Pkg.takeId, Pkg.updStrand, Pkg.past, Pkg.cycleOf]

/-- A short form that computes each lane by itself (R178). -/
theorem execWord_short {s : State} {op : Nat} {d a b : Field} {x : Pkg.Exe} (h : s.Admits op d a b x)
    (f : LaneIn → LaneOut) :
    execWord op d a b (Pkg.Exe.short f) s = .next (s.after x (x.putResults (x.results f))) :=
  execWord_strand h _ _ rfl

/-- A form whose meaning is a short form with the lane computation that a claim names. -/
theorem LaneForm.of_short {i : Instr} {op : Nat} {d a b : Field} {f g : LaneIn → LaneOut}
    (hi : ∀ s, exec i s = execWord op d a b (Pkg.Exe.short f) s) (hf : f = g) : LaneForm i op d a b g := by
  intro s x h
  rw [hi, hf]
  exact execWord_short h g

/-- A form whose meaning is a flag-B form with the lane computation that a claim names. -/
theorem LaterForm.of_laneLater {i : Instr} {op : Nat} {d a b : Field} {f g : LaneIn → LaneOut}
    (hi : ∀ s, exec i s = execWord op d a b (Pkg.Exe.laneLater f) s)
    (hc : ∀ e t fm, formOf op b.toNat e t = some fm → fm.cls = .flagB) (hf : f = g) : LaterForm i op d a b g := by
  intro s x h
  rw [hi, hf]
  refine execWord_issue h _ s.pkg _ _ _ _ ?_
  simp [Pkg.Exe.laneLater, Pkg.Exe.later, Pkg.issueOp, h.pkg, hc _ _ _ h.form]

end Sys2Proof.Machine

namespace Sys2Proof.Machine

/-- Every instruction with a code word is executed as the word of its opcode and fields, with a body of its own. -/
theorem exec_word {i : Instr} {op : Nat} {d a b : Field} {x y z : Bool} (h : i.parts = some (op, d, a, b, x, y, z)) :
    ∃ body, ∀ s, exec i s = execWord op d a b body s := by
  cases i
  all_goals first
    | (cases h; exact ⟨_, fun _ => rfl⟩)
    | exact nomatch h

end Sys2Proof.Machine
end

