-- ==== Sys2Proof/Laws/Checks.lean ====
section
/-!
SUPPORT. What the checks of the memory forms answer when they pass.
-/
namespace Sys2Proof.Machine

open Pkg (Exe)

/-- No access is misaligned where every address is a multiple of `n`. -/
theorem Pkg.misaligned_none (p : Pkg) (n : Nat) (ws : List Want) (h : ∀ w ∈ ws, w.va % n = 0) : p.misaligned n ws = none := by
  have e : ws.filter (fun w => w.va % n != 0) = [] := by
    rw [List.filter_eq_nil_iff]
    intro w hw
    simp [h w hw]
  simp only [Pkg.misaligned, e]

/-- The checks of global accesses, passed. -/
theorem withGlobal_ok {x : Exe} {n : Nat} {need : Need} {ws : List Want} {p : Pkg} {ls : List Loc}
    (h : GlobalOk x n need ws p ls) (k : Pkg → List Loc → Eff) : Pkg.withGlobal x n need ws k = k p ls := by
  simp only [Pkg.withGlobal, Pkg.misaligned_none _ _ _ h.aligned, h.checked]

/-- The checks of scratchpad accesses, passed. -/
theorem withScratch_ok {x : Exe} {space n align : Nat} {map : Nat → Nat} {accs : List SAcc} (h : ScratchOk x space n map accs)
    (ha : ∀ t ∈ accs, t.formed % align = 0) (k : Pkg → List SAcc → Eff) : withScratch x space align accs k = k x.p accs := by
  have e1 : accs.filter (fun t => t.formed % align != 0) = [] := by
    rw [List.filter_eq_nil_iff]; intro t ht; simp [ha t ht]
  have e2 : accs.filter (fun t => t.size < t.off + t.bytes) = [] := by
    rw [List.filter_eq_nil_iff]; intro t ht; have := h.inside t ht; simp; omega
  have e3 : (accs.all fun t => x.p.isPresentAt t.loc t.bytes) = true := by
    rw [List.all_eq_true]; exact h.present
  simp only [withScratch, e1, e2, e3, if_true]

/-- The accesses of the lanes, all legal. -/
theorem scratchAccs_ok {x : Exe} {space n : Nat} {map : Nat → Nat} {accs : List SAcc} (h : ScratchOk x space n map accs)
    (k : List SAcc → Eff) : scratchAccs x space n map k = k accs := by
  have e : (accs.map some).any Option.isNone = false := by simp
  have e2 : (accs.map some).filterMap id = accs := by simp
  simp only [scratchAccs, h.formed, e, e2, Bool.false_eq_true, if_false]

/-- An operation that needs no entry, or finds one, is issued. -/
theorem issueOp_ok (p : Pkg) (x : Exe) (dests : List Nat) (entry : Bool) (k : OpKind)
    (h : entry = true → p.canEnter x.sid x.st = true) :
    p.issueOp x dests entry k = .next (p.addOp x.sid (x.st.flagOf (x.form.cls == .flagB)) dests entry k) := by
  cases entry
  · simp [Pkg.issueOp]
  · simp [Pkg.issueOp, h rfl]

end Sys2Proof.Machine
end

