-- ==== Sys2Proof/Laws/Mem.lean ====
section
/-!
SUPPORT. The laws of the byte stores: a write keeps the canonical form, a byte reads as it was last written, and a
write leaves every other address alone.
-/
namespace Sys2Proof.Machine

/-- The canonical form above a bound holds above a lower one. -/
theorem Mem.wfFrom_mono {lo hi : Nat} (h : lo ≤ hi) : ∀ m : Mem, Mem.wfFrom hi m = true → Mem.wfFrom lo m = true
  | [], _ => rfl
  | (k, b) :: m, w => by
    simp only [Mem.wfFrom, Bool.and_eq_true, decide_eq_true_eq] at w ⊢
    exact ⟨⟨Nat.le_trans h w.1.1, w.1.2⟩, w.2⟩

/-- A store in canonical form above a bound reads 0 below it. -/
theorem Mem.read_below {lo a : Nat} (h : a < lo) : ∀ m : Mem, Mem.wfFrom lo m = true → Mem.read m a = 0
  | [], _ => rfl
  | (k, b) :: m, w => by
    simp only [Mem.wfFrom, Bool.and_eq_true, decide_eq_true_eq] at w
    have h1 : ¬ k = a := by omega
    have h2 : a < k := by omega
    simp [Mem.read, h1, h2]

/-- A write keeps the canonical form above any bound not above its address. -/
theorem Mem.wfFrom_write {lo a : Nat} (v : Byte) (h : lo ≤ a) :
    ∀ m : Mem, Mem.wfFrom lo m = true → Mem.wfFrom lo (Mem.write m a v) = true := by
  intro m
  induction m generalizing lo with
  | nil =>
    intro _
    simp only [Mem.write]
    split
    · rfl
    · rename_i hv; simpa [Mem.wfFrom, h] using hv
  | cons e m ih =>
    obtain ⟨k, b⟩ := e
    intro w
    simp only [Mem.wfFrom, Bool.and_eq_true, decide_eq_true_eq] at w
    obtain ⟨⟨w1, w2⟩, w3⟩ := w
    simp only [Mem.write]
    by_cases hk : a < k
    · rw [if_pos hk]
      by_cases hv : v = 0
      · rw [if_pos hv]; simpa [Mem.wfFrom, w1, w3] using w2
      · rw [if_neg hv]
        simp only [Mem.wfFrom, Bool.and_eq_true, decide_eq_true_eq]
        exact ⟨⟨h, by simpa using hv⟩, ⟨by omega, w2⟩, w3⟩
    · rw [if_neg hk]
      by_cases he : k = a
      · rw [if_pos he]
        by_cases hv : v = 0
        · rw [if_pos hv]; exact Mem.wfFrom_mono (by omega) m w3
        · rw [if_neg hv]
          simp only [Mem.wfFrom, Bool.and_eq_true, decide_eq_true_eq]
          exact ⟨⟨h, by simpa using hv⟩, he ▸ w3⟩
      · rw [if_neg he]
        simp only [Mem.wfFrom, Bool.and_eq_true, decide_eq_true_eq]
        exact ⟨⟨w1, w2⟩, ih (by omega) w3⟩

theorem Mem.wf_write (m : Mem) (a : Nat) (v : Byte) (h : m.wf = true) : (Mem.write m a v).wf = true :=
  Mem.wfFrom_write v (Nat.zero_le a) m h

/-- A run of writes keeps the canonical form. -/
theorem Mem.wf_writeBytes (bs : List Byte) : ∀ (m : Mem) (a : Nat), m.wf = true → (Mem.writeBytes m a bs).wf = true := by
  induction bs with
  | nil => intro m a h; exact h
  | cons b bs ih => intro m a h; exact ih _ _ (Mem.wf_write m a b h)

/-- A byte reads as it was just written. -/
theorem Mem.read_write_self (v : Byte) (a : Nat) : ∀ (m : Mem) (lo : Nat), Mem.wfFrom lo m = true →
    Mem.read (Mem.write m a v) a = v := by
  intro m
  induction m with
  | nil =>
    intro _ _
    simp only [Mem.write]
    split <;> simp_all [Mem.read]
  | cons e m ih =>
    obtain ⟨k, b⟩ := e
    intro lo w
    simp only [Mem.wfFrom, Bool.and_eq_true, decide_eq_true_eq] at w
    simp only [Mem.write]
    by_cases hk : a < k
    · rw [if_pos hk]
      by_cases hv : v = 0
      · rw [if_pos hv]
        have : ¬ k = a := by omega
        simp [Mem.read, this, hk, hv]
      · rw [if_neg hv]; simp [Mem.read]
    · rw [if_neg hk]
      by_cases he : k = a
      · rw [if_pos he]
        by_cases hv : v = 0
        · rw [if_pos hv, hv]; exact Mem.read_below (by omega) m w.2
        · rw [if_neg hv]; simp [Mem.read]
      · rw [if_neg he]
        simp only [Mem.read, if_neg he, if_neg hk]
        exact ih _ w.2

/-- A write leaves every other address alone. -/
theorem Mem.read_write_ne (v : Byte) (a c : Nat) (hc : c ≠ a) : ∀ (m : Mem) (lo : Nat), Mem.wfFrom lo m = true →
    Mem.read (Mem.write m a v) c = Mem.read m c := by
  intro m
  induction m with
  | nil =>
    intro _ _
    simp only [Mem.write]
    split <;> simp [Mem.read, Ne.symm hc]
  | cons e m ih =>
    obtain ⟨k, b⟩ := e
    intro lo w
    simp only [Mem.wfFrom, Bool.and_eq_true, decide_eq_true_eq] at w
    simp only [Mem.write]
    by_cases hk : a < k
    · rw [if_pos hk]
      by_cases hv : v = 0
      · rw [if_pos hv]
      · rw [if_neg hv]
        simp only [Mem.read, if_neg (Ne.symm hc)]
        by_cases h1 : c < a
        · rw [if_pos h1]
          have h2 : ¬ k = c := by omega
          rw [if_neg h2, if_pos (by omega)]
        · rw [if_neg h1]
    · rw [if_neg hk]
      by_cases he : k = a
      · rw [if_pos he]
        subst he
        by_cases hv : v = 0
        · rw [if_pos hv]
          simp only [Mem.read, if_neg (Ne.symm hc)]
          by_cases h1 : c < k
          · rw [if_pos h1]; exact Mem.read_below (by omega) m w.2
          · rw [if_neg h1]
        · rw [if_neg hv]
          simp only [Mem.read, if_neg (Ne.symm hc)]
      · rw [if_neg he]
        simp only [Mem.read]
        rw [ih _ w.2]

/-- A run of writes leaves every address outside it alone. -/
theorem Mem.read_writeBytes_out (c : Nat) (bs : List Byte) : ∀ (m : Mem) (a : Nat), m.wf = true →
    (c < a ∨ a + bs.length ≤ c) → Mem.read (Mem.writeBytes m a bs) c = Mem.read m c := by
  induction bs with
  | nil => intro m a _ _; rfl
  | cons b bs ih =>
    intro m a h hc
    simp only [List.length_cons] at hc
    simp only [Mem.writeBytes]
    rw [ih _ _ (Mem.wf_write m a b h) (by omega)]
    exact Mem.read_write_ne b a c (by omega) m 0 h

/-- A run of writes reads back byte by byte. -/
theorem Mem.read_writeBytes_in (bs : List Byte) : ∀ (m : Mem) (a i : Nat), m.wf = true → (hi : i < bs.length) →
    Mem.read (Mem.writeBytes m a bs) (a + i) = bs[i] := by
  induction bs with
  | nil => intro m a i _ hi; simp at hi
  | cons b bs ih =>
    intro m a i h hi
    simp only [Mem.writeBytes]
    cases i with
    | zero =>
      rw [Mem.read_writeBytes_out _ _ _ _ (Mem.wf_write m a b h) (by omega)]
      exact Mem.read_write_self b a m 0 h
    | succ i =>
      have := ih _ (a + 1) i (Mem.wf_write m a b h) (by simpa using hi)
      rw [show a + (i + 1) = a + 1 + i by omega]
      simpa using this

/-- The bytes read are the bytes written. -/
theorem Mem.readBytes_writeBytes (m : Mem) (a : Nat) (bs : List Byte) (h : m.wf = true) :
    Mem.readBytes (Mem.writeBytes m a bs) a bs.length = bs := by
  apply List.ext_getElem
  · simp [Mem.readBytes]
  · intro i h1 h2
    simp [Mem.readBytes, Mem.read_writeBytes_in bs m a i h h2]

/-! ### Little-endian bytes (R4) -/

@[simp] theorem length_leBytes : ∀ (n x : Nat), (leBytes n x).length = n
  | 0, _ => rfl
  | n + 1, x => by simp [leBytes, length_leBytes n]

/-- The number whose bytes are the little-endian bytes of a number. -/
theorem leNat_leBytes : ∀ (n x : Nat), leNat (leBytes n x) = x % 256 ^ n
  | 0, x => by simp [leBytes, leNat, Nat.mod_one]
  | n + 1, x => by
    simp only [leBytes, leNat, leNat_leBytes n, BitVec.toNat_ofNat]
    rw [show (2 : Nat) ^ 8 = 256 by decide, show 256 ^ (n + 1) = 256 * 256 ^ n by rw [Nat.pow_succ, Nat.mul_comm],
      Nat.mod_mul]

end Sys2Proof.Machine
end

