-- ==== Sys2Proof/Laws/PerInstr.lean ====
section
/-!
SUPPORT. What holds of every instruction as syntax, constructor by constructor. Opcode: an instruction's opcode is below
0xF0, so no instruction word carries the marker of a clause header or trailer (R166, R180).
-/
set_option Elab.async false

/-- The opcode of an instruction with a code word is below 0xF0. -/
def Sys2Proof.Laws.Opcode.Statement (i : Sys2Proof.Instr) : Prop := ∀ p, i.parts = some p → p.1 < 0xF0

namespace Sys2Proof.Laws

theorem Opcode.add (d a b : Field) (x y z : Bool) : Opcode.Statement (.add d a b x y z) :=
  fun _ h => by cases h; exact Nat.le_of_ble_eq_true rfl
theorem Opcode.sub (d a b : Field) (x y z : Bool) : Opcode.Statement (.sub d a b x y z) :=
  fun _ h => by cases h; exact Nat.le_of_ble_eq_true rfl
theorem Opcode.mul (d a b : Field) (x y z : Bool) : Opcode.Statement (.mul d a b x y z) :=
  fun _ h => by cases h; exact Nat.le_of_ble_eq_true rfl
theorem Opcode.mulhiS (d a b : Field) (x y z : Bool) : Opcode.Statement (.mulhiS d a b x y z) :=
  fun _ h => by cases h; exact Nat.le_of_ble_eq_true rfl
theorem Opcode.mulhiN (d a b : Field) (x y z : Bool) : Opcode.Statement (.mulhiN d a b x y z) :=
  fun _ h => by cases h; exact Nat.le_of_ble_eq_true rfl
theorem Opcode.mad (d a b : Field) (x y z : Bool) : Opcode.Statement (.mad d a b x y z) :=
  fun _ h => by cases h; exact Nat.le_of_ble_eq_true rfl
theorem Opcode.addc (d a b : Field) (x y z : Bool) : Opcode.Statement (.addc d a b x y z) :=
  fun _ h => by cases h; exact Nat.le_of_ble_eq_true rfl
theorem Opcode.subb (d a b : Field) (x y z : Bool) : Opcode.Statement (.subb d a b x y z) :=
  fun _ h => by cases h; exact Nat.le_of_ble_eq_true rfl
theorem Opcode.minS (d a b : Field) (x y z : Bool) : Opcode.Statement (.minS d a b x y z) :=
  fun _ h => by cases h; exact Nat.le_of_ble_eq_true rfl
theorem Opcode.minN (d a b : Field) (x y z : Bool) : Opcode.Statement (.minN d a b x y z) :=
  fun _ h => by cases h; exact Nat.le_of_ble_eq_true rfl
theorem Opcode.maxS (d a b : Field) (x y z : Bool) : Opcode.Statement (.maxS d a b x y z) :=
  fun _ h => by cases h; exact Nat.le_of_ble_eq_true rfl
theorem Opcode.maxN (d a b : Field) (x y z : Bool) : Opcode.Statement (.maxN d a b x y z) :=
  fun _ h => by cases h; exact Nat.le_of_ble_eq_true rfl
theorem Opcode.abs (d a b : Field) (x y z : Bool) : Opcode.Statement (.abs d a b x y z) :=
  fun _ h => by cases h; exact Nat.le_of_ble_eq_true rfl
theorem Opcode.neg (d a b : Field) (x y z : Bool) : Opcode.Statement (.neg d a b x y z) :=
  fun _ h => by cases h; exact Nat.le_of_ble_eq_true rfl
theorem Opcode.and (d a b : Field) (x y z : Bool) : Opcode.Statement (.and d a b x y z) :=
  fun _ h => by cases h; exact Nat.le_of_ble_eq_true rfl
theorem Opcode.or (d a b : Field) (x y z : Bool) : Opcode.Statement (.or d a b x y z) :=
  fun _ h => by cases h; exact Nat.le_of_ble_eq_true rfl
theorem Opcode.xor (d a b : Field) (x y z : Bool) : Opcode.Statement (.xor d a b x y z) :=
  fun _ h => by cases h; exact Nat.le_of_ble_eq_true rfl
theorem Opcode.andn (d a b : Field) (x y z : Bool) : Opcode.Statement (.andn d a b x y z) :=
  fun _ h => by cases h; exact Nat.le_of_ble_eq_true rfl
theorem Opcode.not (d a b : Field) (x y z : Bool) : Opcode.Statement (.not d a b x y z) :=
  fun _ h => by cases h; exact Nat.le_of_ble_eq_true rfl
theorem Opcode.shl (d a b : Field) (x y z : Bool) : Opcode.Statement (.shl d a b x y z) :=
  fun _ h => by cases h; exact Nat.le_of_ble_eq_true rfl
theorem Opcode.shr (d a b : Field) (x y z : Bool) : Opcode.Statement (.shr d a b x y z) :=
  fun _ h => by cases h; exact Nat.le_of_ble_eq_true rfl
theorem Opcode.sar (d a b : Field) (x y z : Bool) : Opcode.Statement (.sar d a b x y z) :=
  fun _ h => by cases h; exact Nat.le_of_ble_eq_true rfl
theorem Opcode.rol (d a b : Field) (x y z : Bool) : Opcode.Statement (.rol d a b x y z) :=
  fun _ h => by cases h; exact Nat.le_of_ble_eq_true rfl
theorem Opcode.bfxS (d a b : Field) (x y z : Bool) : Opcode.Statement (.bfxS d a b x y z) :=
  fun _ h => by cases h; exact Nat.le_of_ble_eq_true rfl
theorem Opcode.bfxN (d a b : Field) (x y z : Bool) : Opcode.Statement (.bfxN d a b x y z) :=
  fun _ h => by cases h; exact Nat.le_of_ble_eq_true rfl
theorem Opcode.bfi (d a b : Field) (x y z : Bool) : Opcode.Statement (.bfi d a b x y z) :=
  fun _ h => by cases h; exact Nat.le_of_ble_eq_true rfl
theorem Opcode.popc (d a b : Field) (x y z : Bool) : Opcode.Statement (.popc d a b x y z) :=
  fun _ h => by cases h; exact Nat.le_of_ble_eq_true rfl
theorem Opcode.clz (d a b : Field) (x y z : Bool) : Opcode.Statement (.clz d a b x y z) :=
  fun _ h => by cases h; exact Nat.le_of_ble_eq_true rfl
theorem Opcode.ctz (d a b : Field) (x y z : Bool) : Opcode.Statement (.ctz d a b x y z) :=
  fun _ h => by cases h; exact Nat.le_of_ble_eq_true rfl
theorem Opcode.brev (d a b : Field) (x y z : Bool) : Opcode.Statement (.brev d a b x y z) :=
  fun _ h => by cases h; exact Nat.le_of_ble_eq_true rfl
theorem Opcode.permb (d a b : Field) (x y z : Bool) : Opcode.Statement (.permb d a b x y z) :=
  fun _ h => by cases h; exact Nat.le_of_ble_eq_true rfl
theorem Opcode.sel (d a b : Field) (x y z : Bool) : Opcode.Statement (.sel d a b x y z) :=
  fun _ h => by cases h; exact Nat.le_of_ble_eq_true rfl
theorem Opcode.mov (d a b : Field) (x y z : Bool) : Opcode.Statement (.mov d a b x y z) :=
  fun _ h => by cases h; exact Nat.le_of_ble_eq_true rfl
theorem Opcode.cmpEq (d a b : Field) (x y z : Bool) : Opcode.Statement (.cmpEq d a b x y z) :=
  fun _ h => by cases h; exact Nat.le_of_ble_eq_true rfl
theorem Opcode.cmpNe (d a b : Field) (x y z : Bool) : Opcode.Statement (.cmpNe d a b x y z) :=
  fun _ h => by cases h; exact Nat.le_of_ble_eq_true rfl
theorem Opcode.cmpLtS (d a b : Field) (x y z : Bool) : Opcode.Statement (.cmpLtS d a b x y z) :=
  fun _ h => by cases h; exact Nat.le_of_ble_eq_true rfl
theorem Opcode.cmpLeS (d a b : Field) (x y z : Bool) : Opcode.Statement (.cmpLeS d a b x y z) :=
  fun _ h => by cases h; exact Nat.le_of_ble_eq_true rfl
theorem Opcode.cmpLtN (d a b : Field) (x y z : Bool) : Opcode.Statement (.cmpLtN d a b x y z) :=
  fun _ h => by cases h; exact Nat.le_of_ble_eq_true rfl
theorem Opcode.cmpLeN (d a b : Field) (x y z : Bool) : Opcode.Statement (.cmpLeN d a b x y z) :=
  fun _ h => by cases h; exact Nat.le_of_ble_eq_true rfl
theorem Opcode.addw (d a b : Field) (x y z : Bool) : Opcode.Statement (.addw d a b x y z) :=
  fun _ h => by cases h; exact Nat.le_of_ble_eq_true rfl
theorem Opcode.subw (d a b : Field) (x y z : Bool) : Opcode.Statement (.subw d a b x y z) :=
  fun _ h => by cases h; exact Nat.le_of_ble_eq_true rfl
theorem Opcode.mulwS (d a b : Field) (x y z : Bool) : Opcode.Statement (.mulwS d a b x y z) :=
  fun _ h => by cases h; exact Nat.le_of_ble_eq_true rfl
theorem Opcode.mulwN (d a b : Field) (x y z : Bool) : Opcode.Statement (.mulwN d a b x y z) :=
  fun _ h => by cases h; exact Nat.le_of_ble_eq_true rfl
theorem Opcode.madwN (d a b : Field) (x y z : Bool) : Opcode.Statement (.madwN d a b x y z) :=
  fun _ h => by cases h; exact Nat.le_of_ble_eq_true rfl
theorem Opcode.fadd (d a b : Field) (x y z : Bool) : Opcode.Statement (.fadd d a b x y z) :=
  fun _ h => by cases h; exact Nat.le_of_ble_eq_true rfl
theorem Opcode.fsub (d a b : Field) (x y z : Bool) : Opcode.Statement (.fsub d a b x y z) :=
  fun _ h => by cases h; exact Nat.le_of_ble_eq_true rfl
theorem Opcode.fmul (d a b : Field) (x y z : Bool) : Opcode.Statement (.fmul d a b x y z) :=
  fun _ h => by cases h; exact Nat.le_of_ble_eq_true rfl
theorem Opcode.ffma (d a b : Field) (x y z : Bool) : Opcode.Statement (.ffma d a b x y z) :=
  fun _ h => by cases h; exact Nat.le_of_ble_eq_true rfl
theorem Opcode.fmin (d a b : Field) (x y z : Bool) : Opcode.Statement (.fmin d a b x y z) :=
  fun _ h => by cases h; exact Nat.le_of_ble_eq_true rfl
theorem Opcode.fmax (d a b : Field) (x y z : Bool) : Opcode.Statement (.fmax d a b x y z) :=
  fun _ h => by cases h; exact Nat.le_of_ble_eq_true rfl
theorem Opcode.fcmpEq (d a b : Field) (x y z : Bool) : Opcode.Statement (.fcmpEq d a b x y z) :=
  fun _ h => by cases h; exact Nat.le_of_ble_eq_true rfl
theorem Opcode.fcmpLt (d a b : Field) (x y z : Bool) : Opcode.Statement (.fcmpLt d a b x y z) :=
  fun _ h => by cases h; exact Nat.le_of_ble_eq_true rfl
theorem Opcode.fcmpLe (d a b : Field) (x y z : Bool) : Opcode.Statement (.fcmpLe d a b x y z) :=
  fun _ h => by cases h; exact Nat.le_of_ble_eq_true rfl
theorem Opcode.fcmpUo (d a b : Field) (x y z : Bool) : Opcode.Statement (.fcmpUo d a b x y z) :=
  fun _ h => by cases h; exact Nat.le_of_ble_eq_true rfl
theorem Opcode.frnd (d a b : Field) (x y z : Bool) : Opcode.Statement (.frnd d a b x y z) :=
  fun _ h => by cases h; exact Nat.le_of_ble_eq_true rfl
theorem Opcode.ffrc (d a b : Field) (x y z : Bool) : Opcode.Statement (.ffrc d a b x y z) :=
  fun _ h => by cases h; exact Nat.le_of_ble_eq_true rfl
theorem Opcode.fclass (d a b : Field) (x y z : Bool) : Opcode.Statement (.fclass d a b x y z) :=
  fun _ h => by cases h; exact Nat.le_of_ble_eq_true rfl
theorem Opcode.fldexp (d a b : Field) (x y z : Bool) : Opcode.Statement (.fldexp d a b x y z) :=
  fun _ h => by cases h; exact Nat.le_of_ble_eq_true rfl
theorem Opcode.cvti (d a b : Field) (x y z : Bool) : Opcode.Statement (.cvti d a b x y z) :=
  fun _ h => by cases h; exact Nat.le_of_ble_eq_true rfl
theorem Opcode.cvtf (d a b : Field) (x y z : Bool) : Opcode.Statement (.cvtf d a b x y z) :=
  fun _ h => by cases h; exact Nat.le_of_ble_eq_true rfl
theorem Opcode.cvth (d a b : Field) (x y z : Bool) : Opcode.Statement (.cvth d a b x y z) :=
  fun _ h => by cases h; exact Nat.le_of_ble_eq_true rfl
theorem Opcode.cvtw (d a b : Field) (x y z : Bool) : Opcode.Statement (.cvtw d a b x y z) :=
  fun _ h => by cases h; exact Nat.le_of_ble_eq_true rfl
theorem Opcode.hadd2 (d a b : Field) (x y z : Bool) : Opcode.Statement (.hadd2 d a b x y z) :=
  fun _ h => by cases h; exact Nat.le_of_ble_eq_true rfl
theorem Opcode.hmul2 (d a b : Field) (x y z : Bool) : Opcode.Statement (.hmul2 d a b x y z) :=
  fun _ h => by cases h; exact Nat.le_of_ble_eq_true rfl
theorem Opcode.hfma2 (d a b : Field) (x y z : Bool) : Opcode.Statement (.hfma2 d a b x y z) :=
  fun _ h => by cases h; exact Nat.le_of_ble_eq_true rfl
theorem Opcode.hmin2 (d a b : Field) (x y z : Bool) : Opcode.Statement (.hmin2 d a b x y z) :=
  fun _ h => by cases h; exact Nat.le_of_ble_eq_true rfl
theorem Opcode.hmax2 (d a b : Field) (x y z : Bool) : Opcode.Statement (.hmax2 d a b x y z) :=
  fun _ h => by cases h; exact Nat.le_of_ble_eq_true rfl
theorem Opcode.dadd (d a b : Field) (x y z : Bool) : Opcode.Statement (.dadd d a b x y z) :=
  fun _ h => by cases h; exact Nat.le_of_ble_eq_true rfl
theorem Opcode.dmul (d a b : Field) (x y z : Bool) : Opcode.Statement (.dmul d a b x y z) :=
  fun _ h => by cases h; exact Nat.le_of_ble_eq_true rfl
theorem Opcode.dfma (d a b : Field) (x y z : Bool) : Opcode.Statement (.dfma d a b x y z) :=
  fun _ h => by cases h; exact Nat.le_of_ble_eq_true rfl
theorem Opcode.dmin (d a b : Field) (x y z : Bool) : Opcode.Statement (.dmin d a b x y z) :=
  fun _ h => by cases h; exact Nat.le_of_ble_eq_true rfl
theorem Opcode.dmax (d a b : Field) (x y z : Bool) : Opcode.Statement (.dmax d a b x y z) :=
  fun _ h => by cases h; exact Nat.le_of_ble_eq_true rfl
theorem Opcode.dcmpEq (d a b : Field) (x y z : Bool) : Opcode.Statement (.dcmpEq d a b x y z) :=
  fun _ h => by cases h; exact Nat.le_of_ble_eq_true rfl
theorem Opcode.dcmpLt (d a b : Field) (x y z : Bool) : Opcode.Statement (.dcmpLt d a b x y z) :=
  fun _ h => by cases h; exact Nat.le_of_ble_eq_true rfl
theorem Opcode.dcvt (d a b : Field) (x y z : Bool) : Opcode.Statement (.dcvt d a b x y z) :=
  fun _ h => by cases h; exact Nat.le_of_ble_eq_true rfl
theorem Opcode.drnd (d a b : Field) (x y z : Bool) : Opcode.Statement (.drnd d a b x y z) :=
  fun _ h => by cases h; exact Nat.le_of_ble_eq_true rfl
theorem Opcode.frcp (d a b : Field) (x y z : Bool) : Opcode.Statement (.frcp d a b x y z) :=
  fun _ h => by cases h; exact Nat.le_of_ble_eq_true rfl
theorem Opcode.frsq (d a b : Field) (x y z : Bool) : Opcode.Statement (.frsq d a b x y z) :=
  fun _ h => by cases h; exact Nat.le_of_ble_eq_true rfl
theorem Opcode.fsqrt (d a b : Field) (x y z : Bool) : Opcode.Statement (.fsqrt d a b x y z) :=
  fun _ h => by cases h; exact Nat.le_of_ble_eq_true rfl
theorem Opcode.fexp2 (d a b : Field) (x y z : Bool) : Opcode.Statement (.fexp2 d a b x y z) :=
  fun _ h => by cases h; exact Nat.le_of_ble_eq_true rfl
theorem Opcode.flog2 (d a b : Field) (x y z : Bool) : Opcode.Statement (.flog2 d a b x y z) :=
  fun _ h => by cases h; exact Nat.le_of_ble_eq_true rfl
theorem Opcode.fsin (d a b : Field) (x y z : Bool) : Opcode.Statement (.fsin d a b x y z) :=
  fun _ h => by cases h; exact Nat.le_of_ble_eq_true rfl
theorem Opcode.fcos (d a b : Field) (x y z : Bool) : Opcode.Statement (.fcos d a b x y z) :=
  fun _ h => by cases h; exact Nat.le_of_ble_eq_true rfl
theorem Opcode.ftanh (d a b : Field) (x y z : Bool) : Opcode.Statement (.ftanh d a b x y z) :=
  fun _ h => by cases h; exact Nat.le_of_ble_eq_true rfl
theorem Opcode.fdiv (d a b : Field) (x y z : Bool) : Opcode.Statement (.fdiv d a b x y z) :=
  fun _ h => by cases h; exact Nat.le_of_ble_eq_true rfl
theorem Opcode.act (d a b : Field) (x y z : Bool) : Opcode.Statement (.act d a b x y z) :=
  fun _ h => by cases h; exact Nat.le_of_ble_eq_true rfl
theorem Opcode.actld (d a b : Field) (x y z : Bool) : Opcode.Statement (.actld d a b x y z) :=
  fun _ h => by cases h; exact Nat.le_of_ble_eq_true rfl
theorem Opcode.drcp (d a b : Field) (x y z : Bool) : Opcode.Statement (.drcp d a b x y z) :=
  fun _ h => by cases h; exact Nat.le_of_ble_eq_true rfl
theorem Opcode.dsqrt (d a b : Field) (x y z : Bool) : Opcode.Statement (.dsqrt d a b x y z) :=
  fun _ h => by cases h; exact Nat.le_of_ble_eq_true rfl
theorem Opcode.ddiv (d a b : Field) (x y z : Bool) : Opcode.Statement (.ddiv d a b x y z) :=
  fun _ h => by cases h; exact Nat.le_of_ble_eq_true rfl
theorem Opcode.shfl (d a b : Field) (x y z : Bool) : Opcode.Statement (.shfl d a b x y z) :=
  fun _ h => by cases h; exact Nat.le_of_ble_eq_true rfl
theorem Opcode.shflup (d a b : Field) (x y z : Bool) : Opcode.Statement (.shflup d a b x y z) :=
  fun _ h => by cases h; exact Nat.le_of_ble_eq_true rfl
theorem Opcode.shfldn (d a b : Field) (x y z : Bool) : Opcode.Statement (.shfldn d a b x y z) :=
  fun _ h => by cases h; exact Nat.le_of_ble_eq_true rfl
theorem Opcode.shflx (d a b : Field) (x y z : Bool) : Opcode.Statement (.shflx d a b x y z) :=
  fun _ h => by cases h; exact Nat.le_of_ble_eq_true rfl
theorem Opcode.vote (d a b : Field) (x y z : Bool) : Opcode.Statement (.vote d a b x y z) :=
  fun _ h => by cases h; exact Nat.le_of_ble_eq_true rfl
theorem Opcode.vany (d a b : Field) (x y z : Bool) : Opcode.Statement (.vany d a b x y z) :=
  fun _ h => by cases h; exact Nat.le_of_ble_eq_true rfl
theorem Opcode.vall (d a b : Field) (x y z : Bool) : Opcode.Statement (.vall d a b x y z) :=
  fun _ h => by cases h; exact Nat.le_of_ble_eq_true rfl
theorem Opcode.redadd (d a b : Field) (x y z : Bool) : Opcode.Statement (.redadd d a b x y z) :=
  fun _ h => by cases h; exact Nat.le_of_ble_eq_true rfl
theorem Opcode.redfadd (d a b : Field) (x y z : Bool) : Opcode.Statement (.redfadd d a b x y z) :=
  fun _ h => by cases h; exact Nat.le_of_ble_eq_true rfl
theorem Opcode.redmin (d a b : Field) (x y z : Bool) : Opcode.Statement (.redmin d a b x y z) :=
  fun _ h => by cases h; exact Nat.le_of_ble_eq_true rfl
theorem Opcode.redmax (d a b : Field) (x y z : Bool) : Opcode.Statement (.redmax d a b x y z) :=
  fun _ h => by cases h; exact Nat.le_of_ble_eq_true rfl
theorem Opcode.scanadd (d a b : Field) (x y z : Bool) : Opcode.Statement (.scanadd d a b x y z) :=
  fun _ h => by cases h; exact Nat.le_of_ble_eq_true rfl
theorem Opcode.firstl (d a b : Field) (x y z : Bool) : Opcode.Statement (.firstl d a b x y z) :=
  fun _ h => by cases h; exact Nat.le_of_ble_eq_true rfl
theorem Opcode.dvdecl (d a b : Field) (x y z : Bool) : Opcode.Statement (.dvdecl d a b x y z) :=
  fun _ h => by cases h; exact Nat.le_of_ble_eq_true rfl
theorem Opcode.dvpub (d a b : Field) (x y z : Bool) : Opcode.Statement (.dvpub d a b x y z) :=
  fun _ h => by cases h; exact Nat.le_of_ble_eq_true rfl
theorem Opcode.dvend (d a b : Field) (x y z : Bool) : Opcode.Statement (.dvend d a b x y z) :=
  fun _ h => by cases h; exact Nat.le_of_ble_eq_true rfl
theorem Opcode.smld (d a b : Field) (x y z : Bool) : Opcode.Statement (.smld d a b x y z) :=
  fun _ h => by cases h; exact Nat.le_of_ble_eq_true rfl
theorem Opcode.smst (d a b : Field) (x y z : Bool) : Opcode.Statement (.smst d a b x y z) :=
  fun _ h => by cases h; exact Nat.le_of_ble_eq_true rfl
theorem Opcode.smmul (d a b : Field) (x y z : Bool) : Opcode.Statement (.smmul d a b x y z) :=
  fun _ h => by cases h; exact Nat.le_of_ble_eq_true rfl
theorem Opcode.smmult (d a b : Field) (x y z : Bool) : Opcode.Statement (.smmult d a b x y z) :=
  fun _ h => by cases h; exact Nat.le_of_ble_eq_true rfl
theorem Opcode.smtmul (d a b : Field) (x y z : Bool) : Opcode.Statement (.smtmul d a b x y z) :=
  fun _ h => by cases h; exact Nat.le_of_ble_eq_true rfl
theorem Opcode.smadd (d a b : Field) (x y z : Bool) : Opcode.Statement (.smadd d a b x y z) :=
  fun _ h => by cases h; exact Nat.le_of_ble_eq_true rfl
theorem Opcode.smsub (d a b : Field) (x y z : Bool) : Opcode.Statement (.smsub d a b x y z) :=
  fun _ h => by cases h; exact Nat.le_of_ble_eq_true rfl
theorem Opcode.smscl (d a b : Field) (x y z : Bool) : Opcode.Statement (.smscl d a b x y z) :=
  fun _ h => by cases h; exact Nat.le_of_ble_eq_true rfl
theorem Opcode.smtrn (d a b : Field) (x y z : Bool) : Opcode.Statement (.smtrn d a b x y z) :=
  fun _ h => by cases h; exact Nat.le_of_ble_eq_true rfl
theorem Opcode.smmv (d a b : Field) (x y z : Bool) : Opcode.Statement (.smmv d a b x y z) :=
  fun _ h => by cases h; exact Nat.le_of_ble_eq_true rfl
theorem Opcode.smchol (d a b : Field) (x y z : Bool) : Opcode.Statement (.smchol d a b x y z) :=
  fun _ h => by cases h; exact Nat.le_of_ble_eq_true rfl
theorem Opcode.smlu (d a b : Field) (x y z : Bool) : Opcode.Statement (.smlu d a b x y z) :=
  fun _ h => by cases h; exact Nat.le_of_ble_eq_true rfl
theorem Opcode.smsolv (d a b : Field) (x y z : Bool) : Opcode.Statement (.smsolv d a b x y z) :=
  fun _ h => by cases h; exact Nat.le_of_ble_eq_true rfl
theorem Opcode.smdet (d a b : Field) (x y z : Bool) : Opcode.Statement (.smdet d a b x y z) :=
  fun _ h => by cases h; exact Nat.le_of_ble_eq_true rfl
theorem Opcode.smid (d a b : Field) (x y z : Bool) : Opcode.Statement (.smid d a b x y z) :=
  fun _ h => by cases h; exact Nat.le_of_ble_eq_true rfl
theorem Opcode.smcopy (d a b : Field) (x y z : Bool) : Opcode.Statement (.smcopy d a b x y z) :=
  fun _ h => by cases h; exact Nat.le_of_ble_eq_true rfl
theorem Opcode.ldp (d a b : Field) (x y z : Bool) : Opcode.Statement (.ldp d a b x y z) :=
  fun _ h => by cases h; exact Nat.le_of_ble_eq_true rfl
theorem Opcode.stp (d a b : Field) (x y z : Bool) : Opcode.Statement (.stp d a b x y z) :=
  fun _ h => by cases h; exact Nat.le_of_ble_eq_true rfl
theorem Opcode.ldk (d a b : Field) (x y z : Bool) : Opcode.Statement (.ldk d a b x y z) :=
  fun _ h => by cases h; exact Nat.le_of_ble_eq_true rfl
theorem Opcode.stk (d a b : Field) (x y z : Bool) : Opcode.Statement (.stk d a b x y z) :=
  fun _ h => by cases h; exact Nat.le_of_ble_eq_true rfl
theorem Opcode.ldq (d a b : Field) (x y z : Bool) : Opcode.Statement (.ldq d a b x y z) :=
  fun _ h => by cases h; exact Nat.le_of_ble_eq_true rfl
theorem Opcode.stq (d a b : Field) (x y z : Bool) : Opcode.Statement (.stq d a b x y z) :=
  fun _ h => by cases h; exact Nat.le_of_ble_eq_true rfl
theorem Opcode.ldd (d a b : Field) (x y z : Bool) : Opcode.Statement (.ldd d a b x y z) :=
  fun _ h => by cases h; exact Nat.le_of_ble_eq_true rfl
theorem Opcode.std (d a b : Field) (x y z : Bool) : Opcode.Statement (.std d a b x y z) :=
  fun _ h => by cases h; exact Nat.le_of_ble_eq_true rfl
theorem Opcode.ld (d a b : Field) (x y z : Bool) : Opcode.Statement (.ld d a b x y z) :=
  fun _ h => by cases h; exact Nat.le_of_ble_eq_true rfl
theorem Opcode.st (d a b : Field) (x y z : Bool) : Opcode.Statement (.st d a b x y z) :=
  fun _ h => by cases h; exact Nat.le_of_ble_eq_true rfl
theorem Opcode.ldkt (d a b : Field) (x y z : Bool) : Opcode.Statement (.ldkt d a b x y z) :=
  fun _ h => by cases h; exact Nat.le_of_ble_eq_true rfl
theorem Opcode.stkt (d a b : Field) (x y z : Bool) : Opcode.Statement (.stkt d a b x y z) :=
  fun _ h => by cases h; exact Nat.le_of_ble_eq_true rfl
theorem Opcode.pfm (d a b : Field) (x y z : Bool) : Opcode.Statement (.pfm d a b x y z) :=
  fun _ h => by cases h; exact Nat.le_of_ble_eq_true rfl
theorem Opcode.llock (d a b : Field) (x y z : Bool) : Opcode.Statement (.llock d a b x y z) :=
  fun _ h => by cases h; exact Nat.le_of_ble_eq_true rfl
theorem Opcode.lunlk (d a b : Field) (x y z : Bool) : Opcode.Statement (.lunlk d a b x y z) :=
  fun _ h => by cases h; exact Nat.le_of_ble_eq_true rfl
theorem Opcode.lqry (d a b : Field) (x y z : Bool) : Opcode.Statement (.lqry d a b x y z) :=
  fun _ h => by cases h; exact Nat.le_of_ble_eq_true rfl
theorem Opcode.rld (d a b : Field) (x y z : Bool) : Opcode.Statement (.rld d a b x y z) :=
  fun _ h => by cases h; exact Nat.le_of_ble_eq_true rfl
theorem Opcode.rst (d a b : Field) (x y z : Bool) : Opcode.Statement (.rst d a b x y z) :=
  fun _ h => by cases h; exact Nat.le_of_ble_eq_true rfl
theorem Opcode.atom (d a b : Field) (x y z : Bool) : Opcode.Statement (.atom d a b x y z) :=
  fun _ h => by cases h; exact Nat.le_of_ble_eq_true rfl
theorem Opcode.atomk (d a b : Field) (x y z : Bool) : Opcode.Statement (.atomk d a b x y z) :=
  fun _ h => by cases h; exact Nat.le_of_ble_eq_true rfl
theorem Opcode.atomq (d a b : Field) (x y z : Bool) : Opcode.Statement (.atomq d a b x y z) :=
  fun _ h => by cases h; exact Nat.le_of_ble_eq_true rfl
theorem Opcode.acas (d a b : Field) (x y z : Bool) : Opcode.Statement (.acas d a b x y z) :=
  fun _ h => by cases h; exact Nat.le_of_ble_eq_true rfl
theorem Opcode.acas64 (d a b : Field) (x y z : Bool) : Opcode.Statement (.acas64 d a b x y z) :=
  fun _ h => by cases h; exact Nat.le_of_ble_eq_true rfl
theorem Opcode.acas128 (d a b : Field) (x y z : Bool) : Opcode.Statement (.acas128 d a b x y z) :=
  fun _ h => by cases h; exact Nat.le_of_ble_eq_true rfl
theorem Opcode.ratom (d a b : Field) (x y z : Bool) : Opcode.Statement (.ratom d a b x y z) :=
  fun _ h => by cases h; exact Nat.le_of_ble_eq_true rfl
theorem Opcode.rcas (d a b : Field) (x y z : Bool) : Opcode.Statement (.rcas d a b x y z) :=
  fun _ h => by cases h; exact Nat.le_of_ble_eq_true rfl
theorem Opcode.acq (d a b : Field) (x y z : Bool) : Opcode.Statement (.acq d a b x y z) :=
  fun _ h => by cases h; exact Nat.le_of_ble_eq_true rfl
theorem Opcode.rel (d a b : Field) (x y z : Bool) : Opcode.Statement (.rel d a b x y z) :=
  fun _ h => by cases h; exact Nat.le_of_ble_eq_true rfl
theorem Opcode.fence (d a b : Field) (x y z : Bool) : Opcode.Statement (.fence d a b x y z) :=
  fun _ h => by cases h; exact Nat.le_of_ble_eq_true rfl
theorem Opcode.tfence (d a b : Field) (x y z : Bool) : Opcode.Statement (.tfence d a b x y z) :=
  fun _ h => by cases h; exact Nat.le_of_ble_eq_true rfl
theorem Opcode.ifence (d a b : Field) (x y z : Bool) : Opcode.Statement (.ifence d a b x y z) :=
  fun _ h => by cases h; exact Nat.le_of_ble_eq_true rfl
theorem Opcode.shld (d a b : Field) (x y z : Bool) : Opcode.Statement (.shld d a b x y z) :=
  fun _ h => by cases h; exact Nat.le_of_ble_eq_true rfl
theorem Opcode.shst (d a b : Field) (x y z : Bool) : Opcode.Statement (.shst d a b x y z) :=
  fun _ h => by cases h; exact Nat.le_of_ble_eq_true rfl
theorem Opcode.shset (d a b : Field) (x y z : Bool) : Opcode.Statement (.shset d a b x y z) :=
  fun _ h => by cases h; exact Nat.le_of_ble_eq_true rfl
theorem Opcode.shget (d a b : Field) (x y z : Bool) : Opcode.Statement (.shget d a b x y z) :=
  fun _ h => by cases h; exact Nat.le_of_ble_eq_true rfl
theorem Opcode.shidx (d a b : Field) (x y z : Bool) : Opcode.Statement (.shidx d a b x y z) :=
  fun _ h => by cases h; exact Nat.le_of_ble_eq_true rfl
theorem Opcode.swadd (d a b : Field) (x y z : Bool) : Opcode.Statement (.swadd d a b x y z) :=
  fun _ h => by cases h; exact Nat.le_of_ble_eq_true rfl
theorem Opcode.swmul (d a b : Field) (x y z : Bool) : Opcode.Statement (.swmul d a b x y z) :=
  fun _ h => by cases h; exact Nat.le_of_ble_eq_true rfl
theorem Opcode.swfma (d a b : Field) (x y z : Bool) : Opcode.Statement (.swfma d a b x y z) :=
  fun _ h => by cases h; exact Nat.le_of_ble_eq_true rfl
theorem Opcode.swmax (d a b : Field) (x y z : Bool) : Opcode.Statement (.swmax d a b x y z) :=
  fun _ h => by cases h; exact Nat.le_of_ble_eq_true rfl
theorem Opcode.swcvt (d a b : Field) (x y z : Bool) : Opcode.Statement (.swcvt d a b x y z) :=
  fun _ h => by cases h; exact Nat.le_of_ble_eq_true rfl
theorem Opcode.swact (d a b : Field) (x y z : Bool) : Opcode.Statement (.swact d a b x y z) :=
  fun _ h => by cases h; exact Nat.le_of_ble_eq_true rfl
theorem Opcode.swcpy (d a b : Field) (x y z : Bool) : Opcode.Statement (.swcpy d a b x y z) :=
  fun _ h => by cases h; exact Nat.le_of_ble_eq_true rfl
theorem Opcode.swred (d a b : Field) (x y z : Bool) : Opcode.Statement (.swred d a b x y z) :=
  fun _ h => by cases h; exact Nat.le_of_ble_eq_true rfl
theorem Opcode.swtrn (d a b : Field) (x y z : Bool) : Opcode.Statement (.swtrn d a b x y z) :=
  fun _ h => by cases h; exact Nat.le_of_ble_eq_true rfl
theorem Opcode.cpq (d a b : Field) (x y z : Bool) : Opcode.Statement (.cpq d a b x y z) :=
  fun _ h => by cases h; exact Nat.le_of_ble_eq_true rfl
theorem Opcode.xfq (d a b : Field) (x y z : Bool) : Opcode.Statement (.xfq d a b x y z) :=
  fun _ h => by cases h; exact Nat.le_of_ble_eq_true rfl
theorem Opcode.waitseq (d a b : Field) (x y z : Bool) : Opcode.Statement (.waitseq d a b x y z) :=
  fun _ h => by cases h; exact Nat.le_of_ble_eq_true rfl
theorem Opcode.pollq (d a b : Field) (x y z : Bool) : Opcode.Statement (.pollq d a b x y z) :=
  fun _ h => by cases h; exact Nat.le_of_ble_eq_true rfl
theorem Opcode.xsend (d a b : Field) (x y z : Bool) : Opcode.Statement (.xsend d a b x y z) :=
  fun _ h => by cases h; exact Nat.le_of_ble_eq_true rfl
theorem Opcode.xputv (d a b : Field) (x y z : Bool) : Opcode.Statement (.xputv d a b x y z) :=
  fun _ h => by cases h; exact Nat.le_of_ble_eq_true rfl
theorem Opcode.xredv (d a b : Field) (x y z : Bool) : Opcode.Statement (.xredv d a b x y z) :=
  fun _ h => by cases h; exact Nat.le_of_ble_eq_true rfl
theorem Opcode.lcset (d a b : Field) (x y z : Bool) : Opcode.Statement (.lcset d a b x y z) :=
  fun _ h => by cases h; exact Nat.le_of_ble_eq_true rfl
theorem Opcode.lcwait (d a b : Field) (x y z : Bool) : Opcode.Statement (.lcwait d a b x y z) :=
  fun _ h => by cases h; exact Nat.le_of_ble_eq_true rfl
theorem Opcode.lcrd (d a b : Field) (x y z : Bool) : Opcode.Statement (.lcrd d a b x y z) :=
  fun _ h => by cases h; exact Nat.le_of_ble_eq_true rfl
theorem Opcode.publ (d a b : Field) (x y z : Bool) : Opcode.Statement (.publ d a b x y z) :=
  fun _ h => by cases h; exact Nat.le_of_ble_eq_true rfl
theorem Opcode.spawn (d a b : Field) (x y z : Bool) : Opcode.Statement (.spawn d a b x y z) :=
  fun _ h => by cases h; exact Nat.le_of_ble_eq_true rfl
theorem Opcode.scarf (d a b : Field) (x y z : Bool) : Opcode.Statement (.scarf d a b x y z) :=
  fun _ h => by cases h; exact Nat.le_of_ble_eq_true rfl
theorem Opcode.trig (d a b : Field) (x y z : Bool) : Opcode.Statement (.trig d a b x y z) :=
  fun _ h => by cases h; exact Nat.le_of_ble_eq_true rfl
theorem Opcode.waitdep (d a b : Field) (x y z : Bool) : Opcode.Statement (.waitdep d a b x y z) :=
  fun _ h => by cases h; exact Nat.le_of_ble_eq_true rfl
theorem Opcode.bra (d a b : Field) (x y z : Bool) : Opcode.Statement (.bra d a b x y z) :=
  fun _ h => by cases h; exact Nat.le_of_ble_eq_true rfl
theorem Opcode.brz (d a b : Field) (x y z : Bool) : Opcode.Statement (.brz d a b x y z) :=
  fun _ h => by cases h; exact Nat.le_of_ble_eq_true rfl
theorem Opcode.brnz (d a b : Field) (x y z : Bool) : Opcode.Statement (.brnz d a b x y z) :=
  fun _ h => by cases h; exact Nat.le_of_ble_eq_true rfl
theorem Opcode.brnone (d a b : Field) (x y z : Bool) : Opcode.Statement (.brnone d a b x y z) :=
  fun _ h => by cases h; exact Nat.le_of_ble_eq_true rfl
theorem Opcode.call (d a b : Field) (x y z : Bool) : Opcode.Statement (.call d a b x y z) :=
  fun _ h => by cases h; exact Nat.le_of_ble_eq_true rfl
theorem Opcode.ret (d a b : Field) (x y z : Bool) : Opcode.Statement (.ret d a b x y z) :=
  fun _ h => by cases h; exact Nat.le_of_ble_eq_true rfl
theorem Opcode.exit (d a b : Field) (x y z : Bool) : Opcode.Statement (.exit d a b x y z) :=
  fun _ h => by cases h; exact Nat.le_of_ble_eq_true rfl
theorem Opcode.bar (d a b : Field) (x y z : Bool) : Opcode.Statement (.bar d a b x y z) :=
  fun _ h => by cases h; exact Nat.le_of_ble_eq_true rfl
theorem Opcode.barq (d a b : Field) (x y z : Bool) : Opcode.Statement (.barq d a b x y z) :=
  fun _ h => by cases h; exact Nat.le_of_ble_eq_true rfl
theorem Opcode.setm (d a b : Field) (x y z : Bool) : Opcode.Statement (.setm d a b x y z) :=
  fun _ h => by cases h; exact Nat.le_of_ble_eq_true rfl
theorem Opcode.getm (d a b : Field) (x y z : Bool) : Opcode.Statement (.getm d a b x y z) :=
  fun _ h => by cases h; exact Nat.le_of_ble_eq_true rfl
theorem Opcode.trap (d a b : Field) (x y z : Bool) : Opcode.Statement (.trap d a b x y z) :=
  fun _ h => by cases h; exact Nat.le_of_ble_eq_true rfl
theorem Opcode.trapPark (d a : Field) (x y z : Bool) : Opcode.Statement (.trapPark d a x y z) :=
  fun _ h => by cases h; exact Nat.le_of_ble_eq_true rfl
theorem Opcode.rte (d a b : Field) (x y z : Bool) : Opcode.Statement (.rte d a b x y z) :=
  fun _ h => by cases h; exact Nat.le_of_ble_eq_true rfl
theorem Opcode.sread (d a b : Field) (x y z : Bool) : Opcode.Statement (.sread d a b x y z) :=
  fun _ h => by cases h; exact Nat.le_of_ble_eq_true rfl
theorem Opcode.swrite (d a b : Field) (x y z : Bool) : Opcode.Statement (.swrite d a b x y z) :=
  fun _ h => by cases h; exact Nat.le_of_ble_eq_true rfl
theorem Opcode.swriteInvalidateStart (d a : Field) (x y z : Bool) : Opcode.Statement (.swriteInvalidateStart d a x y z) :=
  fun _ h => by cases h; exact Nat.le_of_ble_eq_true rfl
theorem Opcode.nop (d a b : Field) (x y z : Bool) : Opcode.Statement (.nop d a b x y z) :=
  fun _ h => by cases h; exact Nat.le_of_ble_eq_true rfl
theorem Opcode.mma (d a b : Field) (x y z : Bool) : Opcode.Statement (.mma d a b x y z) :=
  fun _ h => by cases h; exact Nat.le_of_ble_eq_true rfl
theorem Opcode.mmaz (d a b : Field) (x y z : Bool) : Opcode.Statement (.mmaz d a b x y z) :=
  fun _ h => by cases h; exact Nat.le_of_ble_eq_true rfl
theorem Opcode.mmac (d a b : Field) (x y z : Bool) : Opcode.Statement (.mmac d a b x y z) :=
  fun _ h => by cases h; exact Nat.le_of_ble_eq_true rfl
theorem Opcode.accz (d a b : Field) (x y z : Bool) : Opcode.Statement (.accz d a b x y z) :=
  fun _ h => by cases h; exact Nat.le_of_ble_eq_true rfl
theorem Opcode.accld (d a b : Field) (x y z : Bool) : Opcode.Statement (.accld d a b x y z) :=
  fun _ h => by cases h; exact Nat.le_of_ble_eq_true rfl
theorem Opcode.accst (d a b : Field) (x y z : Bool) : Opcode.Statement (.accst d a b x y z) :=
  fun _ h => by cases h; exact Nat.le_of_ble_eq_true rfl
theorem Opcode.accrd (d a b : Field) (x y z : Bool) : Opcode.Statement (.accrd d a b x y z) :=
  fun _ h => by cases h; exact Nat.le_of_ble_eq_true rfl
theorem Opcode.accwr (d a b : Field) (x y z : Bool) : Opcode.Statement (.accwr d a b x y z) :=
  fun _ h => by cases h; exact Nat.le_of_ble_eq_true rfl
theorem Opcode.accwait (d a b : Field) (x y z : Bool) : Opcode.Statement (.accwait d a b x y z) :=
  fun _ h => by cases h; exact Nat.le_of_ble_eq_true rfl
theorem Opcode.mstat (d a b : Field) (x y z : Bool) : Opcode.Statement (.mstat d a b x y z) :=
  fun _ h => by cases h; exact Nat.le_of_ble_eq_true rfl
theorem Opcode.packageReset (flash : List BootImage) : Opcode.Statement (.packageReset flash) :=
  fun _ h => nomatch h
theorem Opcode.pcieLinkTrain (rootPort : Bool) (rate width : Nat) : Opcode.Statement (.pcieLinkTrain rootPort rate width) :=
  fun _ h => nomatch h
theorem Opcode.fabricLinkTrain (port yardPort : Nat) : Opcode.Statement (.fabricLinkTrain port yardPort) :=
  fun _ h => nomatch h
theorem Opcode.clauseIssue (core : Nat) : Opcode.Statement (.clauseIssue core) :=
  fun _ h => nomatch h
theorem Opcode.agingCounterExpiry (sid : Nat) : Opcode.Statement (.agingCounterExpiry sid) :=
  fun _ h => nomatch h
theorem Opcode.yieldExpiry (sid : Nat) : Opcode.Statement (.yieldExpiry sid) :=
  fun _ h => nomatch h
theorem Opcode.memoryOpComplete (sid op : Nat) : Opcode.Statement (.memoryOpComplete sid op) :=
  fun _ h => nomatch h
theorem Opcode.flagBOpComplete (sid op : Nat) : Opcode.Statement (.flagBOpComplete sid op) :=
  fun _ h => nomatch h
theorem Opcode.strandEnd (sid : Nat) : Opcode.Statement (.strandEnd sid) :=
  fun _ h => nomatch h
theorem Opcode.treeCompletion (tree : Nat) : Opcode.Statement (.treeCompletion tree) :=
  fun _ h => nomatch h
theorem Opcode.bentDispatch (launch cluster : Nat) (cores : List Nat) : Opcode.Statement (.bentDispatch launch cluster cores) :=
  fun _ h => nomatch h
theorem Opcode.clusterStart (cluster : Nat) : Opcode.Statement (.clusterStart cluster) :=
  fun _ h => nomatch h
theorem Opcode.childAccept (ctx : Nat) : Opcode.Statement (.childAccept ctx) :=
  fun _ h => nomatch h
theorem Opcode.triggerAdd (sid op : Nat) : Opcode.Statement (.triggerAdd sid op) :=
  fun _ h => nomatch h
theorem Opcode.waitdepResume (sid : Nat) : Opcode.Statement (.waitdepResume sid) :=
  fun _ h => nomatch h
theorem Opcode.waitseqResume (sid : Nat) : Opcode.Statement (.waitseqResume sid) :=
  fun _ h => nomatch h
theorem Opcode.lcwaitResume (sid : Nat) : Opcode.Statement (.lcwaitResume sid) :=
  fun _ h => nomatch h
theorem Opcode.pollqResume (sid : Nat) : Opcode.Statement (.pollqResume sid) :=
  fun _ h => nomatch h
theorem Opcode.presenceResume (sid : Nat) : Opcode.Statement (.presenceResume sid) :=
  fun _ h => nomatch h
theorem Opcode.ottEntryRetry (sid : Nat) : Opcode.Statement (.ottEntryRetry sid) :=
  fun _ h => nomatch h
theorem Opcode.spawnQueueResume (sid : Nat) : Opcode.Statement (.spawnQueueResume sid) :=
  fun _ h => nomatch h
theorem Opcode.actldParkEnd (sid : Nat) : Opcode.Statement (.actldParkEnd sid) :=
  fun _ h => nomatch h
theorem Opcode.dovetailReadResume (sid : Nat) : Opcode.Statement (.dovetailReadResume sid) :=
  fun _ h => nomatch h
theorem Opcode.dvpubParkResume (sid : Nat) : Opcode.Statement (.dvpubParkResume sid) :=
  fun _ h => nomatch h
theorem Opcode.pageWalk (ctx va : Nat) (forWrite : Bool) : Opcode.Statement (.pageWalk ctx va forWrite) :=
  fun _ h => nomatch h
theorem Opcode.elasticFaultResolve (ctx page : Nat) (frames : Option (List Nat)) : Opcode.Statement (.elasticFaultResolve ctx page frames) :=
  fun _ h => nomatch h
theorem Opcode.invalidationComplete (req : Nat) : Opcode.Statement (.invalidationComplete req) :=
  fun _ h => nomatch h
theorem Opcode.codebookRegionSet (die index : Nat) (value : BitVec 512) : Opcode.Statement (.codebookRegionSet die index value) :=
  fun _ h => nomatch h
theorem Opcode.twinSwap (ctx index : Nat) : Opcode.Statement (.twinSwap ctx index) :=
  fun _ h => nomatch h
theorem Opcode.engineEntryAccept (chain : Nat) : Opcode.Statement (.engineEntryAccept chain) :=
  fun _ h => nomatch h
theorem Opcode.chainWatchPoll (ctx chain : Nat) : Opcode.Statement (.chainWatchPoll ctx chain) :=
  fun _ h => nomatch h
theorem Opcode.copyLineDelivered (entry : Nat) : Opcode.Statement (.copyLineDelivered entry) :=
  fun _ h => nomatch h
theorem Opcode.entryComplete (entry : Nat) : Opcode.Statement (.entryComplete entry) :=
  fun _ h => nomatch h
theorem Opcode.fabricPacketSend (entry : Nat) : Opcode.Statement (.fabricPacketSend entry) :=
  fun _ h => nomatch h
theorem Opcode.write (p : Packet) : Opcode.Statement (.write p) :=
  fun _ h => nomatch h
theorem Opcode.reduce (p : Packet) : Opcode.Statement (.reduce p) :=
  fun _ h => nomatch h
theorem Opcode.read (p : Packet) : Opcode.Statement (.read p) :=
  fun _ h => nomatch h
theorem Opcode.atomic (p : Packet) : Opcode.Statement (.atomic p) :=
  fun _ h => nomatch h
theorem Opcode.cas (p : Packet) : Opcode.Statement (.cas p) :=
  fun _ h => nomatch h
theorem Opcode.readResponse (p : Packet) : Opcode.Statement (.readResponse p) :=
  fun _ h => nomatch h
theorem Opcode.atomicResponse (p : Packet) : Opcode.Statement (.atomicResponse p) :=
  fun _ h => nomatch h
theorem Opcode.landingAck (p : Packet) : Opcode.Statement (.landingAck p) :=
  fun _ h => nomatch h
theorem Opcode.nackRetry (p : Packet) : Opcode.Statement (.nackRetry p) :=
  fun _ h => nomatch h
theorem Opcode.nackStale (p : Packet) : Opcode.Statement (.nackStale p) :=
  fun _ h => nomatch h
theorem Opcode.nackFail (p : Packet) : Opcode.Statement (.nackFail p) :=
  fun _ h => nomatch h
theorem Opcode.faultHoldPerform (vf : Nat) : Opcode.Statement (.faultHoldPerform vf) :=
  fun _ h => nomatch h
theorem Opcode.retryResend (tag : Nat) : Opcode.Statement (.retryResend tag) :=
  fun _ h => nomatch h
theorem Opcode.remoteTimeout (tag : Nat) : Opcode.Statement (.remoteTimeout tag) :=
  fun _ h => nomatch h
theorem Opcode.linkDown (port : Nat) : Opcode.Statement (.linkDown port) :=
  fun _ h => nomatch h
theorem Opcode.planeRetrain (port : Nat) : Opcode.Statement (.planeRetrain port) :=
  fun _ h => nomatch h
theorem Opcode.ptpEvent (port stamp : Nat) (msg : Packet) : Opcode.Statement (.ptpEvent port stamp msg) :=
  fun _ h => nomatch h
theorem Opcode.ptpMeasurement (offset : Int) : Opcode.Statement (.ptpMeasurement offset) :=
  fun _ h => nomatch h
theorem Opcode.managementMessage (p : Packet) : Opcode.Statement (.managementMessage p) :=
  fun _ h => nomatch h
theorem Opcode.framerAnnounce (priority yardPort : Nat) : Opcode.Statement (.framerAnnounce priority yardPort) :=
  fun _ h => nomatch h
theorem Opcode.framerTakeover (yardPort : Nat) : Opcode.Statement (.framerTakeover yardPort) :=
  fun _ h => nomatch h
theorem Opcode.raisingTable (packet : Packet) : Opcode.Statement (.raisingTable packet) :=
  fun _ h => nomatch h
theorem Opcode.raisingRepublishRequest (yardPort : Nat) : Opcode.Statement (.raisingRepublishRequest yardPort) :=
  fun _ h => nomatch h
theorem Opcode.outOfTurnRequest (r : UrgentRequest) : Opcode.Statement (.outOfTurnRequest r) :=
  fun _ h => nomatch h
theorem Opcode.raisingHalt (seq : Nat) : Opcode.Statement (.raisingHalt seq) :=
  fun _ h => nomatch h
theorem Opcode.outOfTurnHalt (seq : Nat) : Opcode.Statement (.outOfTurnHalt seq) :=
  fun _ h => nomatch h
theorem Opcode.outOfTurnResume (seq : Nat) : Opcode.Statement (.outOfTurnResume seq) :=
  fun _ h => nomatch h
theorem Opcode.runLimitExpiry (tree : Nat) : Opcode.Statement (.runLimitExpiry tree) :=
  fun _ h => nomatch h
theorem Opcode.drainWindowEnd (vf : Nat) : Opcode.Statement (.drainWindowEnd vf) :=
  fun _ h => nomatch h
theorem Opcode.raisingRestore (cluster : Nat) : Opcode.Statement (.raisingRestore cluster) :=
  fun _ h => nomatch h
theorem Opcode.amiahRingPoll (ctx ring : Nat) : Opcode.Statement (.amiahRingPoll ctx ring) :=
  fun _ h => nomatch h
theorem Opcode.launchPacket (ctx ring : Nat) : Opcode.Statement (.launchPacket ctx ring) :=
  fun _ h => nomatch h
theorem Opcode.ringWaitPacket (ctx ring : Nat) : Opcode.Statement (.ringWaitPacket ctx ring) :=
  fun _ h => nomatch h
theorem Opcode.ringWaitSatisfied (ctx ring : Nat) : Opcode.Statement (.ringWaitSatisfied ctx ring) :=
  fun _ h => nomatch h
theorem Opcode.ringWritePacket (ctx ring : Nat) : Opcode.Statement (.ringWritePacket ctx ring) :=
  fun _ h => nomatch h
theorem Opcode.fencePacket (ctx ring : Nat) : Opcode.Statement (.fencePacket ctx ring) :=
  fun _ h => nomatch h
theorem Opcode.fencePacketDone (ctx ring : Nat) : Opcode.Statement (.fencePacketDone ctx ring) :=
  fun _ h => nomatch h
theorem Opcode.leasePacket (ctx ring : Nat) : Opcode.Statement (.leasePacket ctx ring) :=
  fun _ h => nomatch h
theorem Opcode.leaseReplace (ctx ring : Nat) : Opcode.Statement (.leaseReplace ctx ring) :=
  fun _ h => nomatch h
theorem Opcode.padPacket (ctx ring : Nat) : Opcode.Statement (.padPacket ctx ring) :=
  fun _ h => nomatch h
theorem Opcode.create (cmd record ctx twinFrame saveFrame : Nat) : Opcode.Statement (.create cmd record ctx twinFrame saveFrame) :=
  fun _ h => nomatch h
theorem Opcode.destroy (cmd ctx : Nat) : Opcode.Statement (.destroy cmd ctx) :=
  fun _ h => nomatch h
theorem Opcode.resumeStrand (cmd ctx slot : Nat) : Opcode.Statement (.resumeStrand cmd ctx slot) :=
  fun _ h => nomatch h
theorem Opcode.killStrand (cmd ctx slot : Nat) : Opcode.Statement (.killStrand cmd ctx slot) :=
  fun _ h => nomatch h
theorem Opcode.killTree (cmd ctx seedSeq : Nat) : Opcode.Statement (.killTree cmd ctx seedSeq) :=
  fun _ h => nomatch h
theorem Opcode.ringRestart (cmd ctx ring : Nat) : Opcode.Statement (.ringRestart cmd ctx ring) :=
  fun _ h => nomatch h
theorem Opcode.gangSet (cmd ctx : Nat) : Opcode.Statement (.gangSet cmd ctx) :=
  fun _ h => nomatch h
theorem Opcode.twinSet (cmd ctx index : Nat) (descriptor : BitVec 512) : Opcode.Statement (.twinSet cmd ctx index descriptor) :=
  fun _ h => nomatch h
theorem Opcode.chainWatch (cmd ctx va : Nat) : Opcode.Statement (.chainWatch cmd ctx va) :=
  fun _ h => nomatch h
theorem Opcode.chainUnwatch (cmd ctx va : Nat) : Opcode.Statement (.chainUnwatch cmd ctx va) :=
  fun _ h => nomatch h
theorem Opcode.dirtyOn (cmd vf bitmap : Nat) : Opcode.Statement (.dirtyOn cmd vf bitmap) :=
  fun _ h => nomatch h
theorem Opcode.dirtyRound (cmd vf snapshot : Nat) : Opcode.Statement (.dirtyRound cmd vf snapshot) :=
  fun _ h => nomatch h
theorem Opcode.stopVf (cmd vf : Nat) : Opcode.Statement (.stopVf cmd vf) :=
  fun _ h => nomatch h
theorem Opcode.exportImage (cmd vf image bytes : Nat) : Opcode.Statement (.exportImage cmd vf image bytes) :=
  fun _ h => nomatch h
theorem Opcode.importImage (cmd image vf : Nat) (keys : List Nat) : Opcode.Statement (.importImage cmd image vf keys) :=
  fun _ h => nomatch h
theorem Opcode.startVf (cmd vf : Nat) : Opcode.Statement (.startVf cmd vf) :=
  fun _ h => nomatch h
theorem Opcode.dirtyOff (cmd vf : Nat) : Opcode.Statement (.dirtyOff cmd vf) :=
  fun _ h => nomatch h
theorem Opcode.devwinSet (cmd vf list : Nat) : Opcode.Statement (.devwinSet cmd vf list) :=
  fun _ h => nomatch h
theorem Opcode.attest (cmd vf nonce report : Nat) : Opcode.Statement (.attest cmd vf nonce report) :=
  fun _ h => nomatch h
theorem Opcode.energyInterval (charges : List (Nat × Nat)) : Opcode.Statement (.energyInterval charges) :=
  fun _ h => nomatch h
theorem Opcode.energyExhausted (ctx charge : Nat) : Opcode.Statement (.energyExhausted ctx charge) :=
  fun _ h => nomatch h
theorem Opcode.powerMeterSample (package : Nat) (functions : List Nat) : Opcode.Statement (.powerMeterSample package functions) :=
  fun _ h => nomatch h
theorem Opcode.returnToNominal (ceiling : Nat) : Opcode.Statement (.returnToNominal ceiling) :=
  fun _ h => nomatch h
theorem Opcode.slopeWindow (cluster ready : Nat) : Opcode.Statement (.slopeWindow cluster ready) :=
  fun _ h => nomatch h
theorem Opcode.hbmTempReading (temps : List Int) : Opcode.Statement (.hbmTempReading temps) :=
  fun _ h => nomatch h
theorem Opcode.matrixOpStart (bent seq : Nat) : Opcode.Statement (.matrixOpStart bent seq) :=
  fun _ h => nomatch h
theorem Opcode.matrixOpComplete (bent seq : Nat) : Opcode.Statement (.matrixOpComplete bent seq) :=
  fun _ h => nomatch h
theorem Opcode.sweepGroup (sid op : Nat) : Opcode.Statement (.sweepGroup sid op) :=
  fun _ h => nomatch h
theorem Opcode.setSlopeStep (cluster step : Nat) : Opcode.Statement (.setSlopeStep cluster step) :=
  fun _ h => nomatch h
theorem Opcode.setPowerLimits (package : Nat) (functions : List Nat) : Opcode.Statement (.setPowerLimits package functions) :=
  fun _ h => nomatch h
theorem Opcode.setAccountingInterval (ns : Nat) : Opcode.Statement (.setAccountingInterval ns) :=
  fun _ h => nomatch h
theorem Opcode.setFramingPriority (priority : Nat) : Opcode.Statement (.setFramingPriority priority) :=
  fun _ h => nomatch h
theorem Opcode.setShares (vf fabric : Nat) (hbm : List Nat) : Opcode.Statement (.setShares vf fabric hbm) :=
  fun _ h => nomatch h
theorem Opcode.pldmFirmwareStage (image : BootImage) : Opcode.Statement (.pldmFirmwareStage image) :=
  fun _ h => nomatch h
theorem Opcode.spdmAttestation (vf : Nat) (nonce : BitVec 512) : Opcode.Statement (.spdmAttestation vf nonce) :=
  fun _ h => nomatch h
theorem Opcode.errorCountRead (unit : Nat) : Opcode.Statement (.errorCountRead unit) :=
  fun _ h => nomatch h
theorem Opcode.registerWrite (reg : RegName) (value : BitVec 64) : Opcode.Statement (.registerWrite reg value) :=
  fun _ h => nomatch h
theorem Opcode.applicationCoreAccess (a : HostAccess) : Opcode.Statement (.applicationCoreAccess a) :=
  fun _ h => nomatch h
theorem Opcode.frameReclaim (frame : Nat) : Opcode.Statement (.frameReclaim frame) :=
  fun _ h => nomatch h
theorem Opcode.scheduledRaisingPublish (yardPort : Nat) (e : BitVec 256) : Opcode.Statement (.scheduledRaisingPublish yardPort e) :=
  fun _ h => nomatch h

end Sys2Proof.Laws
end

