-- ==== Sys2Proof/Laws/Shake.lean ====
section
/-!
SUPPORT. The length of a SHAKE256 output.
-/
namespace Sys2Proof.Machine

@[simp] theorem shake256_length (data : List Byte) (length : Nat) : (shake256 data length).length = length := by
  simp [shake256]

end Sys2Proof.Machine
end

