-- ==== Sys2Proof/Laws/Stores.lean ====
section
/-!
SUPPORT. What the operations that store bytes do to package HBM, said once: which of their parts leave it alone, what a
store at L2 leaves there, that every operation over a byte store keeps the canonical form, and that the stores of
State.reset have it.
-/
namespace Sys2Proof.Machine

@[simp] theorem Pkg.ownWord_mem (p : Pkg) (who : Option Nat) (w : Nat) : (p.ownWord who w).mem = p.mem := by
  unfold Pkg.ownWord
  rcases who with _ | c <;> simp only <;> split <;> (try split) <;> rfl

@[simp] theorem Pkg.dropAlias_mem (p : Pkg) (pa n : Nat) : (p.dropAlias pa n).mem = p.mem := rfl

@[simp] theorem Pkg.testSeq_mem (p : Pkg) (pa n : Nat) : (p.testSeq pa n).mem = p.mem := rfl

/-- A sequence of operations that leave HBM alone leaves it alone. -/
theorem Pkg.foldl_mem {α : Type} (f : Pkg → α → Pkg) (h : ∀ p x, (f p x).mem = p.mem) (l : List α) :
    ∀ p : Pkg, (l.foldl f p).mem = p.mem := by
  induction l with
  | nil => intro p; rfl
  | cons x l ih => intro p; exact (ih (f p x)).trans (h p x)

/-- A sequence of operations that keep the canonical form of HBM keeps it. -/
theorem Pkg.foldl_wf {α : Type} (f : Pkg → α → Pkg) (h : ∀ p x, p.mem.wf = true → (f p x).mem.wf = true) (l : List α) :
    ∀ p : Pkg, p.mem.wf = true → (l.foldl f p).mem.wf = true := by
  induction l with
  | nil => intro p hp; exact hp
  | cons x l ih => intro p hp; exact ih (f p x) (h p x hp)

@[simp] theorem Pkg.fillAlias_mem (p : Pkg) (next : Bool) (line : Nat) : (p.fillAlias next line).mem = p.mem := by
  unfold Pkg.fillAlias
  repeat' split
  all_goals rfl

@[simp] theorem Pkg.readL2_mem (p : Pkg) (pa n : Nat) (next : Bool) : (p.readL2 pa n next).1.mem = p.mem := by
  unfold Pkg.readL2
  split
  · exact Pkg.foldl_mem _ (fun p e => Pkg.fillAlias_mem p next _) _ p
  · rfl

@[simp] theorem Pkg.refreshL1_mem (p : Pkg) (who : Option Nat) (w : Nat) : (p.refreshL1 who w).mem = p.mem := by
  cases who <;> rfl

@[simp] theorem Pkg.register_mem (p : Pkg) (who : Option Nat) (pa n : Nat) : (p.register who pa n).mem = p.mem :=
  Pkg.foldl_mem _ (fun p w => by simp) _ p

@[simp] theorem Pkg.writeAlias_mem (p : Pkg) (pa : Nat) (data : List Byte) (next : Bool) : (p.writeAlias pa data next).mem = p.mem :=
  Pkg.fillAlias_mem p next _

@[simp] theorem Pkg.writeHbm_mem (p : Pkg) (pa : Nat) (data : List Byte) :
    (p.writeHbm pa data).mem = p.mem.writeBytes pa data := by
  simp only [Pkg.writeHbm]
  rw [Pkg.foldl_mem _ (fun p w => Pkg.ownWord_mem p none w)]

/-- Ownership of words says nothing of what a race with a write-back leaves (R97). -/
theorem Pkg.ownWord_blockBytes (p : Pkg) (who : Option Nat) (w pa n : Nat) :
    ((p.ownWord who w).blockBytes pa n).mem = (p.blockBytes pa n).mem := by
  have kept : (p.ownWord who w).codeBefore = p.codeBefore ∧ (p.ownWord who w).fresh = p.fresh ∧ (p.ownWord who w).mem = p.mem := by
    unfold Pkg.ownWord
    rcases who with _ | c <;> simp only <;> split <;> (try split) <;> exact ⟨rfl, rfl, rfl⟩
  simp only [Pkg.blockBytes, kept.1, kept.2.1, kept.2.2]
  split <;> simp

theorem Pkg.ownWords_blockBytes (who : Option Nat) (pa n : Nat) (l : List Nat) :
    ∀ p : Pkg, ((l.foldl (fun p w => p.ownWord who w) p).blockBytes pa n).mem = (p.blockBytes pa n).mem := by
  induction l with
  | nil => intro p; rfl
  | cons w l ih => intro p; exact (ih _).trans (Pkg.ownWord_blockBytes p who w pa n)

/-- No write-back has gone before a store, so there is no race (R97). -/
@[simp] theorem Pkg.blockBytes_clear (p : Pkg) (pa n : Nat) (h : p.codeBefore = []) : p.blockBytes pa n = p := by
  simp [Pkg.blockBytes, h]

/-- What a store at L2 leaves in HBM: its bytes outside the codebook windows, nothing new inside them. -/
theorem Pkg.writeL2_mem (p : Pkg) (who : Option Nat) (pa : Nat) (data : List Byte) (next : Bool) :
    (p.writeL2 who pa data next).mem =
      if isAliasPa pa then p.mem else (p.blockBytes pa data.length).mem.writeBytes pa data := by
  have own : ((wordsOf pa data.length).foldl (fun p w => p.ownWord who w) p).mem = p.mem :=
    Pkg.foldl_mem _ (fun p w => Pkg.ownWord_mem p who w) _ p
  unfold Pkg.writeL2
  rw [Pkg.foldl_mem _ (fun p w => Pkg.refreshL1_mem p who w)]
  split
  · simp only [Pkg.testSeq_mem]
    rw [Pkg.foldl_mem _ (fun p e => Pkg.writeAlias_mem p _ _ _)]
    exact own
  · simp only [Pkg.testSeq_mem, Pkg.dropAlias_mem, Pkg.ownWords_blockBytes]

/-! ### The canonical form -/

/-- A part of a store in canonical form is in canonical form. -/
theorem Mem.wfFrom_filter (f : Host.Cell → Bool) : ∀ (m : Mem) (lo : Nat), Mem.wfFrom lo m = true →
    Mem.wfFrom lo (m.filter f) = true
  | [], _, _ => rfl
  | (k, b) :: m, lo, w => by
    simp only [Mem.wfFrom, Bool.and_eq_true, decide_eq_true_eq] at w
    have rest := Mem.wfFrom_filter f m (k + 1) w.2
    rw [List.filter_cons]
    split
    · simp only [Mem.wfFrom, Bool.and_eq_true, decide_eq_true_eq]
      exact ⟨w.1, rest⟩
    · exact Mem.wfFrom_mono (by omega) _ rest

/-- Copying and clearing a range keeps the canonical form. -/
theorem Pkg.snapshotBytes_wf (m : Mem) (src dst n : Nat) (h : m.wf = true) : (Pkg.snapshotBytes m src dst n).wf = true := by
  have copy : ∀ (l : List Host.Cell) (m : Mem), m.wf = true →
      (l.foldl (fun (m : Mem) c => m.write (dst + (c.1 - src)) c.2) m).wf = true := by
    intro l
    induction l with
    | nil => intro m h; exact h
    | cons c l ih => intro m h; exact ih _ (Mem.wf_write m _ _ h)
  exact copy _ _ (Mem.wfFrom_filter _ m 0 h)

/-- Bytes stored one after the other keep the canonical form. -/
theorem Mem.wf_foldl {α : Type} (f : Mem → α → Mem) (h : ∀ m x, m.wf = true → (f m x).wf = true) (l : List α) :
    ∀ m : Mem, m.wf = true → (l.foldl f m).wf = true := by
  induction l with
  | nil => intro m hm; exact hm
  | cons x l ih => intro m hm; exact ih _ (h m x hm)

theorem Pkg.blockBytes_wf (p : Pkg) (pa n : Nat) (h : p.mem.wf = true) : (p.blockBytes pa n).mem.wf = true := by
  simp only [Pkg.blockBytes]
  split
  · exact h
  · exact Mem.wf_foldl _ (fun m x hm => by split; exact Mem.wf_writeBytes _ _ _ hm; exact hm) _ _ h

/-- A store at L2 keeps the canonical form. -/
theorem Pkg.writeL2_wf (p : Pkg) (who : Option Nat) (pa : Nat) (data : List Byte) (next : Bool) (h : p.mem.wf = true) :
    (p.writeL2 who pa data next).mem.wf = true := by
  rw [Pkg.writeL2_mem]
  split
  · exact h
  · exact Mem.wf_writeBytes _ _ _ (Pkg.blockBytes_wf p pa _ h)

@[simp] theorem Pkg.disownLine_mem (p : Pkg) (line : Nat) : (p.disownLine line).mem = p.mem :=
  Pkg.foldl_mem _ (fun p _ => Pkg.ownWord_mem p none _) _ p

/-- Writing back an alias line keeps the canonical form. -/
theorem Pkg.evictAlias_wf (p : Pkg) (line : Nat) (h : p.mem.wf = true) : (p.evictAlias line).mem.wf = true := by
  unfold Pkg.evictAlias
  split
  · exact h
  · rename_i l _
    dsimp only
    generalize p.aliasLines.erase line = al
    split
    · split
      · rw [Pkg.disownLine_mem]
        exact Pkg.foldl_wf _ (fun p x hp => by rw [Pkg.writeHbm_mem]; exact Mem.wf_writeBytes _ _ _ hp) _ _ h
      · exact h
    · exact h

/-- The replacements of a step keep the canonical form. -/
theorem Pkg.evictSome_wf (p : Pkg) (h : p.mem.wf = true) : p.evictSome.mem.wf = true :=
  Pkg.foldl_wf _ Pkg.evictAlias_wf _ _ h

theorem Pkg.replaceL2_wf (p : Pkg) (h : p.mem.wf = true) : p.replaceL2.mem.wf = true :=
  Pkg.foldl_wf _ Pkg.evictAlias_wf _ _ h

@[simp] theorem Pkg.replaceL1_mem (p : Pkg) : p.replaceL1.mem = p.mem := rfl
@[simp] theorem Pkg.dropL1_mem (p : Pkg) : p.dropL1.mem = p.mem := rfl

/-- What the caches do at the end of a step keeps the canonical form. -/
theorem State.fitCaches_wf (s : State) (h : s.pkg.mem.wf = true) : s.fitCaches.pkg.mem.wf = true :=
  Pkg.replaceL2_wf _ h

/-- HBM and host-die memory are in canonical form at reset. -/
theorem State.reset_wf : State.reset.pkg.mem.wf = true ∧ State.reset.pkg.hostMem.wf = true := ⟨rfl, rfl⟩

end Sys2Proof.Machine
end

