-- ==== Sys2Proof/Laws/Translate.lean ====
section
/-!
SUPPORT. What a translation does with and without a cached entry.
-/
namespace Sys2Proof.Machine

/-- Putting translations in their places changes the TLBs alone. -/
theorem putTlbs_frame (vpn : Nat) (t : TlbEntry) (hs : List TlbHome) :
    ∀ p : Pkg, p.putTlbs vpn t hs = { p with tlb := (p.putTlbs vpn t hs).tlb } := by
  induction hs with
  | nil => intro p; rfl
  | cons h hs ih => intro p; exact ih (p.putTlb (t.heldAt vpn h))

theorem translateIn_miss {p : Pkg} {port : TlbHome} {cid va : Nat} {e : Bool} {n : Need} {c : Ctx}
    (hc : p.ctxs.get? cid = some c) (h : p.cached port cid c.vf (va / 65536) = none) :
    p.translateIn port cid e va n = p.walk port cid e va n := by
  simp only [Pkg.translateIn]
  generalize Pkg.walk p port cid e va n = w
  generalize p.ctxs.get? cid = q at *
  subst hc
  simp only [h]

theorem useCached_read {p : Pkg} {port : TlbHome} {cid leaf va vpn : Nat} {e : Bool} {n : Need} {c : Ctx} {t : TlbEntry} {l : Loc}
    (hl : p.useLeaf cid c.vf va leaf n = .ok l) (hw : n.write = false) :
    p.useCached port cid c t leaf e va vpn n =
      (p.putTlbs vpn t ((port.levels c.vf).takeWhile fun h => h != t.home), .ok l) := by
  simp [Pkg.useCached, hl, hw]

theorem translateIn_cached {p : Pkg} {port : TlbHome} {cid va : Nat} {e : Bool} {n : Need} {c : Ctx} {t : TlbEntry}
    (hc : p.ctxs.get? cid = some c) (h : p.cached port cid c.vf (va / 65536) = some t) :
    p.translateIn port cid e va n = p.useCached port cid c t (t.leafAt (va / 65536)) e va (va / 65536) n := by
  simp only [Pkg.translateIn]
  generalize Pkg.walk p port cid e va n = w
  generalize hv : va / 65536 = vpn at *
  generalize p.ctxs.get? cid = q at *
  subst hc
  simp only [h]

theorem translateIn_hit {p : Pkg} {port : TlbHome} {cid va : Nat} {e : Bool} {n : Need} {c : Ctx} {t : TlbEntry} {l : Loc}
    (hc : p.ctxs.get? cid = some c) (h : p.cached port cid c.vf (va / 65536) = some t)
    (hl : p.useLeaf cid c.vf va (t.leafAt (va / 65536)) n = .ok l) (hw : n.write = false) :
    p.translateIn port cid e va n =
      (p.putTlbs (va / 65536) t ((port.levels c.vf).takeWhile fun h => h != t.home), .ok l) :=
  (translateIn_cached hc h).trans (useCached_read hl hw)

end Sys2Proof.Machine
end

