-- ==== Sys2Proof/Tests/Slice0.lean ====
section
/-!
SUPPORT. The model's own tests: ill-formed terms are refused, words written out from the spec's encodings decode to the
instructions they stand for, and single steps on small states give what the spec's tables and worked examples say.
-/
set_option Elab.async false
namespace Sys2Proof.Tests

open Sys2Proof Sys2Proof.Machine

/-! ### Ill-formed terms -/

theorem test_wf_words : Instr.wf (.trap 0 119 64 false false false) = false ∧ Instr.wf (.swrite 0 0 33 false false false) = false ∧
    Instr.wf (.trap 0 119 63 false false false) = true ∧ Instr.wf (.swrite 0 0 32 false false false) = true := by decide +kernel

theorem test_wf_cores_and_strands :
    ([.clauseIssue 720, .agingCounterExpiry (64 * 16384), .yieldExpiry 9360, .strandEnd 9360, .memoryOpComplete 9360 1,
      .flagBOpComplete 9360 1, .triggerAdd 9360 1, .sweepGroup 9360 1, .waitdepResume 9360, .waitseqResume 9360,
      .lcwaitResume 9360, .pollqResume 9360, .presenceResume 9360, .ottEntryRetry 9360, .spawnQueueResume 9360,
      .actldParkEnd 9360, .dovetailReadResume 9360, .dvpubParkResume 9360] : List Instr).all (fun i => !i.wf) = true := by
  decide +kernel

theorem test_wf_clusters :
    ([.bentDispatch 0 144 [], .bentDispatch 0 0 [4], .bentDispatch 0 0 [1, 1], .clusterStart 144, .raisingRestore 144,
      .slopeWindow 144 0, .setSlopeStep 144 4] : List Instr).all (fun i => !i.wf) = true := by decide +kernel

theorem test_wf_contexts :
    ([.childAccept 64, .chainWatchPoll 64 0, .energyExhausted 64 0, .pageWalk 64 0 false, .pageWalk 0 (2 ^ 55) false,
      .elasticFaultResolve 64 0 none, .elasticFaultResolve 0 (2 ^ 39) none, .twinSwap 64 0, .twinSwap 0 128,
      .codebookRegionSet 4 0 0, .codebookRegionSet 0 64 0, .amiahRingPoll 64 0, .amiahRingPoll 0 80, .launchPacket 0 16,
      .ringWaitPacket 0 16, .ringWaitSatisfied 0 16, .ringWritePacket 0 16, .fencePacket 0 16, .fencePacketDone 0 16,
      .leasePacket 0 16, .leaseReplace 0 16, .padPacket 64 0] : List Instr).all (fun i => !i.wf) = true := by decide +kernel

theorem test_wf_commands :
    ([.create 0 0 64 0 0, .destroy 0 64, .gangSet 0 64, .chainWatch 0 64 0, .chainUnwatch 0 64 0, .killTree 0 64 0,
      .resumeStrand 0 0 9360, .killStrand 0 0 9360, .ringRestart 0 0 80, .twinSet 0 0 128 0, .dirtyOn 0 8 0, .dirtyOff 0 8,
      .dirtyRound 0 8 0, .stopVf 0 8, .startVf 0 8, .exportImage 0 8 0 0, .importImage 0 0 8 [], .devwinSet 0 8 0,
      .setShares 8 0 [], .spdmAttestation 8 0, .setFramingPriority 256, .frameReclaim 9437184] : List Instr).all
      (fun i => !i.wf) = true := by decide +kernel

theorem test_wf_fabric :
    let long : Packet := { header := 0, payload := List.replicate 4097 0 }
    ([.write long, .reduce long, .read long, .atomic long, .cas long, .readResponse long, .atomicResponse long,
      .landingAck long, .nackRetry long, .nackStale long, .nackFail long, .managementMessage long, .ptpEvent 48 0 ⟨0, []⟩,
      .fabricLinkTrain 48 0, .fabricLinkTrain 0 512, .linkDown 48, .planeRetrain 48, .framerAnnounce 256 0,
      .framerTakeover 512, .raisingRepublishRequest 512, .scheduledRaisingPublish 512 0, .raisingHalt 256,
      .outOfTurnHalt 256, .outOfTurnResume 256, .drainWindowEnd 8, .faultHoldPerform 8] : List Instr).all
      (fun i => !i.wf) = true := by decide +kernel

/-! ### Words

Bits [31:24] are the opcode, [23:17] d = 5, [16:10] a = 18, [9:3] b = 11, [2:0] the reuse hints 1, 0, 1 (R162). -/

/-- Row 0x00 of the opcode map. -/
theorem test_decode_row_0 :
    decodeTableWord 32 0x000A485D = some (.add 5 18 11 true false true) ∧
    decodeTableWord 32 0x010A485D = some (.sub 5 18 11 true false true) ∧
    decodeTableWord 32 0x020A485D = some (.mul 5 18 11 true false true) ∧
    decodeTableWord 32 0x030A485D = some (.mulhiS 5 18 11 true false true) ∧
    decodeTableWord 32 0x040A485D = some (.mulhiN 5 18 11 true false true) ∧
    decodeTableWord 32 0x050A485D = some (.mad 5 18 11 true false true) ∧
    decodeTableWord 32 0x060A485D = some (.addc 5 18 11 true false true) ∧
    decodeTableWord 32 0x070A485D = some (.subb 5 18 11 true false true) ∧
    decodeTableWord 32 0x080A485D = some (.minS 5 18 11 true false true) ∧
    decodeTableWord 32 0x090A485D = some (.minN 5 18 11 true false true) ∧
    decodeTableWord 32 0x0A0A485D = some (.maxS 5 18 11 true false true) ∧
    decodeTableWord 32 0x0B0A485D = some (.maxN 5 18 11 true false true) ∧
    decodeTableWord 32 0x0C0A485D = some (.abs 5 18 11 true false true) ∧
    decodeTableWord 32 0x0D0A485D = some (.neg 5 18 11 true false true) ∧
    decodeTableWord 32 0x0E0A485D = some (.and 5 18 11 true false true) ∧
    decodeTableWord 32 0x0F0A485D = some (.or 5 18 11 true false true) := by decide +kernel

/-- Row 0x10 of the opcode map. -/
theorem test_decode_row_1 :
    decodeTableWord 32 0x100A485D = some (.xor 5 18 11 true false true) ∧
    decodeTableWord 32 0x110A485D = some (.andn 5 18 11 true false true) ∧
    decodeTableWord 32 0x120A485D = some (.not 5 18 11 true false true) ∧
    decodeTableWord 32 0x130A485D = some (.shl 5 18 11 true false true) ∧
    decodeTableWord 32 0x140A485D = some (.shr 5 18 11 true false true) ∧
    decodeTableWord 32 0x150A485D = some (.sar 5 18 11 true false true) ∧
    decodeTableWord 32 0x160A485D = some (.rol 5 18 11 true false true) ∧
    decodeTableWord 32 0x170A485D = some (.bfxS 5 18 11 true false true) ∧
    decodeTableWord 32 0x180A485D = some (.bfxN 5 18 11 true false true) ∧
    decodeTableWord 32 0x190A485D = some (.bfi 5 18 11 true false true) ∧
    decodeTableWord 32 0x1A0A485D = some (.popc 5 18 11 true false true) ∧
    decodeTableWord 32 0x1B0A485D = some (.clz 5 18 11 true false true) ∧
    decodeTableWord 32 0x1C0A485D = some (.ctz 5 18 11 true false true) ∧
    decodeTableWord 32 0x1D0A485D = some (.brev 5 18 11 true false true) ∧
    decodeTableWord 32 0x1E0A485D = some (.permb 5 18 11 true false true) ∧
    decodeTableWord 32 0x1F0A485D = some (.sel 5 18 11 true false true) := by decide +kernel

/-- Row 0x20 of the opcode map. -/
theorem test_decode_row_2 :
    decodeTableWord 32 0x200A485D = some (.mov 5 18 11 true false true) ∧
    decodeTableWord 32 0x210A485D = some (.cmpEq 5 18 11 true false true) ∧
    decodeTableWord 32 0x220A485D = some (.cmpNe 5 18 11 true false true) ∧
    decodeTableWord 32 0x230A485D = some (.cmpLtS 5 18 11 true false true) ∧
    decodeTableWord 32 0x240A485D = some (.cmpLeS 5 18 11 true false true) ∧
    decodeTableWord 32 0x250A485D = some (.cmpLtN 5 18 11 true false true) ∧
    decodeTableWord 32 0x260A485D = some (.cmpLeN 5 18 11 true false true) ∧
    decodeTableWord 32 0x270A485D = some (.addw 5 18 11 true false true) ∧
    decodeTableWord 32 0x280A485D = some (.subw 5 18 11 true false true) ∧
    decodeTableWord 32 0x290A485D = some (.mulwS 5 18 11 true false true) ∧
    decodeTableWord 32 0x2A0A485D = some (.mulwN 5 18 11 true false true) ∧
    decodeTableWord 32 0x2B0A485D = some (.madwN 5 18 11 true false true) := by decide +kernel

/-- Row 0x30 of the opcode map. -/
theorem test_decode_row_3 :
    decodeTableWord 32 0x300A485D = some (.fadd 5 18 11 true false true) ∧
    decodeTableWord 32 0x310A485D = some (.fsub 5 18 11 true false true) ∧
    decodeTableWord 32 0x320A485D = some (.fmul 5 18 11 true false true) ∧
    decodeTableWord 32 0x330A485D = some (.ffma 5 18 11 true false true) ∧
    decodeTableWord 32 0x340A485D = some (.fmin 5 18 11 true false true) ∧
    decodeTableWord 32 0x350A485D = some (.fmax 5 18 11 true false true) ∧
    decodeTableWord 32 0x360A485D = some (.fcmpEq 5 18 11 true false true) ∧
    decodeTableWord 32 0x370A485D = some (.fcmpLt 5 18 11 true false true) ∧
    decodeTableWord 32 0x380A485D = some (.fcmpLe 5 18 11 true false true) ∧
    decodeTableWord 32 0x390A485D = some (.fcmpUo 5 18 11 true false true) ∧
    decodeTableWord 32 0x3A0A485D = some (.frnd 5 18 11 true false true) ∧
    decodeTableWord 32 0x3B0A485D = some (.ffrc 5 18 11 true false true) ∧
    decodeTableWord 32 0x3C0A485D = some (.fclass 5 18 11 true false true) ∧
    decodeTableWord 32 0x3D0A485D = some (.fldexp 5 18 11 true false true) ∧
    decodeTableWord 32 0x3E0A485D = some (.cvti 5 18 11 true false true) ∧
    decodeTableWord 32 0x3F0A485D = some (.cvtf 5 18 11 true false true) := by decide +kernel

/-- Row 0x40 of the opcode map. -/
theorem test_decode_row_4 :
    decodeTableWord 32 0x400A485D = some (.cvth 5 18 11 true false true) ∧
    decodeTableWord 32 0x410A485D = some (.cvtw 5 18 11 true false true) ∧
    decodeTableWord 32 0x420A485D = some (.hadd2 5 18 11 true false true) ∧
    decodeTableWord 32 0x430A485D = some (.hmul2 5 18 11 true false true) ∧
    decodeTableWord 32 0x440A485D = some (.hfma2 5 18 11 true false true) ∧
    decodeTableWord 32 0x450A485D = some (.hmin2 5 18 11 true false true) ∧
    decodeTableWord 32 0x460A485D = some (.hmax2 5 18 11 true false true) ∧
    decodeTableWord 32 0x470A485D = some (.dadd 5 18 11 true false true) ∧
    decodeTableWord 32 0x480A485D = some (.dmul 5 18 11 true false true) ∧
    decodeTableWord 32 0x490A485D = some (.dfma 5 18 11 true false true) ∧
    decodeTableWord 32 0x4A0A485D = some (.dmin 5 18 11 true false true) ∧
    decodeTableWord 32 0x4B0A485D = some (.dmax 5 18 11 true false true) ∧
    decodeTableWord 32 0x4C0A485D = some (.dcmpEq 5 18 11 true false true) ∧
    decodeTableWord 32 0x4D0A485D = some (.dcmpLt 5 18 11 true false true) ∧
    decodeTableWord 32 0x4E0A485D = some (.dcvt 5 18 11 true false true) ∧
    decodeTableWord 32 0x4F0A485D = some (.drnd 5 18 11 true false true) := by decide +kernel

/-- Row 0x50 of the opcode map. -/
theorem test_decode_row_5 :
    decodeTableWord 32 0x500A485D = some (.frcp 5 18 11 true false true) ∧
    decodeTableWord 32 0x510A485D = some (.frsq 5 18 11 true false true) ∧
    decodeTableWord 32 0x520A485D = some (.fsqrt 5 18 11 true false true) ∧
    decodeTableWord 32 0x530A485D = some (.fexp2 5 18 11 true false true) ∧
    decodeTableWord 32 0x540A485D = some (.flog2 5 18 11 true false true) ∧
    decodeTableWord 32 0x550A485D = some (.fsin 5 18 11 true false true) ∧
    decodeTableWord 32 0x560A485D = some (.fcos 5 18 11 true false true) ∧
    decodeTableWord 32 0x570A485D = some (.ftanh 5 18 11 true false true) ∧
    decodeTableWord 32 0x580A485D = some (.fdiv 5 18 11 true false true) ∧
    decodeTableWord 32 0x590A485D = some (.act 5 18 11 true false true) ∧
    decodeTableWord 32 0x5A0A485D = some (.actld 5 18 11 true false true) ∧
    decodeTableWord 32 0x5B0A485D = some (.drcp 5 18 11 true false true) ∧
    decodeTableWord 32 0x5C0A485D = some (.dsqrt 5 18 11 true false true) ∧
    decodeTableWord 32 0x5D0A485D = some (.ddiv 5 18 11 true false true) := by decide +kernel

/-- Row 0x60 of the opcode map. -/
theorem test_decode_row_6 :
    decodeTableWord 32 0x600A485D = some (.shfl 5 18 11 true false true) ∧
    decodeTableWord 32 0x610A485D = some (.shflup 5 18 11 true false true) ∧
    decodeTableWord 32 0x620A485D = some (.shfldn 5 18 11 true false true) ∧
    decodeTableWord 32 0x630A485D = some (.shflx 5 18 11 true false true) ∧
    decodeTableWord 32 0x640A485D = some (.vote 5 18 11 true false true) ∧
    decodeTableWord 32 0x650A485D = some (.vany 5 18 11 true false true) ∧
    decodeTableWord 32 0x660A485D = some (.vall 5 18 11 true false true) ∧
    decodeTableWord 32 0x670A485D = some (.redadd 5 18 11 true false true) ∧
    decodeTableWord 32 0x680A485D = some (.redfadd 5 18 11 true false true) ∧
    decodeTableWord 32 0x690A485D = some (.redmin 5 18 11 true false true) ∧
    decodeTableWord 32 0x6A0A485D = some (.redmax 5 18 11 true false true) ∧
    decodeTableWord 32 0x6B0A485D = some (.scanadd 5 18 11 true false true) ∧
    decodeTableWord 32 0x6C0A485D = some (.firstl 5 18 11 true false true) ∧
    decodeTableWord 32 0x6D0A485D = some (.dvdecl 5 18 11 true false true) ∧
    decodeTableWord 32 0x6E0A485D = some (.dvpub 5 18 11 true false true) ∧
    decodeTableWord 32 0x6F0A485D = some (.dvend 5 18 11 true false true) := by decide +kernel

/-- Row 0x70 of the opcode map. -/
theorem test_decode_row_7 :
    decodeTableWord 32 0x700A485D = some (.smld 5 18 11 true false true) ∧
    decodeTableWord 32 0x710A485D = some (.smst 5 18 11 true false true) ∧
    decodeTableWord 32 0x720A485D = some (.smmul 5 18 11 true false true) ∧
    decodeTableWord 32 0x730A485D = some (.smmult 5 18 11 true false true) ∧
    decodeTableWord 32 0x740A485D = some (.smtmul 5 18 11 true false true) ∧
    decodeTableWord 32 0x750A485D = some (.smadd 5 18 11 true false true) ∧
    decodeTableWord 32 0x760A485D = some (.smsub 5 18 11 true false true) ∧
    decodeTableWord 32 0x770A485D = some (.smscl 5 18 11 true false true) ∧
    decodeTableWord 32 0x780A485D = some (.smtrn 5 18 11 true false true) ∧
    decodeTableWord 32 0x790A485D = some (.smmv 5 18 11 true false true) ∧
    decodeTableWord 32 0x7A0A485D = some (.smchol 5 18 11 true false true) ∧
    decodeTableWord 32 0x7B0A485D = some (.smlu 5 18 11 true false true) ∧
    decodeTableWord 32 0x7C0A485D = some (.smsolv 5 18 11 true false true) ∧
    decodeTableWord 32 0x7D0A485D = some (.smdet 5 18 11 true false true) ∧
    decodeTableWord 32 0x7E0A485D = some (.smid 5 18 11 true false true) ∧
    decodeTableWord 32 0x7F0A485D = some (.smcopy 5 18 11 true false true) := by decide +kernel

/-- Row 0x80 of the opcode map. -/
theorem test_decode_row_8 :
    decodeTableWord 32 0x800A485D = some (.ldp 5 18 11 true false true) ∧
    decodeTableWord 32 0x810A485D = some (.stp 5 18 11 true false true) ∧
    decodeTableWord 32 0x820A485D = some (.ldk 5 18 11 true false true) ∧
    decodeTableWord 32 0x830A485D = some (.stk 5 18 11 true false true) ∧
    decodeTableWord 32 0x840A485D = some (.ldq 5 18 11 true false true) ∧
    decodeTableWord 32 0x850A485D = some (.stq 5 18 11 true false true) ∧
    decodeTableWord 32 0x860A485D = some (.ldd 5 18 11 true false true) ∧
    decodeTableWord 32 0x870A485D = some (.std 5 18 11 true false true) ∧
    decodeTableWord 32 0x880A485D = some (.ld 5 18 11 true false true) ∧
    decodeTableWord 32 0x890A485D = some (.st 5 18 11 true false true) ∧
    decodeTableWord 32 0x8A0A485D = some (.ldkt 5 18 11 true false true) ∧
    decodeTableWord 32 0x8B0A485D = some (.stkt 5 18 11 true false true) ∧
    decodeTableWord 32 0x8C0A485D = some (.pfm 5 18 11 true false true) ∧
    decodeTableWord 32 0x8D0A485D = some (.llock 5 18 11 true false true) ∧
    decodeTableWord 32 0x8E0A485D = some (.lunlk 5 18 11 true false true) ∧
    decodeTableWord 32 0x8F0A485D = some (.lqry 5 18 11 true false true) := by decide +kernel

/-- Row 0x90 of the opcode map. -/
theorem test_decode_row_9 :
    decodeTableWord 32 0x900A485D = some (.rld 5 18 11 true false true) ∧
    decodeTableWord 32 0x910A485D = some (.rst 5 18 11 true false true) := by decide +kernel

/-- Row 0xA0 of the opcode map. -/
theorem test_decode_row_A :
    decodeTableWord 32 0xA00A485D = some (.atom 5 18 11 true false true) ∧
    decodeTableWord 32 0xA10A485D = some (.atomk 5 18 11 true false true) ∧
    decodeTableWord 32 0xA20A485D = some (.atomq 5 18 11 true false true) ∧
    decodeTableWord 32 0xA30A485D = some (.acas 5 18 11 true false true) ∧
    decodeTableWord 32 0xA40A485D = some (.acas64 5 18 11 true false true) ∧
    decodeTableWord 32 0xA50A485D = some (.acas128 5 18 11 true false true) ∧
    decodeTableWord 32 0xA60A485D = some (.ratom 5 18 11 true false true) ∧
    decodeTableWord 32 0xA70A485D = some (.rcas 5 18 11 true false true) ∧
    decodeTableWord 32 0xA80A485D = some (.acq 5 18 11 true false true) ∧
    decodeTableWord 32 0xA90A485D = some (.rel 5 18 11 true false true) ∧
    decodeTableWord 32 0xAA0A485D = some (.fence 5 18 11 true false true) ∧
    decodeTableWord 32 0xAB0A485D = some (.tfence 5 18 11 true false true) ∧
    decodeTableWord 32 0xAC0A485D = some (.ifence 5 18 11 true false true) := by decide +kernel

/-- Row 0xB0 of the opcode map. -/
theorem test_decode_row_B :
    decodeTableWord 32 0xB00A485D = some (.shld 5 18 11 true false true) ∧
    decodeTableWord 32 0xB10A485D = some (.shst 5 18 11 true false true) ∧
    decodeTableWord 32 0xB20A485D = some (.shset 5 18 11 true false true) ∧
    decodeTableWord 32 0xB30A485D = some (.shget 5 18 11 true false true) ∧
    decodeTableWord 32 0xB40A485D = some (.shidx 5 18 11 true false true) ∧
    decodeTableWord 32 0xB50A485D = some (.swadd 5 18 11 true false true) ∧
    decodeTableWord 32 0xB60A485D = some (.swmul 5 18 11 true false true) ∧
    decodeTableWord 32 0xB70A485D = some (.swfma 5 18 11 true false true) ∧
    decodeTableWord 32 0xB80A485D = some (.swmax 5 18 11 true false true) ∧
    decodeTableWord 32 0xB90A485D = some (.swcvt 5 18 11 true false true) ∧
    decodeTableWord 32 0xBA0A485D = some (.swact 5 18 11 true false true) ∧
    decodeTableWord 32 0xBB0A485D = some (.swcpy 5 18 11 true false true) ∧
    decodeTableWord 32 0xBC0A485D = some (.swred 5 18 11 true false true) ∧
    decodeTableWord 32 0xBD0A485D = some (.swtrn 5 18 11 true false true) := by decide +kernel

/-- Row 0xC0 of the opcode map. -/
theorem test_decode_row_C :
    decodeTableWord 32 0xC00A485D = some (.cpq 5 18 11 true false true) ∧
    decodeTableWord 32 0xC10A485D = some (.xfq 5 18 11 true false true) ∧
    decodeTableWord 32 0xC20A485D = some (.waitseq 5 18 11 true false true) ∧
    decodeTableWord 32 0xC30A485D = some (.pollq 5 18 11 true false true) ∧
    decodeTableWord 32 0xC40A485D = some (.xsend 5 18 11 true false true) ∧
    decodeTableWord 32 0xC50A485D = some (.xputv 5 18 11 true false true) ∧
    decodeTableWord 32 0xC60A485D = some (.xredv 5 18 11 true false true) ∧
    decodeTableWord 32 0xC70A485D = some (.lcset 5 18 11 true false true) ∧
    decodeTableWord 32 0xC80A485D = some (.lcwait 5 18 11 true false true) ∧
    decodeTableWord 32 0xC90A485D = some (.lcrd 5 18 11 true false true) ∧
    decodeTableWord 32 0xCA0A485D = some (.publ 5 18 11 true false true) ∧
    decodeTableWord 32 0xCB0A485D = some (.spawn 5 18 11 true false true) ∧
    decodeTableWord 32 0xCC0A485D = some (.scarf 5 18 11 true false true) ∧
    decodeTableWord 32 0xCD0A485D = some (.trig 5 18 11 true false true) ∧
    decodeTableWord 32 0xCE0A485D = some (.waitdep 5 18 11 true false true) := by decide +kernel

/-- Row 0xD0 of the opcode map. -/
theorem test_decode_row_D :
    decodeTableWord 32 0xD00A485D = some (.bra 5 18 11 true false true) ∧
    decodeTableWord 32 0xD10A485D = some (.brz 5 18 11 true false true) ∧
    decodeTableWord 32 0xD20A485D = some (.brnz 5 18 11 true false true) ∧
    decodeTableWord 32 0xD30A485D = some (.brnone 5 18 11 true false true) ∧
    decodeTableWord 32 0xD40A485D = some (.call 5 18 11 true false true) ∧
    decodeTableWord 32 0xD50A485D = some (.ret 5 18 11 true false true) ∧
    decodeTableWord 32 0xD60A485D = some (.exit 5 18 11 true false true) ∧
    decodeTableWord 32 0xD70A485D = some (.bar 5 18 11 true false true) ∧
    decodeTableWord 32 0xD80A485D = some (.barq 5 18 11 true false true) ∧
    decodeTableWord 32 0xD90A485D = some (.setm 5 18 11 true false true) ∧
    decodeTableWord 32 0xDA0A485D = some (.getm 5 18 11 true false true) ∧
    decodeTableWord 32 0xDB0A485D = some (.trap 5 18 11 true false true) ∧
    decodeTableWord 32 0xDC0A485D = some (.rte 5 18 11 true false true) ∧
    decodeTableWord 32 0xDD0A485D = some (.sread 5 18 11 true false true) ∧
    decodeTableWord 32 0xDE0A485D = some (.swrite 5 18 11 true false true) ∧
    decodeTableWord 32 0xDF0A485D = some (.nop 5 18 11 true false true) := by decide +kernel

/-- Row 0xE0 of the opcode map. -/
theorem test_decode_row_E :
    decodeTableWord 32 0xE00A485D = some (.mma 5 18 11 true false true) ∧
    decodeTableWord 32 0xE10A485D = some (.mmaz 5 18 11 true false true) ∧
    decodeTableWord 32 0xE20A485D = some (.mmac 5 18 11 true false true) ∧
    decodeTableWord 32 0xE30A485D = some (.accz 5 18 11 true false true) ∧
    decodeTableWord 32 0xE40A485D = some (.accld 5 18 11 true false true) ∧
    decodeTableWord 32 0xE50A485D = some (.accst 5 18 11 true false true) ∧
    decodeTableWord 32 0xE60A485D = some (.accrd 5 18 11 true false true) ∧
    decodeTableWord 32 0xE70A485D = some (.accwr 5 18 11 true false true) ∧
    decodeTableWord 32 0xE80A485D = some (.accwait 5 18 11 true false true) ∧
    decodeTableWord 32 0xE90A485D = some (.mstat 5 18 11 true false true) := by decide +kernel

theorem test_decode_trap_park : decodeTableWord 32 0xDB01DE00 = some (.trapPark 0 119 false false false) := by decide +kernel
theorem test_decode_invalidate : decodeTableWord 32 0xDE000108 = some (.swriteInvalidateStart 0 0 false false false) := by
  decide +kernel
/-- Encodings that the spec's chapters work out: ADDW, BRNZ, DVDECL, MULW.N, MADW.N, MMAZ, CPQ, WAITSEQ, XSEND, SWADD. -/
theorem test_decode_worked :
    decodeTableWord 32 0x27000380 = some (.addw 0 0 112 false false false) ∧
    decodeTableWord 32 0xD2019390 = some (.brnz 0 100 114 false false false) ∧
    decodeTableWord 32 0x6D0DDC80 = some (.dvdecl 6 119 16 false false false) ∧
    decodeTableWord 32 0x2A01DFB8 = some (.mulwN 0 119 119 false false false) ∧
    decodeTableWord 32 0x2B082380 = some (.madwN 4 8 112 false false false) ∧
    decodeTableWord 32 0xE1060008 = some (.mmaz 3 0 1 false false false) ∧
    decodeTableWord 32 0xE5040000 = some (.accst 2 0 0 false false false) ∧
    decodeTableWord 32 0xE6080C08 = some (.accrd 4 3 1 false false false) ∧
    decodeTableWord 32 0xC0280080 = some (.cpq 20 0 16 false false false) ∧
    decodeTableWord 32 0xC20048A0 = some (.waitseq 0 18 20 false false false) ∧
    decodeTableWord 32 0xC42C2000 = some (.xsend 22 8 0 false false false) ∧
    decodeTableWord 32 0xB5040008 = some (.swadd 2 0 1 false false false) := by decide +kernel
/-- The reserved opcodes and the markers are no instructions (R180). -/
theorem test_decode_reserved :
    [0x2C, 0x2F, 0x5E, 0x92, 0x9F, 0xAD, 0xBE, 0xCF, 0xEA, 0xEF, 0xF0, 0xF8, 0xFF].all
      (fun op => decodeTableWord 32 (op * 2 ^ 24) == none) = true := by decide +kernel
theorem test_header : decodeHeader 0xF0C007FC = some { count := 4, wait := 1, flagA := 15, flagB := 15, yielding := false, reserved := false } := by
  decide +kernel

/-! ### Single steps

A strand with lane 0 present alone, whose next instruction is the word; its registers hold what a test lists. -/

/-- The state before a test's step. -/
def before (op : Nat) (d a b : Field) (v : List (Nat × Word)) (f : Strand → Strand := id) : State :=
  let s := State.reset.withFetchWord 32 (op * 2 ^ 24 + d.toNat * 2 ^ 17 + a.toNat * 2 ^ 10 + b.toNat * 8)
  { s with
    pkg := s.pkg.updStrand (s.pkg.cur.getD 0) fun st =>
      f { st with present := 1, em := 1, v := v.map fun e => (e.1, [(0, e.2)]) } }

/-- A fact about the strand after one step. -/
def after (s : State) (f : Strand → Bool) : Bool :=
  match step s with
  | .next t => ((t.pkg.strand? (s.pkg.cur.getD 0)).map f).getD false
  | _ => false

/-- Lane 0 of register `d` after the word, from lane 0 of the registers a = v2, b = v4 and d = v6. -/
def gives32 (op : Nat) (x y z : Word) (r : Word) (cf : Word := 0) (f : Strand → Strand := id) : Bool :=
  after (before op 6 2 4 [(2, x), (4, y), (6, z)] f) fun st => st.reg 6 0 == r && st.cfAt 0 == cf

/-- The pairs v2:v3, v4:v5 and v6:v7. -/
def gives64 (op : Nat) (x y z r : DWord) (cf : Word := 0) : Bool :=
  let lo (v : DWord) : Word := v.setWidth 32
  let hi (v : DWord) : Word := v.extractLsb' 32 32
  after (before op 6 2 4 [(2, lo x), (3, hi x), (4, lo y), (5, hi y), (6, lo z), (7, hi z)]) fun st =>
    (st.reg 7 0 ++ st.reg 6 0) == r && st.cfAt 0 == cf

theorem test_add_wraps : gives32 0x00 0xFFFFFFFF 1 0 0 cfC = true := by decide +kernel
theorem test_sub_borrows : gives32 0x01 1 2 0 0xFFFFFFFF cfC = true := by decide +kernel
theorem test_mulhi_s : gives32 0x03 0xFFFFFFFF 2 0 0xFFFFFFFF = true := by decide +kernel
theorem test_mulhi_n : gives32 0x04 0xFFFFFFFF 2 0 1 = true := by decide +kernel
theorem test_mad_reads_d : gives32 0x05 3 4 5 17 = true := by decide +kernel
theorem test_min_s : gives32 0x08 0xFFFFFFFF 1 0 0xFFFFFFFF = true := by decide +kernel
theorem test_min_n : gives32 0x09 0xFFFFFFFF 1 0 1 = true := by decide +kernel
/-- R211: ABS of 0x80000000 returns it. -/
theorem test_abs : gives32 0x0C 0x80000000 0 0 0x80000000 = true := by decide +kernel
/-- R212's example: x = 0x80000001 and the amount 35. -/
theorem test_shifts_by_35 :
    gives32 0x13 0x80000001 35 0 0 = true ∧ gives32 0x14 0x80000001 35 0 0 = true ∧
    gives32 0x15 0x80000001 35 0 0xFFFFFFFF = true ∧ gives32 0x16 0x80000001 35 0 0x0000000C = true := by decide +kernel
/-- R213's examples. -/
theorem test_bit_fields :
    gives32 0x18 0x0000ABCD 0x0804 0 0xBC = true ∧ gives32 0x17 0x0000ABCD 0x0804 0 0xFFFFFFBC = true ∧
    gives32 0x19 0x5 0x0408 0xFFFFFFFF 0xFFFFF5FF = true := by decide +kernel
/-- R215's examples. -/
theorem test_permb :
    gives32 0x1E 0x11223344 0x3210 0xAABBCCDD 0x11223344 = true ∧ gives32 0x1E 0x11223344 0x4567 0xAABBCCDD 0xDDCCBBAA = true ∧
    gives32 0x1E 0x00008055 0x9990 0 0xFFFFFF55 = true := by decide +kernel
theorem test_sel : gives32 0x1F 0 7 9 9 = true ∧ gives32 0x1F 1 7 9 7 = true := by decide +kernel
theorem test_cmp_signs : gives32 0x23 0xFFFFFFFF 0 0 1 = true ∧ gives32 0x25 0xFFFFFFFF 0 0 0 = true := by decide +kernel
theorem test_addw : gives64 0x27 0xFFFFFFFFFFFFFFFF 1 0 0 cfC = true := by decide +kernel
theorem test_mulw_s : gives64 0x29 0xFFFFFFFF 2 0 0xFFFFFFFFFFFFFFFE = true := by decide +kernel
theorem test_madw : gives64 0x2B 0xFFFFFFFF 0xFFFFFFFF 1 0xFFFFFFFE00000002 = true := by decide +kernel

/-- 1 + 1 = 2; -0 + +0 = +0; 1 / 3 is inexact (NX). -/
theorem test_fadd : gives32 0x30 0x3F800000 0x3F800000 0 0x40000000 = true ∧ gives32 0x30 0x80000000 0 0 0 = true := by
  decide +kernel
/-- R227: a NaN is ignored beside a number. -/
theorem test_fmin : gives32 0x34 0x7FC00000 0x3F800000 0 0x3F800000 = true ∧ gives32 0x34 0 0x80000000 0 0x80000000 = true := by
  decide +kernel
/-- R229: FFRC of -3.0 gives -0, of -2.75 gives -0.75. -/
theorem test_ffrc : gives32 0x3B 0xC0400000 0 0 0x80000000 = true ∧ gives32 0x3B 0xC0300000 0 0 0xBF400000 = true := by
  decide +kernel
/-- R231: CVTI #5 of a NaN gives 0 with NV, and of 3e9 the bound. -/
theorem test_cvti :
    after (before 0x3E 6 2 5 [(2, 0x7FC00000)]) (fun st => st.reg 6 0 == 0 && st.cfAt 0 == BitVec.ofNat 32 flNV) = true ∧
    after (before 0x3E 6 2 5 [(2, 0x4F32D05E)]) (fun st => st.reg 6 0 == 0x7FFFFFFF) = true := by decide +kernel
theorem test_dadd : gives64 0x47 0x3FF0000000000000 0x3FF0000000000000 0 0x4000000000000000 = true := by decide +kernel

/-- R199, R172: BRNZ of a nonzero word jumps to the header plus four times b. -/
theorem test_brnz :
    after (before 0xD2 0 2 4 [(2, 1), (4, 0xFFFFFFFE)]) (fun st => st.clause == 0xFF8) = true ∧
    after (before 0xD2 0 2 4 [(2, 0), (4, 2)]) (fun st => st.clause == 0x100C) = true := by decide +kernel
/-- R200: EXIT of the last lane ends the strand's execution. -/
theorem test_exit : after (before 0xD6 0 0 0 []) (fun st => st.finished && st.present == 0 && !st.executing) = true := by
  decide +kernel
/-- R203: 100 is no priority delta: Illegal Operand (R206: the cause, and the word's slot in [31:16]). -/
theorem test_setm_illegal :
    after (before 0xD9 0 2 8 [(2, 100)]) (fun st => st.handler && st.mode == modeReset && st.trapRecord.get 0 0 == 0x00010003) = true := by
  decide +kernel
theorem test_setm_round : after (before 0xD9 0 2 2 [(2, 3)]) (fun st => modeRound st.mode == 3) = true := by decide +kernel
/-- R204: TRAP #5 records cause 0x0C, 5 and Uniform(a). -/
theorem test_trap :
    after (before 0xDB 0 2 5 [(2, 7)]) (fun st =>
      st.trapRecord.get 0 0 == 0x0001000C && st.trapRecord.get 9 0 == 5 && st.trapRecord.get 10 0 == 7) = true := by
  decide +kernel
/-- R205: RTE #1 goes on after the faulting instruction, with the frame's mode and em. -/
theorem test_rte :
    after (before 0xDC 0 0 1 [] fun st =>
        { st with handler := true, frame := some { clause := 0x500, slot := 3, temps := [], mode := modeReset, em := 1 } })
      (fun st => st.clause == 0x500 && st.slot == 4 && !st.handler && st.frame == none) = true := by decide +kernel
/-- R181: RTE outside a handler is a Privilege trap (0x04). -/
theorem test_rte_privilege : after (before 0xDC 0 0 1 []) (fun st => st.trapRecord.get 0 0 == 0x00010004) = true := by
  decide +kernel
/-- R271: SHFL from an absent lane gives the reader its own value and sets OOR. -/
theorem test_shfl_oor : gives32 0x60 9 5 0 9 cfOOR = true := by decide +kernel
/-- R272: VOTE and FIRSTL of lane 0. -/
theorem test_vote :
    after (before 0x64 6 2 0 [(2, 1)]) (fun st => st.reg 6 0 == 1) = true ∧
    after (before 0x6C 6 2 0 [(2, 0)]) (fun st => st.reg 6 0 == 96) = true := by decide +kernel
/-- R300: SHSET of a field of sh1. -/
theorem test_shset : after (before 0xB2 1 2 3 [(2, 5)]) (fun st =>
    ldField (st.shape 1) (shField 3).1 (shField 3).2 == 4) = true := by decide +kernel
/-- R101: a misaligned LDK traps with cause 0x05, before anything is loaded. -/
theorem test_ldk_misaligned :
    after (before 0x82 6 2 64 [(2, 2)]) (fun st => st.trapRecord.get 0 0 == 0x00010005 && st.trapRecord.get 7 0 == 2) = true := by
  decide +kernel
/-- R251: the load of a stored byte, sign-extended, when its operation completes. -/
theorem test_load_completes :
    let s := before 0xDF 0 0 0 [] fun st =>
      { st with
        slice := [(3, 0x80)]
        ops := [{ id := 1, flag := 0, dests := [6], entry := false,
                  kind := .load 1 0 [{ lane := 0, reg := 6, loc := .lane 0 0 3, bytes := 1 }] }] }
    (match exec (.memoryOpComplete 0 1) s with
      | .next t => ((t.pkg.strand? 0).map fun st => st.reg 6 0 == 0xFFFFFF80 && st.ops.isEmpty).getD false
      | _ => false) = true := by decide +kernel
/-- R258: ADD and INCW. -/
theorem test_atomic_values : Pkg.atomicValue 0 32 0xFFFFFFFF 1 = 0 ∧ Pkg.atomicValue 11 32 5 5 = 0 ∧ Pkg.atomicValue 11 32 4 5 = 5 := by
  decide +kernel
/-- R180: a reserved opcode in a clause takes the Illegal Instruction trap. -/
theorem test_reserved_traps : after (before 0xAD 0 0 0 []) (fun st => st.trapRecord.get 0 0 == 0x00010001) = true := by
  decide +kernel

/-! ### A header flit's check -/

/-- The check value of CRC-32C: of the digits 1 to 9. -/
theorem test_crc : crc32c [0x31, 0x32, 0x33, 0x34, 0x35, 0x36, 0x37, 0x38, 0x39] = 0xE3069283 := by decide +kernel

/-! ### A raising-table entry -/

/-- The entry that the chapter on raisings works out, in 32-bit words from word 7 down. -/
theorem test_raising_entry :
    rtEntry 1000000000 3 17 42 0x3FFFF 0 9 =
      (0 : Word) ++ (0x0903FFFF : Word) ++ (0 : Word) ++ (0x2A000000 : Word) ++ (0xFFFFFFF2 : Word) ++ (0x3FFFFF08 : Word) ++
        (0 : Word) ++ (0x3B9ACA00 : Word) := by decide +kernel
theorem test_raising_fields :
    let e := rtEntry 1000 2 5 9 3 1 7
    rtTime e = 1000 ∧ rtFunctions e = [2] ∧ rtGeneration e 2 = 9 ∧ rtFootprint e = 3 ∧ rtKind e = 1 ∧ rtSequence e = 7 := by
  decide +kernel

end Sys2Proof.Tests
end

