-- ==== Sys2Proof/Tests/Witness.lean ====
section
/-!
SUPPORT. Witnesses: for every statement with hypotheses, a concrete state and operands that meet them together, clause by
clause. `s` is a small state, `x` what the word of the clause executes with in it.
-/
set_option Elab.async false
set_option maxRecDepth 20000
set_option exponentiation.threshold 600
namespace Sys2Proof.Tests

open Sys2Proof Sys2Proof.Machine

/-- What a word executes with, where its checks pass. -/
def exe? (s : State) (op : Nat) (d a b : Field) : Option Pkg.Exe :=
  match s.pkg.cur with
  | none => none
  | some sid =>
    match s.pkg.strand? sid with
    | none => none
    | some st =>
      match s.pkg.gate sid st op d.toNat a.toNat b.toNat with
      | .ok x => if x.sid = sid ∧ x.st = st then some x else none
      | .error _ => none

theorem exe?_admits {s : State} {op : Nat} {d a b : Field} {x : Pkg.Exe} (h : exe? s op d a b = some x) :
    s.Admits op d a b x := by
  unfold exe? at h
  split at h
  · cases h
  · next sid hc =>
    split at h
    · cases h
    · next st hs =>
      split at h
      · next y hg =>
        split at h
        · next hy =>
          cases h
          obtain ⟨rfl, rfl⟩ := hy
          exact ⟨⟨hc, hs⟩, hg⟩
        · cases h
      · cases h

/-- A word is admitted, and what it executes with passes a test. -/
def admitted (s : State) (op : Nat) (d a b : Field) (f : Pkg.Exe → Bool := fun _ => true) : Bool :=
  ((exe? s op d a b).map f).getD false

theorem admitted_ex {s : State} {op : Nat} {d a b : Field} {f : Pkg.Exe → Bool} (h : admitted s op d a b f = true) :
    ∃ x, s.Admits op d a b x ∧ f x = true := by
  unfold admitted at h
  cases e : exe? s op d a b with
  | none => simp [e] at h
  | some x => exact ⟨x, exe?_admits e, by simpa [e] using h⟩

/-- The checks of global accesses pass, and the package and the locations that they leave pass a test. -/
def globalRun (x : Pkg.Exe) (n : Nat) (need : Need) (ws : List Want) (f : Pkg → List Loc → Bool) : Bool :=
  ws.all (fun w => w.va % n == 0) &&
    match x.p.checkGlobal (.lane x.sid) (sidCtx x.sid) (x.p.leaseOf x.st) need ws with
    | (p, .ok ls) => f p ls
    | _ => false

theorem globalRun_ok {x : Pkg.Exe} {n : Nat} {need : Need} {ws : List Want} {f : Pkg → List Loc → Bool}
    (h : globalRun x n need ws f = true) : ∃ p ls, GlobalOk x n need ws p ls ∧ f p ls = true := by
  simp only [globalRun, Bool.and_eq_true, List.all_eq_true, beq_iff_eq] at h
  obtain ⟨ha, hc⟩ := h
  split at hc
  · next p ls e => exact ⟨p, ls, ⟨ha, e⟩, hc⟩
  · cases hc

/-- The accesses of a scratchpad form pass the checks of R101. -/
def scratchRun (x : Pkg.Exe) (space n : Nat) (map : Nat → Nat) : Bool :=
  let accs := (x.st.onLanes.map (scratchAcc x space n map)).filterMap id
  decide (x.st.onLanes.map (scratchAcc x space n map) = accs.map some) &&
    accs.all fun t => t.formed % n == 0 && decide (t.off + t.bytes ≤ t.size) && x.p.isPresentAt t.loc t.bytes

theorem scratchRun_ok {x : Pkg.Exe} {space n : Nat} {map : Nat → Nat} (h : scratchRun x space n map = true) :
    ∃ accs, ScratchOk x space n map accs := by
  simp only [scratchRun, Bool.and_eq_true, List.all_eq_true, beq_iff_eq, decide_eq_true_eq] at h
  exact ⟨_, h.1, fun t ht => (h.2 t ht).1.1, fun t ht => (h.2 t ht).1.2, fun t ht => (h.2 t ht).2⟩

/-- A state with pages 1 and 2 of its context mapped to frames 3 and 4, readable, writable and executable, under key 1. -/
def mapped (s : State) : State :=
  { s with
    pkg := { s.pkg with
      mem := [(0, 1), (2, 1), (0x10000, 1), (0x10002, 2), (0x20008, 0x7E), (0x2000A, 3), (0x2000E, 0x10), (0x20010, 0x7E),
        (0x20012, 4), (0x20016, 0x10)]
      frameKeys := [(3, 0x8001), (4, 0x8001)]
      keyVf := [(1, 0)] } }

/-- An address in page 1, in the pair v2:v3 of lane 0, and what else the registers hold. -/
def at1 (op : Nat) (d a b : Field) (v : List (Nat × Word) := []) : State := mapped (before op d a b ((2, 0x10000) :: v))

/-! ### Words that compute: Admits is the only hypothesis -/

theorem witness_integer_forms : (List.range 0x2C).all (fun op => admitted (before op 6 2 4 []) op 6 2 4) = true := by
  decide +kernel
theorem witness_float_forms :
    (List.range' 0x30 0x12 ++ List.range' 0x47 9).all (fun op => admitted (before op 6 2 2 []) op 6 2 2) = true := by decide +kernel
theorem witness_packed_forms :
    (List.range' 0x42 5).all (fun op => admitted (before op 6 2 4 [] fun st => { st with mode := st.mode ||| 0x80000 }) op 6 2 4) = true := by
  decide +kernel
theorem witness_special_forms : (List.range' 0x50 9 ++ [0x5B, 0x5C, 0x5D]).all (fun op => admitted (before op 6 2 4 []) op 6 2 4) = true := by
  decide +kernel
theorem witness_lane_forms :
    [0x60, 0x61, 0x62, 0x63, 0x64, 0x65, 0x66, 0x67, 0x68, 0x69, 0x6A, 0x6B, 0x6C].all
      (fun op => admitted (before op 6 2 1 []) op 6 2 1) = true ∧
    admitted (before 0x69 6 2 2 []) 0x69 6 2 2 (fun x => x.st.onLanes != []) = true ∧
    admitted (before 0x69 6 2 2 [] fun st => { st with em := 0 }) 0x69 6 2 2 (fun x => x.st.onLanes == []) = true ∧
    admitted (before 0x6A 6 2 0 []) 0x6A 6 2 0 = true := by decide +kernel
theorem witness_control_forms :
    [0xD0, 0xD1, 0xD2, 0xD3, 0xD4, 0xD5, 0xD6, 0xD7, 0xD8, 0xD9, 0xDA, 0xDB, 0xDF, 0xA8, 0xA9, 0xAA, 0xAB, 0xAC, 0xCD, 0xCE].all
      (fun op => admitted (before op 6 2 1 []) op 6 2 1) = true := by decide +kernel

/-! ### Registers, operands, dovetail reads, checks and traps -/

/-- The boundaries of the register codes that the clauses of RegisterReadsAndWrites split. -/
theorem witness_register_codes : (99 < 100 ∧ (100 ≤ 107 ∧ 107 < 108) ∧ (123 = 123) ∧ (2 < 3 ∧ 127 = 125 + 2) ∧
    (108 ≤ 122 ∧ 122 < 123 ∨ 124 = 124) ∧ (6 < 7 ∧ 95 < 96) : Prop) := by decide

theorem witness_lane_results : admitted (before 0 99 2 4 []) 0 99 2 4 (fun x => x.ripple == [] && x.form.d.regs == 1 && x.d == 99 && x.st.isOn 0 && !x.st.isOn 1)
    = true := by decide +kernel

/-- A launch with the dovetail flag. -/
def dovetailed (s : State) (chans : AMap Channel) (more : AMap Dovetail := []) (sn : Nat := 0) : State :=
  { s with
    pkg := { s.pkg with
      launches := s.pkg.launches.mapVals fun _ l =>
        { l with desc := l.desc ||| (1 : BitVec 512) <<< 311, dovetail := more ++ [(sn, { chans := chans })] }
      strands := s.pkg.strands.mapVals fun _ st => { st with sn := sn } } }

/-- A self channel 0 on v6 at distance 1. -/
def ripples (op : Nat) (d a b : Field) : State := dovetailed (before op d a b []) [(0, { vs := 6, dist := 1, self := true, defaults := [] })]

theorem witness_ripple :
    admitted (ripples 0x00 6 2 108) 0x00 6 2 108 (fun x => x.ripple == [(0, 1)] && x.d == 6 && x.form.d.regs == 1 && x.st.isOn 0) = true := by
  decide +kernel

/-- The cases of a dovetail read: no channel, a lane at the distance, the first strand's default, and, in strand 1, a
predecessor without the channel that has ended or not, one that declared another channel, one with a round, one that ended. -/
theorem witness_dovetail_reads :
    let st (s : State) : Strand := (s.pkg.strand? 0).getD (placedStrand 0 false)
    let ch : Channel := { vs := 6, dist := 1, self := false, defaults := [(0, 7)] }
    let own := dovetailed (before 0 6 2 108 []) [(0, ch)]
    let next (d : Dovetail) : State := dovetailed (before 0 6 2 108 []) [(0, ch)] [(0, d)] 1
    let reads (s : State) : Pkg.DvRead := s.pkg.readDv (st s) 0 0
    (before 0 6 2 108 []).pkg.channel (st (before 0 6 2 108 [])) 0 = none ∧ own.pkg.channel (st own) 0 = some ch ∧
    reads own = .value 7 false ∧ reads (next {}) = .wait ∧ reads (next { ended := true }) = .misuse ∧
    reads (next { chans := [(0, { ch with vs := 7 })] }) = .misuse ∧
    reads (next { chans := [(0, { ch with count := 1, rounds := [(1, [9])] })] }) = .value 9 false ∧
    reads (next { chans := [(0, { ch with ended := true, final := [8] })] }) = .value 8 true := by decide +kernel

theorem witness_dovetail_forms :
    admitted (dovetailed (before 0x6D 6 2 0 []) []) 0x6D 6 2 0 = true ∧
    admitted (dovetailed (before 0x6E 0 0 0 []) [(0, { vs := 6, dist := 1, self := false, defaults := [] })]) 0x6E 0 0 0
      (fun x => !x.p.bufferFull x.st 0 && (x.p.channel x.st 0).isSome && (x.p.launches.get? x.st.launch).isSome) = true ∧
    (let s := dovetailed (before 0x6E 0 0 0 []) [(0, { vs := 6, dist := 1, self := false, defaults := [] })]
     let s := { s with pkg := { s.pkg with launches := s.pkg.launches.mapVals fun _ l => { l with desc := l.desc ||| (192 : BitVec 512) <<< 256 } } }
     admitted s 0x6E 0 0 0 (fun x => !x.p.bufferFull x.st 0 && x.p.consumes x.st 0 &&
       ((x.p.dove x.st.launch (x.st.sn + 1)).chans.get? 0).isNone) = true) ∧
    (let s := dovetailed (before 0x6E 0 0 0 []) [(0, { vs := 6, dist := 1, self := false, defaults := [] })]
     let s := { s with pkg := { s.pkg with launches := s.pkg.launches.mapVals fun _ l => { l with desc := l.desc ||| (192 : BitVec 512) <<< 256 } } }
     admitted s 0x6E 0 0 0 (fun x => !x.p.bufferFull x.st 0 && x.p.consumes x.st 0 &&
       ((x.p.dove x.st.launch (x.st.sn + 1)).chans.get? 0).isNone) = true) ∧
    admitted (dovetailed (before 0x6F 0 0 0 []) [(0, { vs := 6, dist := 1, self := false, defaults := [] })]) 0x6F 0 0 0
      (fun x => (x.p.channel x.st 0).isSome) = true := by decide +kernel

/-- Four rounds that the successor has yet to consume: the buffer is full. -/
theorem witness_dvpub_full :
    let ch : Channel := { vs := 6, dist := 1, self := false, defaults := [], count := 4, rounds := [(1, [0]), (2, [0]), (3, [0]), (4, [0])] }
    let s := dovetailed (before 0x6E 0 0 0 []) [(0, ch)]
    let s := { s with pkg := { s.pkg with launches := s.pkg.launches.mapVals fun _ l => { l with desc := l.desc ||| (192 : BitVec 512) <<< 256 } } }
    admitted s 0x6E 0 0 0 (fun x => x.p.bufferFull x.st 0) = true := by decide +kernel

/-- A plain word, and the first failing check of each kind: a form that the core lacks, privilege, an operand, a channel. -/
theorem witness_checks :
    let st (s : State) : Strand := (s.pkg.strand? 0).getD (placedStrand 0 false)
    let s := before 0 6 2 4 []
    (s.Runs 0 (st s) ∧ formOf 0 4 0 false = some formRRR ∧ legalOperands formRRR 0 6 2 4 (st s).nregs (st s).litCount (st s).mode = true ∧
      Pkg.dvSources formRRR 6 2 4 = [] ∧ Pkg.dvNamed 0 4 = none ∧ s.pkg.interlocked 0 (st s) formRRR 0 6 2 4 [] false = false ∧
      Pkg.observedFailure (st s) formRRR 0 6 2 4 [] false = none) ∧
    (formOf 0xAD 0 0 false = none ∧ (formOf 0xE3 0 0 false).map (·.vector) = some false ∧ (formOf 0x60 0 0 true).map (·.truss) = some false) ∧
    (privileged 0xDC 0 = true ∧ (st s).handler = false) ∧
    legalOperands formRRR 0 124 2 4 (st s).nregs (st s).litCount (st s).mode = false ∧
    (ldDovetail (s.pkg.descOf (st s)) = false ∧ Pkg.dvSources formRRR 6 2 108 = [0]) ∧
    (s.pkg.mayRun 0 (st s) = true ∧ s.pkg.isExhausted (sidCtx 0) = false) := by
  refine ⟨⟨⟨by decide +kernel, by decide +kernel⟩, by decide +kernel⟩, by decide +kernel⟩

theorem witness_parts : Instr.parts (.add 6 2 4 false false false) = some (0, 6, 2, 4, false, false, false) := rfl

theorem witness_reserved_word :
    let s := before 0xAD 0 0 0 []
    (s.pkg.strand? 0).any (fun st => s.pkg.mayRun 0 st && wordOpcode (st.words.getD st.slot 0) == 0xAD) = true := by decide +kernel

theorem witness_traps :
    let s := before 0 6 2 4 []
    ((s.pkg.strand? 0).any (fun st => !st.handler) && (s.pkg.ctxs.get? 0).isSome) = true ∧
    (let h := before 0 6 2 4 [] fun st => { st with handler := true }
     (h.pkg.strand? 0).any (fun st => st.handler && (h.pkg.trees.get? (h.pkg.treeKeyOf st)).isSome) = true) := by decide +kernel

/-! ### Floating-point values: finite operands, a NaN in each place -/

theorem witness_float_values :
    (fp32.isFinite 0x3F800000 ∧ fp32.isZero 0x3F800000 = false ∧ 0x3F800000 < 2 ^ fp32.width ∧ fp64.isFinite 0) ∧
    (fp32.isNaN 0x7F800001 ∧ fp32.isSNaN 0x7F800001 ∧ fp32.isNaN 0 = false) ∧ (4 : Nat) ≤ 4 := by decide +kernel

/-! ### Activation -/

theorem witness_activation :
    admitted (before 0x59 6 2 0 []) 0x59 6 2 0 = true ∧
    admitted (before 0x5A 0 2 1 []) 0x5A 0 2 1 (fun x => (x.env.uniform64 x.a).toNat % 16 == 0 && !x.p.slotSelected x.sid x.b && !x.st.ops.any (fun o => Pkg.opSetsCf o.kind) &&
      modeActSlot x.st.mode != x.b && globalRun x 1 needRead ((List.range 66).map fun k => ⟨x.st.low, (x.env.uniform64 x.a).toNat + 16 * k⟩) fun p _ => p.canEnter x.sid x.st) = true := by
  decide +kernel

/-! ### Memory, atomics and fences -/

/-- A state whose context has 64 KiB of die scratchpad. -/
def withShare (s : State) : State :=
  { s with pkg := { s.pkg with ctxs := s.pkg.ctxs.mapVals fun _ c => { c with record := c.record ||| (1 : BitVec 1024) <<< 208 } } }

/-- Every scratchpad form at offset 0 with width code 4, and the lane slice's last word. -/
theorem witness_scratchpad :
    [(0x80, 4), (0x81, 4), (0x82, 3), (0x83, 3), (0x84, 2), (0x85, 2), (0x86, 1), (0x87, 1), (0x8A, 3), (0x8B, 3)].all (fun e =>
      admitted (withShare (before e.1 6 2 64 [])) e.1 6 2 64 (fun x =>
        scratchRun x e.2 4 (if e.1 < 0x8A then id else swizzle 0 4) && x.p.canEnter x.sid x.st)) = true ∧
    admitted (before 0x80 6 2 64 [(2, 2716)]) 0x80 6 2 64 (fun x => scratchRun x 4 4 id) = true := by decide +kernel

/-- A misaligned offset, one beyond the lane slice of 2,720 bytes, and an absent line. -/
theorem witness_offset_checks :
    admitted (before 0x80 6 2 64 [(2, 2)]) 0x80 6 2 64 (fun x => (x.st.onLanes.map (scratchAcc x 4 4 id)).any fun t => t.any fun t => t.formed % 4 != 0) = true ∧
    admitted (before 0x80 6 2 64 [(2, 2720)]) 0x80 6 2 64 (fun x =>
      (x.st.onLanes.map (scratchAcc x 4 4 id)).any fun t => t.any fun t => t.formed % 4 == 0 && decide (t.size < t.off + t.bytes)) = true ∧
    (let s := before 0x84 6 2 64 []
     admitted { s with pkg := { s.pkg with bents := s.pkg.bents.mapVals fun _ b => { b with absent := [(0, 0)] } } } 0x84 6 2 64
      (fun x => (x.st.onLanes.map (scratchAcc x 2 4 id)).any fun t =>
        t.any fun t => t.formed % 4 == 0 && decide (t.off + t.bytes ≤ t.size) && !x.p.isPresentAt t.loc t.bytes)) = true := by
  decide +kernel

/-- The loads and stores, of width 6 too, the prefetch and the pinning forms in a mapped page. -/
theorem witness_global :
    [(0x88, 64, needRead, 4), (0x89, 64, needWrite, 4), (0x88, 96, needRead, 16), (0x8D, 0, needRead, 1), (0x8E, 0, needRead, 1),
      (0x8F, 0, needRead, 1)].all (fun e => admitted (at1 e.1 8 2 (BitVec.ofNat 7 e.2.1)) e.1 8 2 (BitVec.ofNat 7 e.2.1) (fun x =>
        deviceLanes x == [] && deviceLanes x == [] && globalRun x e.2.2.2 e.2.2.1 (globalWants x) fun p ls => p.canEnter x.sid x.st && ls.all fun l => !isDev l)) = true ∧
    admitted (at1 0x8C 0 2 0) 0x8C 0 2 0 (fun x =>
      (prefetchLanes x.sid (x.p.leaseOf x.st) x.p (globalWants x)).1.canEnter x.sid x.st) = true := by decide +kernel

theorem witness_atomics :
    [(0xA0, 0, 4), (0xA0, 64, 8), (0xA3, 6, 4), (0xA4, 6, 8), (0xA5, 12, 16)].all (fun e =>
      admitted (at1 e.1 8 2 (BitVec.ofNat 7 e.2.1)) e.1 8 2 (BitVec.ofNat 7 e.2.1) (fun x =>
        globalRun x e.2.2 needAtomic (globalWants x) fun p ls => p.canEnter x.sid x.st && ls.all fun l => !isDev l)) = true ∧
    admitted (before 0xA1 8 2 0 []) 0xA1 8 2 0 (fun x => scratchRun x 3 4 id) = true ∧
    admitted (before 0xA2 8 2 0 []) 0xA2 8 2 0 (fun x => scratchRun x 2 4 id) = true := by decide +kernel

/-- The ends of the ranges of R258's operands, and of the swizzles. -/
theorem witness_atomic_values : (64 ∈ [32, 64] ∧ 2 ^ 64 - 1 < 2 ^ 64 ∧ 63 < 64 ∧ 16 ∈ [1, 2, 4, 8, 16] ∧ 2 ∈ [1, 2] : Prop) := by decide +kernel

/-- The fences with nothing outstanding, with an operation outstanding, and a word that the core holds and does not own. -/
theorem witness_fences :
    let after (op : Nat) (k : OpKind) : State :=
      before op 0 0 0 [] fun st => { st with ops := [{ id := 1, flag := 0, dests := [6], entry := false, kind := k }] }
    [0xA8, 0xA9, 0xAA, 0xAB, 0xAC].all (fun op =>
      admitted (before op 0 0 0 []) op 0 0 0 (fun x => Pkg.quiet x.st && Pkg.loadsDone x.st && Pkg.storesDone x.st && sidCore x.sid == some 0) &&
      admitted (after op (.load 4 0 [])) op 0 0 0 (fun x => !Pkg.quiet x.st && !Pkg.loadsDone x.st && Pkg.storesDone x.st) &&
      admitted (after op (.store 0 [])) op 0 0 0 (fun x => !Pkg.quiet x.st && Pkg.loadsDone x.st && !Pkg.storesDone x.st)) = true ∧
    AMap.get? (AMap.get [(0, [(5, (9 : Word))])] 0 []) 5 = some 9 := by decide +kernel

theorem witness_stores_and_loads :
    (Mem.Canonical [(3, 7)] ∧ isAliasPa 0x30000 = false ∧ ((before 0 0 0 0 []).pkg.hbmPa? (.lane 0 0 0)) = none) ∧
    (let s := before 0xE3 0 0 0 []
     (s.pkg.strand? 9216).isSome = true ∧ 99 < 100 ∧ 95 < 96 ∧ 4 < 5 ∧ sidIsTruss 9216 = true) := by
  refine ⟨⟨by unfold Mem.Canonical; decide +kernel, by decide +kernel⟩, by decide +kernel⟩

/-- One outstanding operation of each kind that OperationsComplete names. -/
theorem witness_operations_complete :
    let kinds : List OpKind := [.load 4 0 [], .store 0 [], .atomic 0 false [], .cas [], .prefetch 0 [], .lock [], .regs [(6, 0, 1)] [] []]
    kinds.all (fun k =>
      let o : Op := { id := 1, flag := 0, dests := [6], entry := false, kind := k }
      let s := before 0 0 0 0 [] fun st => { st with ops := [o] }
      s.plat.booted == 4 && s.pkg.isResident 0 && (s.pkg.strand? 0).any fun st =>
        st.ops.find? (fun o => o.id == 1) == some o && s.pkg.opReady 0 st o && (opReads s.pkg 0 st o.kind).all (fun y => !s.pkg.badIn y.1 y.2)) = true := by
  decide +kernel

/-! ### Small matrices -/

theorem witness_small_matrices :
    [0x72, 0x73, 0x74, 0x75, 0x76, 0x78, 0x7F].all (fun op => admitted (before op 0 4 8 []) op 0 4 8) = true ∧
    admitted (before 0x77 0 4 8 []) 0x77 0 4 8 = true ∧ admitted (before 0x79 0 4 8 []) 0x79 0 4 8 = true ∧
    admitted (before 0x7E 0 0 0 []) 0x7E 0 0 0 = true ∧ admitted (before 0x7A 0 0 0 []) 0x7A 0 0 0 = true ∧
    admitted (before 0x7B 0 0 8 []) 0x7B 0 0 8 = true := by decide +kernel

/-- A pivot word that is a permutation of order 2 (0 and 1), and one that is none. -/
theorem witness_pivots :
    let bad (x : Pkg.Exe) : List Nat := x.st.onLanes.filter fun j => match pivotOf x j with | some w => !pivotValid 2 w | none => false
    [0x7C, 0x7D].all (fun op => admitted (before op 0 4 8 [(8, 8)]) op 0 4 8 (fun x => modeOrder x.st.mode == 2 && bad x == [])
      && admitted (before op 0 4 8 [(8, 0)]) op 0 4 8 (fun x => bad x != [])) = true ∧
    (1 ≤ modeOrder modeReset ∧ [1, 2, 3, 4].length = modeOrder modeReset * modeOrder modeReset ∧ (0 < 1 ∧ 1 < modeOrder modeReset)) := by
  decide +kernel

theorem witness_small_matrix_memory :
    [(0x70, 0), (0x71, 0)].all (fun e => admitted (before e.1 4 2 0 []) e.1 4 2 0 (fun x =>
      (smElements x).all fun y => (x.env.opd x.form.a x.a y.1).toNat % (4 * smRegs x.st.mode) == 0 &&
        decide ((x.env.opd x.form.a x.a y.1).toNat + y.2.2 + 4 * smRegs x.st.mode ≤ ldSlice (x.p.descOf x.st)))) = true ∧
    [(0x70, needRead), (0x71, needWrite)].all (fun e => admitted (mapped (before e.1 4 2 65 [(2, 0x1FFFC)])) e.1 4 2 65 (fun x =>
      globalRun x 4 { e.2 with noDev := true } ((smElements x).map fun y => ⟨y.1, (x.env.opd x.form.a x.a y.1).toNat + y.2.2⟩) fun p ls =>
        p.canEnter x.sid x.st && ls.all fun l => !isDev l)) = true := by decide +kernel

/-! ### Shapes and sweeps -/

/-- A shape record: base, space, format, extents from dimension 0, and strides in elements. -/
def shp (base space fmt : Nat) (ext stride : List Nat) : BitVec 512 :=
  BitVec.ofNat 512 (base + space * 2 ^ 64 + fmt * 2 ^ 68 + (ext.length - 1) * 2 ^ 72
    + (ext.zipIdx.foldl (fun n e => n + e.1 * 2 ^ (24 * e.2 + 96)) 0) + (stride.zipIdx.foldl (fun n e => n + e.1 * 2 ^ (32 * e.2 + 216)) 0))

/-- The word's strand with shape registers sh0, sh1, sh2. -/
def shaped (op : Nat) (d a b : Field) (l : List (BitVec 512)) : State :=
  before op d a b [] fun st => { st with sh := l.zipIdx.map fun e => (e.2, e.1) }

/-- Three vectors of four words in the cluster-shared allocation. -/
def vectors : List (BitVec 512) := [shp 0 2 0 [4] [1], shp 64 2 0 [4] [1], shp 128 2 0 [4] [1]]

/-- A value that fits its field, the extremes of rank, and ones that do not fit. -/
theorem witness_shape_forms :
    admitted (before 0xB2 1 2 3 [(2, 5)]) 0xB2 1 2 3 (fun x => x.env.uniform x.a == 5) = true ∧
    admitted (before 0xB2 1 2 3 [(2, 6)]) 0xB2 1 2 3 (fun x => x.env.uniform x.a == 6) = true ∧
    admitted (before 0xB2 1 2 1 [(2, 15)]) 0xB2 1 2 1 (fun x => decide ((x.env.uniform x.a).toNat < 2 ^ ((shField 1).1 + 1 - (shField 1).2))) = true ∧
    admitted (before 0xB3 6 1 3 []) 0xB3 6 1 3 = true ∧ admitted (before 0xB4 1 0 0 []) 0xB4 1 0 0 = true := by decide +kernel

theorem witness_shape_memory :
    [(0xB0, needRead), (0xB1, needWrite)].all (fun e =>
      admitted (at1 e.1 1 2 0) e.1 1 2 0 (fun x => globalRun x 64 e.2 [⟨x.st.low, (x.env.uniform64 x.a).toNat⟩] fun p ls =>
        p.canEnter x.sid x.st && ls.length == 1) &&
      admitted (before e.1 1 2 64 []) e.1 1 2 64 (fun x => (x.p.coreTarget x.st 0).any fun t =>
        decide (t.2.2.1 + 64 ≤ t.2.2.2) && x.p.isPresentAt (.core t.1 t.2.1 t.2.2.1) 64)) = true := by decide +kernel

/-- Does a shape satisfy the premises of SweepIssue? -/
def liesIn (x : Pkg.Exe) (z : Shape) : Bool :=
  z.base % z.esize == 0 && decide (0 ≤ z.span.1) && decide (z.span.2 ≤ z.allocation x.p (agentOf x.p x.sid x.st))

theorem witness_sweep_issue :
    [0xB5, 0xB6, 0xB7, 0xB8, 0xB9, 0xBA, 0xBB].all (fun op => admitted (shaped op 0 1 2 vectors) op 0 1 2 (fun x =>
      let z (n : Nat) : Shape := shapeOf (x.st.shape n)
      !sweepIllegal op 2 0 (z 0) (z 1) (if op ≤ 0xB8 then z 2 else z 1) && liesIn x (z 0) && liesIn x (z 1) && liesIn x (z 2))) = true ∧
    admitted (shaped 0xBC 0 1 0 [shp 0 2 0 [1] [1], shp 64 2 0 [4] [1]]) 0xBC 0 1 0 (fun x =>
      !sweepIllegal 0xBC 0 0 (shapeOf (x.st.shape 0)) (shapeOf (x.st.shape 1)) (shapeOf (x.st.shape 1))) = true ∧
    admitted (shaped 0xBD 0 1 0 [shp 0 2 0 [2, 2] [1, 2], shp 64 2 0 [2, 2] [1, 2]]) 0xBD 0 1 0 (fun x =>
      !sweepIllegal 0xBD 0 0 (shapeOf (x.st.shape 0)) (shapeOf (x.st.shape 1)) (shapeOf (x.st.shape 1))) = true := by decide +kernel

/-- A group of four elements of a copying sweep, all of them reachable. -/
theorem witness_sweep_group :
    let w : Sweep := { code := 0xBB, shD := 0, shA := 1, shB := 1, recA := shp 64 2 0 [4] [1], recB := shp 64 2 0 [4] [1], sel := 0,
                       mode := modeReset, lowLane := 0 }
    let o : Op := { id := 1, flag := 0, dests := [], entry := false, kind := .sweep w }
    let s := before 0 0 0 0 [] fun st => { st with sh := [(0, shp 0 2 0 [4] [1])], ops := [o] }
    (s.plat.booted == 4 && s.pkg.isResident 0 && (s.pkg.strand? 0).any fun st =>
      let g := agentOf s.pkg 0 st
      let D := shapeOf (st.shape 0)
      let A := shapeOf w.recA
      let ixs := (List.range 4).map fun k => Shape.indexOf D.extent k
      (st.ops.find? (fun o => o.id == 1) == some o) &&
      let clear := clearOf s.pkg 0 st o
      match s.pkg.sweepLocate g clear A needRead (ixs.map (sourceIndex w.code A)) with
      | (p1, .ok la) =>
        match p1.sweepLocate g clear A needRead (ixs.map (sourceIndex w.code A)) with
        | (p2, .ok _) =>
          match p2.sweepLocate g clear D needWrite ixs with
          | (_, .ok ld) => la.length == 4 && ld.length == 4
          | _ => false
        | _ => false
      | _ => false) = true := by decide +kernel

/-! ### Control and system forms -/

/-- BRNONE with no active lane that holds 1 in bit 0 of a, and with one; EXIT of the last lane, and of one of two. -/
theorem witness_transfers_and_exit :
    admitted (before 0xD3 0 2 4 []) 0xD3 0 2 4 (fun x => !(x.env.get x.a 0).getLsbD 0) = true ∧
    admitted (before 0xD3 0 2 4 [(2, 1)]) 0xD3 0 2 4 (fun x => (x.env.get x.a 0).getLsbD 0 && x.st.isPresent 0 && x.st.isActive 0) = true ∧
    admitted (before 0xD6 0 0 0 []) 0xD6 0 0 0 (fun x => x.st.present &&& ~~~x.st.em == 0) = true ∧
    admitted (before 0xD6 0 0 0 [] fun st => { st with present := 3 }) 0xD6 0 0 0 (fun x => x.st.present &&& ~~~x.st.em != 0) = true ∧
    ((placedStrand 0 false).slot ≤ (placedStrand 0 false).count ∧ (placedStrand 0 false).count ≤ (placedStrand 0 false).slot ∧
      1 < Strand.count { placedStrand 0 false with words := [encodeHeader 2 0 0 0 false] }) := by decide +kernel

/-- Arriving at a barrier; having arrived, with every participant there; and the barrier of the truss core. -/
theorem witness_barriers :
    [0xD7, 0xD8].all (fun op => admitted (before op 0 0 3 []) op 0 0 3 (fun x =>
      !x.st.truss && x.st.atBarrier != some (if op = 0xD7 then 3 else 7) && Pkg.quiet x.st)) = true ∧
    [true, false].all (fun leaves =>
      admitted (before 0xD7 0 0 3 [] fun st => { st with atBarrier := some 3, arrivals := [(3, 1)], departing := leaves }) 0xD7 0 0 3 (fun x =>
        x.st.atBarrier == some 3 && x.st.departing == leaves && x.p.strands.all fun e => decide (x.st.arrivals.get 3 0 ≤ e.2.arrivals.get 3 0))) = true ∧
    admitted (before 0xD7 0 0 3 [] fun st => { st with ops := [{ id := 1, flag := 0, dests := [6], entry := false, kind := .store 0 [] }] }) 0xD7 0 0 3
      (fun x => x.st.atBarrier == none && !Pkg.quiet x.st) = true ∧
    (let s := before 0xD7 0 0 3 [] fun st => { st with atBarrier := some 3, arrivals := [(3, 1)] }
     let s := { s with pkg := { s.pkg with strands := s.pkg.strands ++ [(1, { placedStrand 0 false with bent := 3 })] } }
     (s.pkg.strand? 0).any fun st => s.pkg.strands.any fun e =>
       e.2.bent == st.bent && !e.2.ended && e.2.crew == st.crew && !e.2.truss && !decide (st.arrivals.get 3 0 ≤ e.2.arrivals.get 3 0)) = true ∧
    (let s := before 0xE3 0 0 0 []
     admitted s 0xD7 0 0 3 (fun x => x.st.truss && Pkg.quiet x.st)) = true := by decide +kernel

/-- SETM of every selector that writes, a value that does not fit, a delta out of range; GETM of the ends of its selectors. -/
theorem witness_mode_register :
    [(0 : Field), 1, 2, 3, 4, 5, 6, 7, 8, 9].all (fun b => admitted (before 0xD9 0 2 b []) 0xD9 0 2 b && admitted (before 0xDA 6 0 b []) 0xDA 6 0 b) = true ∧
    admitted (before 0xD9 0 2 6 [(2, 8)]) 0xD9 0 2 6 (fun x => decide (2 ^ (45 + 1 - 43) ≤ (x.env.get x.a x.st.low).toNat)) = true ∧
    admitted (before 0xD9 0 2 8 [(2, 16)]) 0xD9 0 2 8 (fun x => decide (15 < (x.env.get x.a x.st.low).toInt)) = true ∧
    (bits (modeReset.toNat) 22 19 = 0 ∧ signedOf 5 (bits modeReset.toNat 51 47) = 0) := by decide +kernel

/-- In the handler with a frame: TRAP #park, RTE with each selector, SWRITE of each register, SREAD of some. -/
theorem witness_system_forms :
    let f : Frame := { clause := 0x500, slot := 3, temps := [], mode := modeReset, em := 1 }
    let h (op : Nat) (d a b : Field) (more : Strand → Strand := id) : State :=
      before op d a b [] fun st => more { st with handler := true, frame := some f }
    admitted (h 0xDB 0 2 64) 0xDB 0 2 64 = true ∧ admitted (before 0xDB 0 2 63 []) 0xDB 0 2 63 = true ∧
    [(0 : Field), 1, 2].all (fun b => admitted (h 0xDC 0 2 b) 0xDC 0 2 b (fun x => x.st.frame == some f)) = true ∧
    [(32 : Field), 33, 40, 41, 42].all (fun b => admitted (h 0xDE 0 2 b) 0xDE 0 2 b (fun x => x.st.frame.isSome && x.st.invalidation == none)) = true ∧
    admitted (h 0xDE 0 2 33 fun st => { st with invalidation := some 1 }) 0xDE 0 2 33 (fun x => (x.p.invalidations.get? 1).isNone) = true ∧
    [(0 : Field), 1, 4, 16, 27, 32, 33, 40, 42].all (fun b => admitted (h 0xDD 6 0 b) 0xDD 6 0 b) = true ∧
    admitted (before 0xDD 6 0 40 [] fun st => { st with handler := true }) 0xDD 6 0 40 (fun x => x.st.frame.isNone) = true := by
  decide +kernel

/-! ### Remote, engine, transfer and launch forms -/

/-- A state whose context has rank 1 at yard port 3. -/
def ganged (s : State) : State :=
  { s with pkg := { s.pkg with ctxs := s.pkg.ctxs.mapVals fun _ c => { c with gang := [(1, 0x8003)] } } }

/-- Rank 1 at address 0x100, and a rank outside the table. -/
theorem witness_remote_forms :
    [(0x90, 64, 4), (0x91, 64, 4), (0xA6, 0, 4), (0xA7, 6, 8)].all (fun e =>
      [(0x00800000 : Word), 0x01000000].all fun hi =>
        admitted (ganged (before e.1 8 2 (BitVec.ofNat 7 e.2.1) [(2, 0x100), (3, hi)])) e.1 8 2 (BitVec.ofNat 7 e.2.1) (fun x =>
          remoteVa (x.env.get64 x.a 0).toNat % e.2.2 == 0 && x.p.canEnter x.sid x.st &&
            match x.p.gangEntry 0 (remoteRank (x.env.get64 x.a 0).toNat) with
            | some g => hi == 0x00800000 && (remoteRoute x.p (e.1 != 0x91) g.1 0x100 1).isSome
            | none => hi == 0x01000000)) = true := by decide +kernel

/-- CPQ, XFQ and WAITSEQ on a mapped page; the word below its target, and at it. -/
theorem witness_chain_forms :
    [0xC0, 0xC1].all (fun op => admitted (at1 op 20 32 2 []) op 20 32 2 (fun x =>
      globalRun x 64 needAtomic [⟨x.st.low, (x.env.get64 x.b x.st.low).toNat⟩] fun p ls => p.canEnter x.sid x.st && ls.length == 1)) = true ∧
    [(0 : Word), 5].all (fun t => admitted (at1 0xC2 0 2 4 [(4, t)]) 0xC2 0 2 4 (fun x =>
      globalRun x 8 needRead [⟨x.st.low, (x.env.get64 x.a x.st.low).toNat⟩] fun p ls =>
        ls.all (fun l => !p.isBad l) && (t == 0) == decide ((x.env.get64 x.b x.st.low).toNat ≤ leNat (p.readHome (ls.headD (.hbm 0)) 8).2))) = true := by
  decide +kernel

theorem witness_transfer_forms :
    admitted (before 0xC4 22 8 0 [(13, 0x400)]) 0xC4 22 8 0 (fun x =>
      bits (x.env.get (x.a + 5) x.st.low).toNat 11 10 == 1 && bits (x.env.get (x.a + 5) x.st.low).toNat 31 20 == 0) = true ∧
    admitted (before 0xC5 22 8 0 []) 0xC5 22 8 0 = true ∧ admitted (before 0xC6 22 8 0 []) 0xC6 22 8 0 = true := by decide +kernel

/-- A landing counter at offset 0 of the cluster-shared allocation: a free watch, the strand's own watch, fired and not. -/
theorem witness_counters :
    let own (fired : Bool) (s : State) : State :=
      { s with pkg := { s.pkg with cores := [(0, { watches := [(15, ⟨0, .clus 3 0, 1, fired⟩)] })] } }
    admitted (before 0xC7 6 2 4 [(3, 0x20000000)]) 0xC7 6 2 4 (fun x => (counterAt x.p x.sid x.st (x.env.get64 x.a x.st.low).toNat).any fun t =>
      t.off % 8 == 0 && decide (t.off + 8 ≤ t.size) && (x.p.ownWatch x.sid (x.env.get x.d x.st.low).toNat).isNone &&
        (List.range (watchSlots x.st)).find? (fun k => ((x.p.core (sidCk x.sid)).watches.get? k).isNone) == some 0) = true ∧
    admitted (own true (before 0xC7 6 2 4 [(3, 0x20000000), (6, 15)])) 0xC7 6 2 4 (fun x => (x.p.ownWatch x.sid 15).isSome) = true ∧
    [true, false].all (fun f => admitted (own f (before 0xC8 0 2 0 [(2, 15)])) 0xC8 0 2 0 (fun x =>
      (x.p.ownWatch x.sid (x.env.get x.a x.st.low).toNat).any fun w => w.fired == f)) = true ∧
    admitted (before 0xC9 6 2 0 [(3, 0x20000000)]) 0xC9 6 2 0 (fun x => (counterAt x.p x.sid x.st (x.env.get64 x.a x.st.low).toNat).any fun t =>
      t.formed % 8 == 0 && decide (t.off + t.bytes ≤ t.size) && x.p.isPresentAt t.loc t.bytes) = true := by decide +kernel

/-- SPAWN with room in the queue; SCARF of one strand; TRIG; WAITDEP with no producer, and with one that is not satisfied. -/
theorem witness_launch_forms :
    admitted (at1 0xCB 6 2 0 []) 0xCB 6 2 0 (fun x => globalRun x 64 needRead [⟨x.st.low, (x.env.get64 x.a x.st.low).toNat⟩] fun p ls =>
      ls.length == 1 && (p.ctxs.get? 0).all fun c => decide (c.spawnQueue.length < 256)) = true ∧
    admitted (before 0xCC 0 8 0 [(10, 1)]) 0xCC 0 8 0 (fun x =>
      !x.st.truss && !ldDovetail (x.p.descOf x.st) && x.env.get (x.a + 2) 0 == 1 && x.env.get (x.a + 3) 0 == 0 &&
        (x.p.crew? x.st.bent x.st.crew).any fun c => decide (1 ≤ c.sids.length)) = true ∧
    admitted (before 0xCE 0 0 0 []) 0xCE 0 0 0 (fun x => (x.p.launchOf x.st).any x.p.depsMet) = true ∧
    (let s := before 0xCE 0 0 0 []
     let l (q : Launch) : Launch := { q with deps := [(7, 1)] }
     let s := { s with pkg := { s.pkg with launches := s.pkg.launches.mapVals (fun _ q => l q) ++ [(7, { ctx := 0, tree := 2, desc := 0, lease := [], leaseId := 1 })] } }
     admitted s 0xCE 0 0 0 (fun x => (x.p.launchOf x.st).any fun q => !x.p.depsMet q)) = true ∧
    (let o : Op := { id := 1, flag := 15, dests := [], entry := false, kind := .trigger }
     let s := before 0 0 0 0 [] fun st => { st with ops := [o] }
     s.plat.booted == 4 && (s.pkg.strand? 0).any fun st =>
       st.ops.find? (fun o => o.id == 1 && o.kind == .trigger) == some o && (Pkg.accessOps st).all (fun e => decide (1 ≤ e.id)) &&
         (s.pkg.launches.get? st.launch).isSome) = true := by decide +kernel

/-- A twin of 64 KiB at page 1, side B one page on: PUBL finds its leaf. -/
def twinned (s : State) : State :=
  let d : List Byte := leBytes 64 (0x10000 * 2 ^ 256 + 0x10000 * 2 ^ 320 + 0x10000 * 2 ^ 384 + 2 ^ 449)
  { s with
    pkg := { s.pkg with
      ctxs := s.pkg.ctxs.mapVals fun _ c => { c with twinPa := 0x50000 }
      mem := Mem.writeBytes [(0, 1), (2, 1), (0x10000, 1), (0x10002, 2), (0x20008, 0x7F), (0x2000A, 3), (0x2000E, 0x10)] 0x50000 d
      frameKeys := [(3, 0x8001), (4, 0x8001)]
      keyVf := [(1, 0)] } }

theorem witness_publ :
    admitted (twinned (before 0xCA 0 2 0 [(2, 0x10000)])) 0xCA 0 2 0 (fun x =>
      match x.p.translate (.lane x.sid x.st.low) (sidCtx x.sid) (x.p.leaseOf x.st) (x.env.get64 x.a x.st.low).toNat { } with
      | (p, .ok l) => l == .twin 0 0 0x30000 && p.leafWritable (sidCtx x.sid) (x.env.get64 x.a x.st.low).toNat
      | _ => false) = true := by decide +kernel

/-! ### The matrix engine -/

/-- A truss strand's word over two 64 x 64 FP16 matrices in the cluster-shared allocation. -/
def matrixWord (op : Nat) (d a b : Field) (fmt : Nat := 1) : State :=
  let m (base : Nat) : BitVec 512 := shp base 2 fmt [64, 64] [1, 64]
  before op d a b [] fun st => { st with sh := [(0, m 0), (1, m 0x8000)] }

theorem witness_matrix_forms :
    [0xE0, 0xE1].all (fun op => admitted (matrixWord op 3 0 1) op 3 0 1 (fun x =>
      (x.p.bents.get? x.st.bent).any (fun b => decide (b.matq.length < 8)) && !mmaIllegal (op - 0xE0) 3 0 (shapeOf (x.st.shape 0)) (shapeOf (x.st.shape 1))
        && liesIn x (shapeOf (x.st.shape 0)) && liesIn x (shapeOf (x.st.shape 1)))) = true ∧
    (let s := before 0xE2 3 0 1 [] fun st => { st with sh := [(0, shp 0 5 9 [64, 64] [0, 0]), (1, shp 0 2 1 [64, 64] [1, 64])] }
     admitted s 0xE2 3 0 1 (fun x => !mmaIllegal 2 3 0 (shapeOf (x.st.shape 0)) (shapeOf (x.st.shape 1)))) = true ∧
    admitted (before 0xE3 7 0 0 []) 0xE3 7 0 0 = true ∧
    admitted (matrixWord 0xE4 3 0 0 0) 0xE4 3 0 0 (fun x => !tileShapeIllegal true 0 (shapeOf (x.st.shape 0)) && liesIn x (shapeOf (x.st.shape 0))) = true ∧
    admitted (matrixWord 0xE5 0 3 0 0) 0xE5 0 3 0 (fun x => !tileShapeIllegal false 0 (shapeOf (x.st.shape 0))) = true ∧
    [(3 : Field), 32].all (fun b => admitted (before 0xE8 0 0 b []) 0xE8 0 0 b) = true ∧
    [(0 : Field), 5].all (fun b => admitted (before 0xE9 6 0 b []) 0xE9 6 0 b) = true := by decide +kernel

/-- A launch with a truss entry, and a queue that does not involve the tile. -/
theorem witness_tile_forms :
    let t (s : State) : State := { s with pkg := { s.pkg with launches := s.pkg.launches.mapVals fun _ l => { l with desc := l.desc ||| (4 : BitVec 512) <<< 64 } } }
    admitted (t (before 0xE6 6 3 4 [])) 0xE6 6 3 4 (fun x => ldTruss (x.p.descOf x.st) != 0 && (x.p.bents.get? x.st.bent).any fun b => b.matq == []) = true ∧
    admitted (t (before 0xE7 3 2 4 [])) 0xE7 3 2 4 (fun x => ldTruss (x.p.descOf x.st) != 0 && (x.p.bents.get? x.st.bent).any fun b => b.matq == []) = true := by
  decide +kernel

/-- A queue of one operation, ready to start; the same operation in execution. -/
def queued (started : Bool) : State :=
  let s := before 0xE3 7 0 0 []
  { s with pkg := { s.pkg with bents := s.pkg.bents.mapVals fun _ b =>
      { b with matq := [{ seq := 1, code := 3, tile := 7, recA := 0, recB := 0, mode := modeReset, started := started }], mseq := 1 } } }

theorem witness_matrix_operations :
    (let s := queued false
     (s.pkg.bents.get? 3).any fun b => (b.matq.find? (fun o => o.seq == 1)).any fun o => s.pkg.matReady 3 b o) = true ∧
    (let s := queued true
     (s.pkg.bents.get? 3).any fun b => s.pkg.runsOn b.cluster b.ctx && (b.matq.find? (fun o => o.seq == 1)).any fun o => o.started && o.code == 3) = true ∧
    ((intOfCode 4).isSome = true ∧ (intOfCode 5).isSome = true) := by decide +kernel

/-! ### Scheduling, parks -/

/-- A strand between clauses, its next one due to be resumed in the middle. -/
def idle (f : Strand → Strand := id) : State := before 0 6 2 4 [] fun st => f { st with executing := false }

theorem witness_strand_choice :
    (idle.pkg.chooseStrand 0).map (·.1) = some 0 ∧ (idle fun st => { st with aging := 65536 }).pkg.chooseStrand 0 ≠ none ∧
    95 < 96 := by decide +kernel

theorem witness_aging_and_yield :
    (idle.plat.booted == 4 && (idle.pkg.strand? 0).any fun st => idle.pkg.isReady 0 st && decide (st.aging ≤ 65536)) = true ∧
    ((idle fun st => { st with yieldUntil := some 16 }).pkg.strand? 0).map (·.yieldUntil) = some (some 16) := by decide +kernel

/-- A finished strand: alone in its crew, and beside one that goes on. -/
theorem witness_strand_end :
    let s := idle fun st => { st with finished := true }
    (s.pkg.strand? 0).any (fun st => st.finished && !st.ended && st.ops == [] && s.pkg.isResident 0 && !st.truss &&
      (s.pkg.crew? st.bent st.crew).any fun c => c.scarfs == [] && c.sids == [0]) = true ∧
    (let s := { s with pkg := { s.pkg with
        strands := s.pkg.strands ++ [(1, placedStrand 0 false)]
        bents := s.pkg.bents.mapVals fun _ b => { b with crews := b.crews.mapVals fun _ c => { c with sids := [0, 1] } } } }
     (s.pkg.strand? 0).any fun st => st.atBarrier == none && (s.pkg.crew? st.bent st.crew).any fun c =>
       c.sids.contains 1 && (s.pkg.strand? 1).any fun w => !w.ended) = true := by decide +kernel

/-- A tree whose counter is 0: without a record, and with one that can be written. -/
theorem witness_tree_completion :
    let t (r : DWord) : State :=
      let s := mapped idle
      { s with pkg := { s.pkg with trees := s.pkg.trees.mapVals fun _ t => { t with counter := 0, record := r } } }
    ((t 0).pkg.trees.get? 2).any (fun e => e.counter == 0 && e.record == 0) = true ∧
    ((t 0x10000).pkg.trees.get? 2).any (fun e => e.counter == 0 && e.record.toNat % 32 == 0 &&
      match (t 0x10000).pkg.translate ((t 0x10000).pkg.enginePort e.ctx) e.ctx e.lease e.record.toNat needWrite with
      | (q, .ok l) => !q.isBad l
      | _ => false) = true := by decide +kernel

/-- A launch of one bent under an elastic lease, with nothing placed. -/
def unplaced : State :=
  let s := before 0 6 2 4 []
  let bound (n : Nat) : Launch := { ctx := 0, tree := 2, desc := placedDesc, lease := [⟨0, 2 ^ 39 - 1, true⟩], leaseId := 1, nextBent := n }
  { s with pkg := { s.pkg with strands := [], bents := [], cur := none, clusters := [], launches := [(1, bound 0)] } }

theorem witness_bent_dispatch :
    ((unplaced.pkg.launches.get? 1).any fun l => unplaced.pkg.placeable 1 l 0 [0] &&
      (unplaced.pkg.mapPinned l.ctx (Pkg.pinnedPages l.lease)).2) = true := by decide +kernel

theorem witness_cluster_start :
    let s : State := { idle with pkg := { idle.pkg with clusters := [(0, { occupant := some 0, pending := some 1 })] } }
    (let c := s.pkg.clusters.get 0 {}
     c.pending == some 1 && !c.restore && (s.pkg.vfs.get 0 {}).lastStart.isNone &&
     (Pkg.clustersOf (clusterVf 0)).all fun k => ((s.pkg.clusters.get k {}).pending.all fun m => decide (1 ≤ m)) && !(s.pkg.clusters.get k {}).restore) = true := by decide +kernel

theorem witness_child :
    let s : State := { idle with pkg := { idle.pkg with ctxs := idle.pkg.ctxs.mapVals fun _ c => { c with spawnQueue := [⟨2, placedDesc⟩] } } }
    (s.pkg.served 0 && (s.pkg.ctxs.get? 0).any fun c => c.spawnQueue != []) = true := by decide +kernel

/-- One strand parked for each reason that ParkEnds names, and what it waits for there. -/
theorem witness_parks :
    let s (k : Park) : State := before 0 6 2 4 [] fun st => { st with park := some k }
    let ok (s : State) (f : Strand → Bool) : Bool := s.plat.booted == 4 && s.pkg.isResident 0 && (s.pkg.strand? 0).any f
    let ownWatch (s : State) : State := { s with pkg := { s.pkg with cores := [(0, { watches := [(0, ⟨0, .clus 3 0, 1, true⟩)] })] } }
    (ok (s (.presence [(.clus 3 0, 4)])) (fun _ => (s .table).pkg.isPresentAt (.clus 3 0) 4) &&
     ok (s .table) (fun st => (s .table).pkg.canEnter 0 st) &&
     ok (s .spawnQueue) (fun _ => ((s .table).pkg.ctxs.get? 0).any fun c => decide (c.spawnQueue.length < 256)) &&
     ok (s (.actSlot 1)) (fun _ => !(s .table).pkg.slotSelected 0 1) &&
     ok (dovetailed (s (.dovetail [(0, [0])])) [(0, { vs := 6, dist := 1, self := false, defaults := [(0, 7)] })]) (fun st =>
       (dovetailed (s .table) [(0, { vs := 6, dist := 1, self := false, defaults := [(0, 7)] })]).pkg.readDv st 0 0 != .wait) &&
     ok (s (.publish5 1)) (fun st => !(s .table).pkg.bufferFull st 1) &&
     ok (s .waitdep) (fun st => ((s .table).pkg.launchOf st).any (s .table).pkg.depsMet) &&
     ok (s (.waitseq (.hbm 0) 0 false)) (fun st => ((s .table).pkg.readHome (.hbm 0) 8).1.strand? 0 == some { st with park := some .table }) &&
     ok (ownWatch (s (.lcwait 0))) (fun _ => ((ownWatch (s .table)).pkg.ownWatch 0 0).any (·.fired))) = true := by decide +kernel

/-! ### The memory system -/

theorem witness_page_walk :
    let s := mapped (before 0 6 2 4 [])
    (s.pkg.ctxs.get? 0).any (fun c => !s.pkg.walkBad (crRoot c.record) 0x10000 &&
      walkTree s.pkg (crRoot c.record) 0x10000 == .leaf 0x20008 0x1000000003007E && !isAliasPa 0x20008 && !isDevicePa 0x20008 && s.pkg.mem.wf &&
      s.pkg.useLeaf 0 c.vf 0x10000 0x1000000003007E needWrite == .ok (.hbm 0x30000)) = true := by decide +kernel

theorem witness_elastic :
    let s := mapped (before 0 6 2 4 [] fun st => { st with park := some (.elastic 0 0x30000 false) })
    ((s.pkg.strand? 0).any (fun st => st.park == some (.elastic 0 0x30000 false)) && sidCtx 0 == 0 && (s.pkg.mapPage 0 (3 * 65536) [5]).2) = true := by
  decide +kernel

theorem witness_invalidation :
    let s : State := { idle with pkg := { idle.pkg with invalidations := [(7, ⟨0, 1, 1⟩)] } }
    let waits : State := before 0 6 2 4 [] fun st => { st with park := some (.waitseq (.hbm 0) 5 false) }
    ((s.pkg.invalidations.get? 7).isSome && !s.pkg.translationsInUse 0 && !waits.pkg.translationsInUse 0 &&
      (waits.pkg.strand? 0).any fun st => sidCtx 0 == 0 && st.park == some (.waitseq (.hbm 0) 5 false)) = true := by decide +kernel

theorem witness_region_and_frame :
    (3 < 4 ∧ 63 < 64 ∧ idle.pkg.regionLegal 255 0 = true) ∧ (unplaced.pkg.framePinned 9437183 = false ∧ unplaced.pkg.frameOfContext 9437183 = false ∧ unplaced.pkg.frameInFlight 9437183 = false) := by
  decide +kernel

/-- A PUBL whose strand has nothing before it, and no engine entry that concerns its twin. -/
theorem witness_twin_swap :
    let o : Op := { id := 1, flag := 0, dests := [], entry := false, kind := .publish 0 }
    let s := twinned (before 0 6 2 4 [] fun st => { st with ops := [o] })
    (leastBy (fun e : Nat × Op => e.2.id) (s.pkg.pendingSwaps 0 0) == some (0, o) && s.pkg.entries == [] && s.pkg.mem.wf &&
      (s.pkg.ctxs.get? 0).any (fun c => !isAliasPa (c.twinPa + 64 * 0)) &&
      (s.pkg.strand? 0).any fun st => (Pkg.accessOps st).all fun e => decide (1 ≤ e.id)) = true := by decide +kernel

/-! ### Chains, entries and packets -/

/-- A state whose twin table, which any address below 8,192 reads, lies in frame 5 and holds the given bytes. -/
def tabled (l : List (Nat × List Byte)) (s : State := idle) : State :=
  { s with
    pkg := { s.pkg with
      ctxs := s.pkg.ctxs.mapVals fun _ c => { c with twinPa := 0x50000 }
      mem := l.foldl (fun m e => Mem.writeBytes m (0x50000 + e.1) e.2) [] } }

/-- A posted copy of 128 bytes as entry 1 of the chain at 0x1000. -/
theorem witness_entry_accept :
    let s := tabled [(0x1000, leBytes 64 0x1040), (0x1040, leBytes 64 (1 + 2 ^ 96 + 2 ^ 112 + 128 * 2 ^ 192))]
    let c : Chain := { ctx := 0, desc := 0x1000, fabric := false, next := 1, completed := 0, look := true }
    (s.pkg.ctxLive 0 && !c.halted && c.look &&
      match s.pkg.bookRead 0 0x1000 64 with
      | (p1, some d) => !cdBad d false &&
        (match p1.bookRead 0 (cdSlot d 1) 64 with
        | (p2, some w) => bits w 103 96 == 1 && bits w 63 0 == 1 && p2.released none []
        | _ => false)
      | _ => false) = true := by decide +kernel

theorem witness_watch_poll :
    let s : State := { idle with pkg := { idle.pkg with
      ctxs := idle.pkg.ctxs.mapVals fun _ c => { c with watched := [0x1000] }
      chains := [(Pkg.chainKey 0 0x1000, { ctx := 0, desc := 0x1000, fabric := false, next := 1, completed := 0 })] } }
    ((s.pkg.ctxs.get? 0).any (fun c => c.watched.contains 0x1000) && s.pkg.ctxLive 0 && (s.pkg.chains.get? (Pkg.chainKey 0 0x1000)).any fun c => !c.halted && c.next != 0) = true := by
  decide +kernel

/-- An entry in execution for context 0. -/
def running (kind : Nat) (dest : DWord) (more : Entry → Entry := id) : Entry :=
  let e : Entry :=
    { ctx := 0, vf := 0, chain := some (0x1000, 1), sid := none, tree := none, lease := placedLease, kind := kind
      source := 0, dest := dest, counter := 0, hasCounter := false, peer := 1, format := 0, reduction := 0, length := 128 }
  more e

def withEntry (e : Entry) (s : State) : State := { s with pkg := { s.pkg with entries := [(9, e)] } }

/-- A copy's line to the die scratchpad, and to a mapped page. -/
theorem witness_copy_line :
    let e := running 1 0x1000000000000000 fun e => { e with destAt := some (.die 0 0) }
    let s := withEntry e (withShare (tabled []))
    (s.pkg.entryActive e && s.pkg.chooseSides e == e && match Pkg.fetchSource s.pkg 9 e 128 with
      | (q, .ok _) => q.homeReady (.die 0 0) && q.entries.get? 9 == some e
      | _ => false) = true ∧
    (let e := running 1 0x10000
     let s := withEntry e (mapped idle)
     s.pkg.entryActive e && s.pkg.chooseSides e == e && match Pkg.fetchSource s.pkg 9 e 128 with
      | (q, .ok _) => q.entries.get? 9 == some e &&
        (match q.pieceLocs e needWrite (Pkg.pieces 0x10000 128) with
        | (r, .ok ls) => r.entries == q.entries && ls.all fun x => match x.1 with | .hbm _ => true | _ => false
        | _ => false)
      | _ => false) = true := by decide +kernel

theorem witness_packet_send :
    let e := running 2 0x10000 fun e => { e with inlineData := some (List.replicate 128 7) }
    let s := withEntry e (ganged idle)
    (s.pkg.entryActive e && (s.pkg.gangEntry 0 1).any (fun g => (s.pkg.transferPlane g.1 0).isSome) &&
      s.pkg.chooseSides e == e && match Pkg.fetchSource s.pkg 9 e 128 with
      | (q, .ok _) => q.entries.get? 9 == some e
      | _ => false) = true := by decide +kernel

theorem witness_entry_complete :
    let e := running 1 0x10000 fun e => { e with done := 128 }
    let s := withEntry e (tabled [(0x1000, leBytes 64 0x1040)])
    let c : Chain := { ctx := 0, desc := 0x1000, fabric := false, next := 2, completed := 0 }
    let s : State := { s with pkg := { s.pkg with chains := [(0x1000, c)] } }
    (s.pkg.entryOver 9 e == some 2 && s.pkg.chains.get? 0x1000 == some c && 1 == c.completed + 1 && c.finished == [] &&
      match (Pkg.bookRead { s.pkg.abandonLines 9 true with entries := s.pkg.entries.erase 9 } 0 0x1000 64) with | (_, some _) => true | _ => false) = true := by decide +kernel

/-- A packet of an operation, with its generation, target and payload, from context 0 under lease 1. -/
def packetOf (op gen target : Nat) (payload : List Byte) (operand : Nat := 0) : Packet :=
  let h : Head :=
    { op := op, channel := 0, vf := 0, dest := 0, source := 3, gen := gen, flits := flitsOf payload.length
      counted := false, last := true, tag := 77, bytes := payload.length, target := target, counter := 0
      operand := operand, lease := 1, ctx := 0 }
  { header := h.flit, payload := payload }

/-- For every request: performed with its checks passing, stale, early, failing, and held; and a packet that is not sound. -/
theorem witness_requests :
    let data : List Byte := List.replicate 8 5
    let s := withShare idle
    [(0x01, 0), (0x02, 1), (0x03, 0), (0x04, 64), (0x05, 0)].all (fun e =>
      let k (gen target : Nat) : Packet := packetOf e.1 gen target data e.2
      soundPacket (k 0 (2 ^ 60)) && (headOf (k 0 (2 ^ 60))).op == e.1 &&
      s.pkg.ageOf 0 128 == .stale && s.pkg.ageOf 0 255 == .stale && s.pkg.ageOf 0 127 == .retry && s.pkg.ageOf 0 0 == .perform &&
      !Pkg.behindHeld (headOf (k 0 (2 ^ 60))) (s.pkg.vfs.get 0 {}).faultHold && (Pkg.behindHeld (headOf (k 0 (2 ^ 60))) [k 0 (2 ^ 60)] || e.1 ≤ 2) &&
      (match s.pkg.checkRequest (headOf (k 0 (2 ^ 60))) with | (_, .ok _ none) => true | _ => false) &&
      (match s.pkg.checkRequest (headOf (k 0 (2 ^ 55))) with | (_, .fail _) => true | _ => false)) = true ∧
    soundPacket { header := 0, payload := [] } = false := by decide +kernel

theorem witness_held_request :
    let s : State := { idle with pkg := { idle.pkg with ctxs := idle.pkg.ctxs.mapVals fun _ c => { c with leases := [(1, [⟨0, 100, true⟩])] } } }
    (match s.pkg.checkRequest (headOf (packetOf 0x01 0 0x30000 [1])) with | (_, .elastic _) => true | _ => false) = true := by decide +kernel

/-- The ends of the ranges of the generations: 128 behind, 127 ahead, and one behind in and after the drain window. -/
theorem witness_generations :
    ((128 + 128) % 256 = 0 ∧ (0 + 127) % 256 = 127 ∧ (255 + 1) % 256 = 0 ∧ 255 < 256) ∧
    (let s : State := { idle with pkg := { idle.pkg with vfs := [(0, { drainEnd := some 5 })] } }
     s.pkg.time < 5) := by decide +kernel

/-- A request of an entry, and one of a strand, that wait for a reply. -/
def asked (sid : Option Nat) (entry : Option (Nat × Nat)) (s : State) (resend : Bool := false) : State :=
  { s with pkg := { s.pkg with sent := [{ tag := 77, packet := packetOf 0x03 0 0 [], plane := 2, time := 0, sid := sid, entry := entry, resend := resend }] } }

theorem witness_replies :
    let s := asked none (some (9, 0)) (withEntry (running 2 0 fun e => { e with acks := [(4, false)] }) idle)
    ([0x08, 0x09, 0x0C, 0x0D, 0x0E, 0x0F].all (fun op =>
      let k := packetOf op 0 0 [1, 2, 3, 4]
      soundPacket k && (headOf k).op == op && (s.pkg.sent.find? (fun y => y.tag == (headOf k).tag)).isSome &&
        s.pkg.ageOf (headOf k).vf (headOf k).gen != .stale) && (s.pkg.entries.get? 9).any fun c => c.status.isNone) = true := by
  decide +kernel

theorem witness_reply_to_a_strand :
    let l : RemoteLane := { lane := 0, reg := 6, addr := 0, tag := 77 }
    let o : Op := { id := 1, flag := 0, dests := [6], entry := true, kind := .remote 4 [l] }
    let s := asked (some 0) none (before 0 6 2 4 [] fun st => { st with ops := [o] })
    (s.pkg.strand? 0).any (fun st => st.ops == [o] && !l.answered && l.failed.isNone) = true := by decide +kernel

/-- A resend due after 1 µs on a live plane; a loss on a plane that is down; a held request; the ports. -/
theorem witness_losses :
    let later (s : State) : State := { s with pkg := { s.pkg with time := 20000 } }
    let s := later (asked none (some (9, 0)) (withEntry (running 2 0) idle) true)
    let down : State := { s with pkg := { s.pkg with planesDown := [2] } }
    let held : State := { withShare idle with pkg := { (withShare idle).pkg with vfs := [(0, { resident := some 0, faultHold := [packetOf 0x01 0 (2 ^ 60) [1]] })] } }
    ((s.pkg.sent.find? (fun y => y.tag == 77 && y.resend)).any (fun y => decide (y.time + 1000 ≤ s.pkg.time)
        && (s.pkg.planeNow { y with resend := false }).isSome && (headOf y.packet).gen % 256 == (s.pkg.vfs.get (headOf y.packet).vf {}).gen % 256) &&
      (down.pkg.sent.find? (fun y => y.tag == 77)).any (fun x => !x.queued && down.pkg.planeLost x && decide (x.time + 20000 ≤ down.pkg.time)) &&
      (match held.pkg.checkRequest (headOf ((held.pkg.vfs.get 0 {}).faultHold.headD (packetOf 0 0 0 []))) with | (_, .ok _ _) => true | _ => false) &&
      [(0x10, 25), (0x12, 24)].all fun e =>
        soundPacket (s.pkg.systemPacket e.1 e.2 0 []) && (headOf (s.pkg.systemPacket e.1 e.2 0 [])).channel == e.2) = true ∧ (47 < 48 ∧ 47 ∉ idle.pkg.planesDown) := by
  decide +kernel

/-! ### Raisings and the framer -/

/-- Entries that the table takes, refuses, holds already, and finds out of sequence. -/
theorem witness_raising_table :
    let e (kind seq time : Nat) : BitVec 256 := rtEntry time 0 5 1 1 kind seq
    let p := idle.pkg
    (p.lastRaisingSeq + 1) % 256 = 0 ∧ rtSequence (e 0 0 60000) = 0 ∧ Pkg.refusesEntry { p with lastRaisingSeq := 0 } (e 0 0 60000) = false ∧
    Pkg.refusesEntry { p with lastRaisingSeq := 0 } (e 0 0 100) = true ∧ rtFunctions (e 0 0 100) = [0] ∧ rtSequence (e 0 3 60000) ≠ 0 ∧
    (e 0 0 60000) ∈ [e 0 0 60000] ∧ (p.vfs.get 0 {}).outClosed = false ∧
    (let k := p.systemPacket 0x11 25 0 (leBytes 32 (e 0 0 60000).toNat)
     soundPacket k = true ∧ (headOf k).op = 0x11 ∧ (headOf k).channel = 25 ∧ Pkg.raisingOf k = e 0 0 60000 ∧
       soundPacket { k with payload := [] } = false) := by decide +kernel

/-- A due entry of each kind, for a function with its clusters empty. -/
theorem witness_raisings :
    let e (kind : Nat) : BitVec 256 := rtEntry 0 0 5 1 1 kind 7
    let s (kind : Nat) : State := { idle with pkg := { idle.pkg with
      clusters := [], raisings := [e kind], vfs := [(0, { openOut := if kind = 2 then some (6, 0, 1, 0) else none })] } }
    [0, 1, 2].all (fun k =>
      rtFunctions (e k) == [0] && rtKind (e k) == k && (s k).pkg.raisings.find? (fun x => rtSequence x == 7 && rtKind x == k) == some (e k) &&
      decide (rtTime (e k) ≤ (s k).pkg.time) && !((s k).pkg.vfs.get 0 {}).stopped && !((s k).pkg.vfs.get 0 {}).heldRefused &&
      !((s k).pkg.vfs.get 0 {}).heldOutOfStep && (k != 2 || ((s k).pkg.vfs.get 0 {}).openOut.isSome) &&
      (Pkg.clustersOf 0).all fun c => ((s k).pkg.clusters.get c {}).occupant.isNone && !((s k).pkg.clusters.get c {}).halted) = true := by
  decide +kernel

/-- A saved section whose restore is due; an open drain window that is over; an urgent tree whose limit has run out. -/
theorem witness_restores :
    let s : State := { idle with pkg := { idle.pkg with
      clusters := [(0, { restore := true })]
      ctxs := idle.pkg.ctxs.mapVals fun _ c => { c with saved := 1 }
      vfs := [(0, { incoming := some 0, drainEnd := some 0, openOut := some (6, 0, 1, 0) })]
      trees := idle.pkg.trees.mapVals fun _ t => { t with urgent := some 0 } } }
    ((s.pkg.clusters.get 0 {}).restore && (s.pkg.ctxs.get? 0).any (fun c => c.heldRecords == [] && c.vf == 0 && c.saved.getLsbD 0 &&
        (s.pkg.restoredRanges 0 0).all fun x => !s.pkg.areaBad c x.1 x.2) && s.pkg.bentsOn 0 0 != [] && s.pkg.staggered 0 && clusterVf 0 == 0 && s.pkg.vfOf 0 == 0 &&
      (s.pkg.trees.get? 2).any (fun t => t.urgent == some 0 && t.ctx == 0)) = true := by decide +kernel

/-- The framer's part: live, not yet taken, this package; a request of a package with room; a measurement in each state. -/
theorem witness_framer :
    let s : State := { idle with pkg := { idle.pkg with framers := [(0, (255, 0))] } }
    let f : State := { idle with pkg := { idle.pkg with framer := some 0 } }
    let e := rtEntry 60000 0 5 1 0x3FFFF 0 (f.pkg.nextSequence 4)
    (s.pkg.liveFramer == some 0 && s.pkg.framer != some 0 && f.pkg.framer == some f.pkg.yardPort && decide ((f.pkg.unretired 4).length < 256) &&
      rtKind e == 0 && bits e.toNat 255 224 == 0 && bits e.toNat 215 212 == 0 && rtFootprint e == 0x3FFFF && rtSequence e == f.pkg.nextSequence 4 && f.pkg.inStep && f.pkg.goodOffsets == 0 &&
      f.pkg.ptpStamps == [] && Pkg.ptpStamps { f.pkg with ptpStamps := [(47, f.pkg.time)] } != []) = true := by
  decide +kernel

/-! ### Rings -/

/-- Ring 0 of 4 KiB at 0x1000, with a packet at its head, acquired up to its tail. -/
def ringed (header : Nat) (body : List Byte) (hold : Option RingHold := none) : State :=
  let d := 0x1000 + (16 + body.length) * 2 ^ 128 + 12 * 2 ^ 192 + 2 ^ 202
  let s := tabled [(0, leBytes 64 d), (0x1000, leBytes 16 header ++ body)]
  { s with pkg := { s.pkg with
      ctxs := s.pkg.ctxs.mapVals fun _ c => { c with rings := [(0, { checked := true, tail := 16 + body.length, hold := hold })] } } }

/-- A packet of each type at the head: good, and bad where its clauses tell the two apart. -/
theorem witness_ring_packets :
    let head (s : State) (f : Pkg → Nat → List Byte → Bool) : Bool := match s.pkg.headPacket 0 0 with
      | (q, some (_, h, body)) => f q h body
      | _ => false
    let unit (n : Nat) : Nat := n * 2 ^ 16
    (head (ringed (1 + unit 5) (leBytes 64 placedDesc.toNat)) (fun q h body => phType h == 1 && (q.ctxs.get? 0).any fun c =>
        descValid (BitVec.ofNat 512 (leNat body)) c.leases && decide (ldItems (BitVec.ofNat 512 (leNat body)) ≤ 96)) &&
     head (ringed (1 + unit 5) (leBytes 64 0)) (fun q _ body => (q.ctxs.get? 0).any fun c => !descValid (BitVec.ofNat 512 (leNat body)) c.leases) &&
     head (ringed (2 + unit 2) (leBytes 16 0)) (fun q h body => phType h == 2 && (q.packetLoc 0 (leNat (body.take 8)) needRead).2.isSome) &&
     head (ringed (2 + unit 2) (leBytes 16 0x5000000)) (fun q _ body => (q.packetLoc 0 (leNat (body.take 8)) needRead).2.isNone) &&
     head (ringed (3 + unit 2) (leBytes 16 0)) (fun q h body => phType h == 3 && (q.packetLoc 0 (leNat (body.take 8)) needWrite).2.isNone) &&
     [0, 1, 2].all (fun f => head (ringed (4 + unit 1 + f * 256) []) fun _ h _ => phType h == 4 && phFlags h == f) &&
     head (ringed (5 + unit 3) (leBytes 16 (2 + 2 ^ 16) ++ leBytes 16 (0x10000 + 2 ^ 64))) (fun q h body =>
       let units := Pkg.units16 (phLength h - 1) body
       phType h == 5 && (leaseFault (units.headD 0) (units.drop 1)).isNone && !q.leaseUsed 0 2) &&
     head (ringed (5 + unit 3) (leBytes 16 (2 + 2 ^ 16) ++ leBytes 16 0)) (fun _ h body =>
       let units := Pkg.units16 (phLength h - 1) body
       (leaseFault (units.headD 0) (units.drop 1)).isSome) &&
     head (ringed (6 + unit 1) []) fun _ h _ => phType h == 6) = true := by decide +kernel

/-- What a poll meets and what ends a hold. -/
theorem witness_ring_service :
    let s := ringed (6 + 2 ^ 16) []
    let desc (s : State) (f : Nat → Bool) : Bool := (s.pkg.ringDesc 0 0).2.any f
    (s.pkg.served 0 && desc s (fun d => rdEnable d && !rdStopped d && (ringDescFault d 0).isNone &&
        decide (rdHead d ≤ rdTail d ∧ rdTail d - rdHead d ≤ ringSize d ∧ rdTail d % 16 = 0)) && (s.pkg.ringOf 0 0).checked &&
      desc (tabled [(0, leBytes 64 (2 ^ 202))]) (fun d => rdEnable d && (ringDescFault d 0).isSome) &&
      desc (tabled []) (fun d => !rdEnable d) &&
      (match (ringed (2 + 2 ^ 17) (leBytes 16 0) (some (.word (.hbm 0) 0 false))).pkg.readHome (.hbm 0) 8 with | (_, v) => decide (0 ≤ leNat v)) &&
      ((ringed (4 + 2 ^ 16) [] (some (.fence [99] none))).pkg.trees.get? 99).isNone &&
      !(ringed (6 + 2 ^ 16) [] (some (.lease 2 []))).pkg.leaseUsed 0 2) = true := by decide +kernel

/-- A WRITE packet to a mapped page. -/
theorem witness_ring_write :
    let r := ringed (3 + 2 ^ 17) (leBytes 8 0x10000 ++ leBytes 8 0)
    let s := { mapped r with pkg := { (mapped r).pkg with mem := (mapped r).pkg.mem ++ r.pkg.mem } }
    (match s.pkg.headPacket 0 0 with
      | (q, some (_, h, body)) => phType h == 3 && (q.packetLoc 0 (leNat (body.take 8)) needWrite).2.isSome
      | _ => false) = true := by decide +kernel

/-! ### POLLQ -/

/-- Ring 16 holds a packet; a strand polls it, and one is parked on it. -/
theorem witness_pollq :
    let d := 0x1000 + 16 * 2 ^ 128 + 12 * 2 ^ 192 + 2 ^ 200 + 2 ^ 202
    let first (p : Pkg) : Option Nat := (p.firstRing 0 1 ((List.range 64).map fun k => k % 64)).2
    admitted (tabled [(1024, leBytes 64 d)] (before 0xC3 6 2 4 [(2, 1)])) 0xC3 6 2 4 (fun x => x.env.get64 x.a 0 == 1 && first x.p == some 0) = true ∧
    first (tabled [(1024, leBytes 64 d)] (before 0 6 2 4 [] fun st => { st with park := some (.pollq 1 6) })).pkg = some 0 := by
  decide +kernel

/-! ### Collective rings -/

/-- A request of communicator 0: its sequence, its operation, its reduction's type FP32, one element, from 0x1100 to 0x10000. -/
def cqRequest (seq op : Nat) : Nat := seq + op * 2 ^ 160 + 2 ^ 192 + 0x1100 * 2 ^ 256 + 0x10000 * 2 ^ 320 + 0x1200 * 2 ^ 384

/-- Collective ring 0 of a resident context of gang rank 0, with a request at its head, in a communicator of ranks 0 and 1. -/
def collecting (r : Nat) : State :=
  let d := 0x1000 + 128 * 2 ^ 128 + 12 * 2 ^ 192 + 2 ^ 200 + 2 ^ 202
  let t := tabled [(1024, leBytes 64 d), (0x1000, leBytes 128 r)]
  let s := { mapped t with pkg := { (mapped t).pkg with mem := (mapped t).pkg.mem ++ t.pkg.mem } }
  { s with pkg := { s.pkg with
      vfs := [(0, { resident := some 0 })]
      ctxs := s.pkg.ctxs.mapVals fun _ c => { c with record := c.record ||| (1 : BitVec 1024) <<< 204, comms := [(0, [0, 1])], gang := [(0, 0x8000)] } } }

/-- What a request at the head meets: its sequence is not the next one; it names nothing; another member's differs; all is done. -/
theorem witness_collectives :
    let meets (s : State) (f : Pkg → Ctx → Nat → Bool) : Bool :=
      s.plat.booted == 4 && (s.pkg.ctxs.get? 0).any fun c =>
        crReservedCores c.record != 0 && (s.pkg.vfs.get c.vf {}).resident == some 0 &&
          match s.pkg.ringReady 0 0, (s.pkg.ringDesc 0 16).2 with
          | (q, true), some d =>
            match q.amiahRead 0 (ringAddr d (rdHead d)) 128 with
            | (p, some b) => f p c (leNat b)
            | _ => false
          | _, _ => false
    let after (s : State) (n : Nat) : State :=
      { s with pkg := { s.pkg with ctxs := s.pkg.ctxs.mapVals fun _ c => { c with collectives := [(0, n)] } } }
    let other (op : Nat) : CollectivePeer := { rank := 1, request := leBytes 128 (cqRequest 5 op), data := leBytes 4 0x3F800000 }
    (meets (after (collecting (cqRequest 5 0)) 5) (fun _ c r => (c.collectives.get? 0).any fun n => cqSequence r != (n + 1) % 2 ^ 64) &&
     meets (collecting (cqRequest 5 7)) (fun _ c r => (c.collectives.get? 0).isNone && cqIllegal r) &&
     [0, 2].all (fun op => meets (after (collecting (cqRequest 5 0)) 4) (fun p c r =>
       let own := (p.ownRank 0).toNat
       ((c.collectives.get? 0).any fun n => cqSequence r == (n + 1) % 2 ^ 64) && !cqIllegal r &&
         match Pkg.takePart c own r with
         | some members =>
           match Pkg.peersOf [other op] own r members with
           | some others =>
             if op == 2 then others.any fun x => !cqAgree r (leNat x.request)
             else others.all (fun x => cqAgree r (leNat x.request) && x.failed.isNone) &&
               match p.amiahRead 0 (cqSend r) (sentBytes r own members.length) with
               | (m, some mine) =>
                 (m.amiahWrite 0 (cqReceive r) (receivedBytes r (members.idxOf own) [(0, mine), (1, leBytes 4 0x3F800000)])).2
               | _ => false
           | none => false
         | none => false))) = true := by decide +kernel

/-! ### A clause -/

/-- A package with other cached translations. -/
def withTlb (p : Pkg) (l : List TlbEntry) : Pkg := { p with tlb := l }

theorem cached_mem {p : Pkg} {port : TlbHome} {cid vf vpn : Nat} {t : TlbEntry} (h : p.cached port cid vf vpn = some t) :
    t ∈ p.tlb := by
  obtain ⟨k, -, hk⟩ := List.exists_of_findSome?_eq_some h
  exact List.mem_of_find?_eq_some hk

theorem mem_of_mem_trimmed {c : Prop} [Decidable c] {f : TlbEntry → Bool} {l : List TlbEntry} {x : TlbEntry}
    (h : x ∈ if c then l.eraseP f else l) : x ∈ l := by
  split at h
  · exact List.mem_of_mem_eraseP h
  · exact h

theorem putTlb_like {p : Pkg} {l ts : List TlbEntry} {t : TlbEntry} (hl : ∀ x ∈ l, x ∈ ts) (ht : t ∈ ts) :
    ∃ l', (∀ x ∈ l', x ∈ ts) ∧ (withTlb p l).putTlb t = withTlb p l' := by
  refine ⟨_, ?_, rfl⟩
  intro x hx
  simp only [List.mem_append, List.mem_singleton] at hx
  rcases hx with hx | rfl
  · refine hl x ?_
    exact List.mem_of_mem_filter (mem_of_mem_trimmed hx)
  · exact ht

theorem putTlbs_like {p : Pkg} {ts : List TlbEntry} {t : TlbEntry} {vpn : Nat} (hs : List TlbHome)
    (ht : ∀ h ∈ hs, t.heldAt vpn h ∈ ts) :
    ∀ l : List TlbEntry, (∀ x ∈ l, x ∈ ts) → ∃ l', (∀ x ∈ l', x ∈ ts) ∧ (withTlb p l).putTlbs vpn t hs = withTlb p l' := by
  induction hs with
  | nil => exact fun l hl => ⟨l, hl, rfl⟩
  | cons h hs ih =>
    intro l hl
    obtain ⟨m, hm, e⟩ := putTlb_like (p := p) hl (ht h (List.mem_cons_self ..))
    obtain ⟨n, hn, e'⟩ := ih (fun k hk => ht k (List.mem_cons_of_mem _ hk)) m hm
    exact ⟨n, hn, by simpa [Pkg.putTlbs, e] using e'⟩

/-- A strand of core 0 that is to enter the clause at 0x10000: NOP, and nothing else. -/
def coded : State :=
  let s := mapped (idle fun st => { st with clause := 0x10000, slot := 0, words := [] })
  { s with pkg := { s.pkg with mem := s.pkg.mem.writeBytes 0x30000 (wordBytes (encodeHeader 1 0 0 0 false) ++ wordBytes 0x27000380 ++ wordBytes (encodeTrailer 0)) } }

def codedIdle : Strand := (coded.pkg.strand? 0).getD (placedStrand 0 false)
/-- The strand as it enters the clause, and the package in which it fetches it. -/
def codedStrand : Strand := { codedIdle with aging := 0, lastIssue := coded.pkg.issues + 1, yieldUntil := none }
def codedIn : Pkg :=
  Pkg.setStrand { coded.pkg.endYields 0 (coded.pkg.priority codedIdle) with issues := coded.pkg.issues + 1 } 0 codedStrand
def codedLease : List LeaseRange := codedIn.leaseOf codedStrand
def codedHead : Word := encodeHeader 1 0 0 0 false
def codedNop : Word := 0x27000380
def codedEnd : Word := encodeTrailer 0
def codedClause : List Word := [codedHead, codedNop, codedEnd]

/-- The translation of page 1 as the core and the die hold it. -/
def codedLeaf : Nat := 0x1000000003007E
def codedEntry (h : TlbHome) : TlbEntry :=
  { home := h, ctx := 0, vpn := 1, span := 1, leaf := BitVec.ofNat 64 codedLeaf, dirty := [1] }
def codedEntries : List TlbEntry := [codedEntry (.core 0), codedEntry (.die 0)]

/-- What a fetch from the page meets, whichever of these translations is held. -/
def fetches (p : Pkg) (va : Nat) (w : Word) : Bool :=
  match p.ctxs.get? 0 with
  | some c =>
    decide (p.twinTable 0 va = none) && decide (leaseRange? codedLease va = some ⟨0, 2 ^ 39 - 1, false⟩) &&
      decide (va / 65536 = 1 ∧ c.vf = 0 ∧ sidCk 0 % 1024 = 0 ∧ sidCtx 0 = 0) &&
      decide (p.useLeaf 0 0 va codedLeaf needFetch = .ok (.hbm (0x20000 + va))) &&
      decide (p.walkBad (crRoot c.record) va = false) && ((walkReads p (crRoot c.record) va).all fun a => !isAliasPa a) &&
      decide (walkTree p (crRoot c.record) va = .leaf 0x20008 codedLeaf) &&
      !p.isBad (.hbm (0x20000 + va)) && !isAliasPa (0x20000 + va) && decide (p.mem.readBytes (0x20000 + va) 4 = wordBytes w)
  | none => false

theorem coded_entries : ∀ t ∈ codedEntries, t.leafAt 1 = codedLeaf ∧ ∀ h ∈ TlbHome.levels 0 (.core 0), t.heldAt 1 h ∈ codedEntries := by
  decide +kernel
theorem coded_install : ∀ h ∈ TlbHome.levels 0 (.core 0), (codedEntry (.core 0)).heldAt 1 h ∈ codedEntries := by decide +kernel
theorem coded_leaf : leafSpanPages codedLeaf = 1 ∧ leafDirty codedLeaf = true ∧ codedLeaf ||| 0x40 = codedLeaf := by decide +kernel

/-- A walk that reads no codebook window leaves the package as it is. -/
theorem readWalk_plain {p : Pkg} {root va : Nat} (h : ((walkReads p root va).all fun a => !isAliasPa a) = true) :
    p.readWalk root va = p := by
  have h : ∀ a ∈ walkReads p root va, isAliasPa a = false := by simpa using h
  unfold Pkg.readWalk
  generalize walkReads p root va = l at h
  induction l with
  | nil => rfl
  | cons a l ih =>
    have ha := h a (List.mem_cons_self ..)
    rw [List.foldl_cons, show (p.readL2 a 8).1 = p by simp [Pkg.readL2, ha]]
    exact ih fun b hb => h b (List.mem_cons_of_mem _ hb)

theorem translate_like {p : Pkg} {va : Nat} {w : Word} (h : fetches p va w = true) {l : List TlbEntry}
    (hl : ∀ t ∈ l, t ∈ codedEntries) :
    ∃ l', (∀ t ∈ l', t ∈ codedEntries) ∧
      (withTlb p l).translate (.core (sidCk 0 % 1024)) (sidCtx 0) codedLease va needFetch =
        (withTlb p l', .ok (.hbm (0x20000 + va))) := by
  unfold fetches at h
  split at h
  · next c hc =>
    simp only [Bool.and_eq_true, decide_eq_true_eq, Bool.not_eq_true'] at h
    obtain ⟨⟨⟨⟨⟨⟨⟨⟨⟨h1, h2⟩, h3, h4, h5, h6⟩, h7⟩, h8⟩, hr⟩, h9⟩, -⟩, -⟩, -⟩ := h
    have hc' : (withTlb p l).ctxs.get? 0 = some c := hc
    have ht : (withTlb p l).twinTable 0 va = none := h1
    have hu : (withTlb p l).useLeaf 0 0 va codedLeaf needFetch = .ok (.hbm (0x20000 + va)) := h7
    rw [h5, h6]
    unfold Pkg.translate
    rw [ht]
    simp only [h2]
    cases e : (withTlb p l).cached (.core 0) 0 c.vf (va / 65536) with
    | none =>
      rw [translateIn_miss hc' e]
      have hb : (withTlb p l).walkBad (crRoot c.record) va = false := h8
      have hw : walkTree (withTlb p l) (crRoot c.record) va = .leaf 0x20008 codedLeaf := h9
      unfold Pkg.walk
      have hn : needFetch.write = false := rfl
      have hrw : (withTlb p l).readWalk (crRoot c.record) va = withTlb p l := readWalk_plain (p := withTlb p l) hr
      simp only [hc', hb, hrw, hw, h4, hu, hn, Bool.false_and, Bool.false_eq_true, if_false]
      obtain ⟨k1, k2, k3⟩ := coded_leaf
      obtain ⟨l', hl', el⟩ := putTlbs_like (p := p) (TlbHome.levels 0 (.core 0)) coded_install l hl
      refine ⟨l', hl', ?_⟩
      rw [← el]
      simp [Pkg.markLeaf, k3, Pkg.install, k1, k2, h3, codedEntry]
    | some t =>
      obtain ⟨k1, k2⟩ := coded_entries t (hl t (cached_mem e))
      rw [translateIn_hit hc' e (by rw [h3, k1, h4]; exact hu) rfl]
      obtain ⟨l', hl', el⟩ := putTlbs_like (p := p) (t := t) (vpn := va / 65536)
        ((TlbHome.levels c.vf (.core 0)).takeWhile fun h => h != t.home)
        (fun k hk => by rw [h3]; rw [h4] at hk; exact k2 k ((List.takeWhile_prefix _).subset hk)) l hl
      exact ⟨l', hl', by rw [el]⟩
  · cases h

theorem fetch_like {p : Pkg} {va : Nat} {w : Word} (h : fetches p va w = true) (hw : BitVec.ofNat 32 (leNat (wordBytes w)) = w)
    {l : List TlbEntry} (hl : ∀ t ∈ l, t ∈ codedEntries) :
    ∃ l', (∀ t ∈ l', t ∈ codedEntries) ∧ (withTlb p l).fetchWord 0 codedLease va = (withTlb p l', .ok w) := by
  obtain ⟨l', hl', e⟩ := translate_like h hl
  refine ⟨l', hl', ?_⟩
  unfold fetches at h
  split at h
  · simp only [Bool.and_eq_true, decide_eq_true_eq, Bool.not_eq_true'] at h
    obtain ⟨⟨⟨-, hb⟩, ha⟩, hm⟩ := h
    have hb' : (withTlb p l').isBad (.hbm (0x20000 + va)) = false := hb
    have hr : (withTlb p l').readHome (.hbm (0x20000 + va)) 4 = (withTlb p l', wordBytes w) := by
      have hm' : (withTlb p l').mem.readBytes (0x20000 + va) 4 = wordBytes w := hm
      simp [Pkg.readHome, Pkg.readLoc, Pkg.loadVia, Pkg.readL2, ha, hm']
    unfold Pkg.fetchWord
    rw [e]
    simp only [hb', hr, hw]
    rfl
  · cases h

/-- The header of the clause. -/
def codedHeader : Header := ⟨1, 0, 0, 0, false, false⟩

theorem clause_fetched {p : Pkg}
    (h : fetches p 0x10000 codedHead = true ∧ fetches p 0x10004 codedNop = true ∧ fetches p 0x10008 codedEnd = true) :
    ∃ l, (withTlb p []).fetchClause 0 codedLease codedIdle.nregs false 0x10000 = (withTlb p l, .ok codedClause) := by
  obtain ⟨l0, h0, e0⟩ := fetch_like h.1 (by decide +kernel) (l := []) (by simp)
  obtain ⟨l1, h1, e1⟩ := fetch_like h.2.1 (by decide +kernel) h0
  obtain ⟨l2, -, e2⟩ := fetch_like h.2.2 (by decide +kernel) h1
  have hd : decodeHeader codedHead = some codedHeader := by decide +kernel
  have hc : checkClause codedIdle.nregs false codedHeader [codedNop, codedEnd] = .ok 0 := by decide +kernel
  have hb : badHeader codedHeader = false := by decide +kernel
  have hn : codedHeader.count = 1 := rfl
  exact ⟨l2, by simp [Pkg.fetchClause, e0, hd, hb, hn, Pkg.fetchWords, e1, e2, hc, codedClause]⟩

theorem coded_words :
    (fetches codedIn 0x10000 codedHead = true ∧ fetches codedIn 0x10004 codedNop = true ∧ fetches codedIn 0x10008 codedEnd = true) ∧
    (fetches coded.pkg 0x10000 codedHead = true ∧ fetches coded.pkg 0x10004 codedNop = true ∧ fetches coded.pkg 0x10008 codedEnd = true) := by
  decide +kernel

theorem coded_tlb : withTlb codedIn [] = codedIn ∧ withTlb coded.pkg [] = coded.pkg := ⟨rfl, rfl⟩

theorem coded_ready : coded.pkg.isReady 0 codedIdle = true := by
  have h0 : (coded.pkg.mayIssue 0 codedIdle && coded.pkg.yieldOver 0 codedIdle && !coded.pkg.clauseHeld codedIdle codedClause) = true := by
    decide +kernel
  simp only [Bool.and_eq_true, Bool.not_eq_true'] at h0
  have h1 : coded.pkg.leaseOf codedIdle = codedLease ∧ codedIdle.truss = false ∧ codedIdle.clause.toNat = 0x10000 := by
    decide +kernel
  obtain ⟨l, e⟩ := clause_fetched coded_words.2
  rw [coded_tlb.2] at e
  unfold Pkg.isReady Pkg.couldIssue Pkg.nextClause
  rw [h1.1, h1.2.1, h1.2.2, e, h0.1.1, h0.1.2]
  simp [Except.toOption, h0.2]

theorem coded_chosen : coded.pkg.chooseStrand 0 = some (0, codedIdle) := by
  have h0 : coded.pkg.coreStrands 0 = [(0, codedIdle)] := by decide +kernel
  have h1 : (decide (65536 ≤ codedIdle.aging)) = false := by decide +kernel
  unfold Pkg.chooseStrand
  simp only [h0, List.filter_cons, coded_ready, List.filter_nil, if_true, List.find?_cons, h1, List.find?_nil]
  rfl

/-- The clause is fetched and entered. -/
theorem witness_clause :
    ∃ l, coded.pkg.chooseStrand 0 = some (0, codedIdle) ∧ coded.pkg.isExhausted 0 = false ∧ codedIdle.slot = 0 ∧
    codedIn.fetchClause 0 codedLease codedStrand.nregs codedStrand.truss codedStrand.clause.toNat =
      (withTlb codedIn l, .ok codedClause) ∧
    Pkg.clauseFailure codedStrand codedClause = none ∧ (withTlb codedIn l).strand? 0 = some codedStrand := by
  obtain ⟨l, e⟩ := clause_fetched coded_words.1
  rw [coded_tlb.1] at e
  have h : codedStrand.nregs = codedIdle.nregs ∧ codedStrand.truss = false ∧ codedStrand.clause.toNat = 0x10000 := by
    decide +kernel
  have hs : codedIn.strand? 0 = some codedStrand := by decide +kernel
  refine ⟨l, coded_chosen, by decide +kernel, by decide +kernel, ?_, by decide +kernel, hs⟩
  rw [h.1, h.2.1, h.2.2]
  exact e
/-! ### Host commands -/

def keyed : State := { idle with pkg := { idle.pkg with keyVf := [(1, 0)] } }
/-- A context record with its gang table where nothing is mapped; and one with an illegal communicator table besides. -/
def gangless : BitVec 1024 := (0x100000 : BitVec 1024) <<< 256
def badComms : BitVec 1024 := gangless ||| ((1 : BitVec 1024) <<< 384)

/-- CREATE of context 1 and of a taken number; DESTROY of one that is there and one that is not. -/
theorem witness_create : (keyed.pkg.newContext gangless 1 7 8).isSome = true := by decide +kernel
theorem witness_create_refused : (keyed.pkg.newContext gangless 0 7 8).isNone = true := by decide +kernel
theorem witness_destroy : keyed.plat.booted = 4 ∧ (keyed.pkg.ctxs.get? 0).isSome = true ∧ (keyed.pkg.ctxs.get? 1).isNone = true := by
  decide +kernel

/-- Both tables of a context, taken and refused. -/
theorem witness_gang_set :
    let s (r : BitVec 1024) : State := { tabled [] with pkg := { (tabled []).pkg with ctxs := (tabled []).pkg.ctxs.mapVals fun _ c => { c with record := r } } }
    ((s gangless).pkg.readTables 0).isSome = true ∧ ((s badComms).pkg.readTables 0).isNone = true := by decide +kernel

/-- Codes that no command has. -/
theorem witness_unknown_commands :
    [0, 11, 15, 24, 255].all (fun n =>
      let s : State := { idle with pkg := { idle.pkg with hostMem := Mem.write [] 0x1000 (BitVec.ofNat 8 n) } }
      s.plat.booted == 4 && (s.pkg.hostMem.read 0x1000).toNat == n && (n == 0 || decide (10 < n ∧ n < 16) || decide (23 < n))) = true := by
  decide +kernel

/-- A strand parked by a trap, one that is not, one that has ended, and one beside another of its crew. -/
theorem witness_strand_commands :
    let two : State := { idle with pkg := { idle.pkg with
      strands := (1, placedStrand 0 false) :: idle.pkg.strands
      bents := idle.pkg.bents.mapVals fun _ b => { b with crews := b.crews.mapVals fun _ c => { c with sids := [0, 1] } } } }
    (idle fun st => { st with park := some .trapPark }).pkg.strand? (0 * 16384 + 0) ≠ none ∧
    (idle.pkg.strand? 0).map (·.park) = some none ∧
    ((idle fun st => { st with ended := true }).pkg.strand? 0).map (·.ended) = some true ∧
    ((two.pkg.strand? 0).any fun st => !st.ended && st.ops == [] && !st.truss &&
      (two.pkg.crew? st.bent st.crew).any fun c => c.sids.contains 1) = true ∧
    ((two.pkg.strand? 1).any fun w => !w.ended) = true := by decide +kernel

theorem witness_kill_tree :
    (idle.pkg.trees.find? fun t => t.2.ctx == 0 && t.2.seedSeq.toNat == 0).map (·.1) = some 2 ∧
    (idle.pkg.trees.get? 2).isSome = true ∧ (idle.pkg.launches.get? 1).map (·.tree) = some 2 := by decide +kernel

/-- RING_RESTART of a good descriptor and of one with a size of 2^0; twin descriptors; a chain to watch. -/
theorem witness_context_tables :
    let good := 12 * 2 ^ 192 + 2 ^ 202
    let desc (d : Nat) : Option Nat := ((tabled [(0, leBytes 64 d)]).pkg.ringDesc 0 0).2
    ((desc good).any (fun d => (ringDescFault d 0).isNone) && (desc 0).any (fun d => (ringDescFault d 0).isSome) &&
      !Pkg.badTwin 0 && Pkg.badTwin (2 ^ 449) && (idle.pkg.ctxs.get? 0).any (fun c => c.watched.length == 0) &&
      0x1000 % 64 == 0 && 0x1001 % 64 != 0) = true := by decide +kernel

/-- A free key; a free frame and a page of the alias space under Amiah's key, one of them with an entry of a retired key. -/
theorem witness_assignments :
    let p : Pkg := { idle.pkg with keyVf := [(1, 0)], frameKeys := [(9, 32768 + 7)] }
    p.keyVf.get? 2 = none ∧ p.keyVf.get? 1 = some 0 ∧ p.mem.wf = true ∧
    (p.frameKeys.get 8 0).toNat.testBit 15 = false ∧ (p.frameKeys.get 9 0).toNat % 1024 = 7 ∧ p.keyVf.get? 7 = none ∧
    (p.frameKeys.get 0x40000000000 0).toNat.testBit 15 = false := by decide +kernel

/-- The dirty log on and off, no access outstanding; windows legal and illegal; the function running and stopped, and its image. -/
theorem witness_function_commands :
    let on : State := { idle with pkg := { idle.pkg with vfs := [(0, { dirtyOn := some 64 })] } }
    let held : State := { idle with pkg := { idle.pkg with vfs := [(0, { stopped := true, incoming := some 0 })] } }
    (on.pkg.vfs.get 0 {}).dirtyOn = some 64 ∧ (idle.pkg.vfs.get 0 {}).dirtyOn = none ∧ on.pkg.translationsIdle 0 = true ∧
    idle.pkg.badWindow 0 (0x8000000000000, 1) = false ∧ idle.pkg.badWindow 0 (0, 1) = true ∧
    (idle.pkg.vfs.get 0 {}).stopped = false ∧ (held.pkg.vfs.get 0 {}).stopped = true ∧ held.pkg.contextsOf 0 ≠ [] := by decide +kernel

/-- What a block of an image stands for. -/
def shipped : Exported :=
  { ctx := 0, vf := 0, gen := 3, resident := true, context := { record := 0, vf := 0, twinPa := 0, saveArea := 0 }
    strands := [], bents := [], launches := [], trees := [], cores := [], chains := [], entries := [], twins := [], pages := []
    ringTable := [], faultQueue := [], chainDescs := [] }

/-- A sound image of one block, in host memory at 0x1000, for a function without contexts. -/
def imported : State :=
  let digest := shake256 [] 64
  { idle with pkg := { idle.pkg with
      hostMem := Mem.writeBytes [] 0x1000 (leBytes 4 1 ++ leBytes 4 1 ++ leBytes 8 128 ++ digest)
      images := [([], shipped)]
      ctxs := [] } }

def importBytes : List Byte := imported.pkg.hostMem.readBytes 0x1000 128

theorem witness_import_sound :
    imported.pkg.contextsOf 1 = [] ∧ imported.pkg.keyVf.get? 5 = none ∧ 1 ≤ 5 ∧ 5 < 1024 ∧
    (let head := imported.pkg.hostMem.readBytes 0x1000 4096
     leNat (head.take 4) = 1 ∧ leNat ((head.drop 4).take 4) = 1 ∧ leNat ((head.drop 8).take 8) = 128) := by decide +kernel
theorem witness_import_digest : (importBytes.drop 16).take 64 = Pkg.imageDigest importBytes (Pkg.blockOffsets importBytes 1) := by
  decide +kernel
theorem witness_import_blocks : imported.pkg.imageBlocks importBytes 1 = some [(0, 0, shipped)] ∧ 0 % 65536 = 0 ∧ crRoot 0 % 65536 = 0 ∧
    Pkg.areaFits (0 / 65536) (crShare 0) = true ∧ Pkg.areaFits 786431 (crShare 0) = false := by
  decide +kernel

/-- A frame that no entry lists is free. -/
theorem frameFree_unlisted {p : Pkg} {f : Nat} (hf : f < frameCount) (h : f ∉ p.frameKeys.map (·.1)) : p.frameFree f = true := by
  have hg : p.frameKeys.get? f = none := by
    cases e : p.frameKeys.get? f with
    | none => rfl
    | some x => exact absurd (List.mem_map_of_mem (f := (·.1)) (AMap.mem_of_get? _ _ _ e)) h
  simp [Pkg.frameFree, Pkg.unowned, hf, AMap.get, hg, bit]

/-- Some frame is free where fewer frames are listed than there are. -/
theorem freeFrames_some {p : Pkg} (h : p.frameKeys.length + 1 ≤ frameCount) (start : Nat) :
    ∃ f, (p.freeFrames start 1).head? = some f := by
  by_contra hn
  let l := (List.range (p.frameKeys.length + 1)).map fun i => (start + i) % frameCount
  have hall : l.filter p.frameFree = [] := by
    cases e : l.filter p.frameFree with
    | nil => rfl
    | cons a t => exact absurd ⟨a, by unfold Pkg.freeFrames; rw [e]; rfl⟩ hn
  have hnd : l.Nodup := by
    refine List.Nodup.map_on ?_ List.nodup_range
    intro a ha b hb hab
    simp only [List.mem_range] at ha hb
    have : a % frameCount = b % frameCount := Nat.ModEq.add_left_cancel' start hab
    rwa [Nat.mod_eq_of_lt (by omega), Nat.mod_eq_of_lt (by omega)] at this
  have hsub : l ⊆ p.frameKeys.map (·.1) := by
    intro f hf
    by_contra hm
    have hlt : f < frameCount := by
      obtain ⟨i, -, rfl⟩ := List.mem_map.1 hf
      exact Nat.mod_lt _ (by decide)
    have : f ∈ l.filter p.frameFree := List.mem_filter.2 ⟨hf, frameFree_unlisted hlt hm⟩
    rw [hall] at this
    cases this
  have := (List.subperm_of_subset hnd hsub).length_le
  simp [l] at this

theorem length_set {α : Type} (m : AMap α) (i : Nat) (x : α) : (m.set i x).length ≤ m.length + 1 := by
  induction m with
  | nil => simp [AMap.set]
  | cons e m ih =>
    unfold AMap.set
    split_ifs
    · simp
    · simp
    · simpa using ih

theorem rekeyFrame_length (key : Nat) (p : Pkg) (f : Nat) : (p.rekeyFrame key f).frameKeys.length ≤ p.frameKeys.length + 1 := by
  unfold Pkg.rekeyFrame
  refine (length_set _ _ _).trans ?_
  split_ifs
  · exact Nat.add_le_add_right (List.length_filter_le _ _) 1
  · exact Nat.le_refl _

theorem rekeyFrames_length (key : Nat) (l : List Nat) (p : Pkg) :
    (l.foldl (Pkg.rekeyFrame key) p).frameKeys.length ≤ p.frameKeys.length + l.length := by
  induction l generalizing p with
  | nil => simp
  | cons f l ih =>
    have h := ih (p.rekeyFrame key f)
    have h' := rekeyFrame_length key p f
    simp only [List.foldl_cons, List.length_cons]
    omega

/-- An empty tree at address 0 holds no entry. -/
theorem peek_empty {p : Pkg} (h : p.mem = []) (i : Nat) (hi : i < 8192) : leNat (p.peek (0 + 8 * i) 8) = 0 := by
  have ha : isAliasPa (0 + 8 * i) = false := by unfold isAliasPa; simp; omega
  have hd : isDevicePa (0 + 8 * i) = false := by unfold isDevicePa; simp; omega
  rw [Pkg.peek, ha, hd, h]
  rfl

theorem nodes_empty {p : Pkg} (h : p.mem = []) : (Pkg.nodeEntries p 0).filter (fun x => leafKind x.2.2 == 1) = [] := by
  refine List.filter_eq_nil_iff.2 ?_
  intro x hx
  obtain ⟨i, hi, rfl⟩ := List.mem_map.1 hx
  simp only [peek_empty h i (List.mem_range.1 hi)]
  decide

theorem rekeyTree_empty {p : Pkg} (h : p.mem = []) : p.rekeyTree 0 5 [] = p.rekeyFrame 5 0 := by
  have hl : Pkg.treeLeaves p 0 = [] := by simp [Pkg.treeLeaves, nodes_empty h]
  have hn : Pkg.treeNodes p 0 = [0] := by unfold Pkg.treeNodes; rw [hl]; rfl
  unfold Pkg.rekeyTree
  rw [hl, hn]
  rfl

/-- A context is recreated where a frame is free for its twin table. -/
theorem recreate_some {p : Pkg} {vf key cid saveArea : Nat} {record : BitVec 1024} {x : Exported}
    (h : ∀ start, ∃ f, (((Pkg.saveFrames (saveArea / 65536) (crShare record)).foldl (Pkg.rekeyFrame key)
      (p.rekeyTree (crRoot record) key x.twins)).freeFrames start 1).head? = some f) :
    ∃ t, p.recreate vf key cid record saveArea x = some t := by
  refine Option.isSome_iff_exists.1 ?_
  unfold Pkg.recreate
  extract_lets p1 p2
  obtain ⟨f, hf⟩ := h (Config.pickFrame p2.fresh % frameCount)
  have hf' : (p2.freeFrames (Config.pickFrame p2.fresh % frameCount) 1).head? = some f := hf
  rw [hf']
  rfl

theorem recreateAll_one {p t : Pkg} {vf key cid saveArea : Nat} {record : BitVec 1024} {x : Exported}
    (hr : ((List.range 64).find? fun c => (p.ctxs.get? c).isNone) = some cid)
    (ht : p.recreate vf key cid record saveArea x = some t) : ∃ q, Pkg.recreateAll vf key [(record, saveArea, x)] p = some q := by
  simp only [Pkg.recreateAll, hr, ht, Option.some.injEq, exists_eq']

theorem empty_record : crRoot 0 = 0 ∧ crShare 0 = 0 ∧ shipped.twins = [] := by decide +kernel

theorem saveFrames_length : (Pkg.saveFrames (0 / 65536) 0).length = 2593 := by
  rw [Pkg.saveFrames, List.length_map, List.length_range]

theorem bound {p : Pkg} {record : BitVec 1024} {twins : List Byte} (e1 : crRoot record = 0) (e2 : crShare record = 0) (e3 : twins = [])
    (h : p.frameKeys = []) (hm : p.mem = []) :
    ((Pkg.saveFrames (0 / 65536) (crShare record)).foldl (Pkg.rekeyFrame 5) (p.rekeyTree (crRoot record) 5 twins)).frameKeys.length + 1
      ≤ frameCount := by
  rw [e1, e2, e3, rekeyTree_empty hm]
  have h1 := rekeyFrames_length 5 (Pkg.saveFrames (0 / 65536) 0) (p.rekeyFrame 5 0)
  have h2 := rekeyFrame_length 5 p 0
  have h3 := saveFrames_length
  have h4 : p.frameKeys.length = 0 := by rw [h]; rfl
  generalize (List.foldl (Pkg.rekeyFrame 5) (Pkg.rekeyFrame 5 p 0) (Pkg.saveFrames (0 / 65536) 0)).frameKeys.length = x at *
  rw [show frameCount = 9437184 from rfl]
  omega

theorem witness_import_context {p : Pkg} (h : p.frameKeys = []) (hm : p.mem = []) :
    ∃ t, p.recreate 1 5 0 0 0 shipped = some t := by
  obtain ⟨e1, e2, e3⟩ := empty_record
  refine recreate_some fun start => freeFrames_some (bound e1 e2 e3 h hm) start

theorem witness_import_contexts (p : Pkg) (h : p.frameKeys = []) (hm : p.mem = []) (hc : p.ctxs.get? 0 = none) :
    ∃ q, Pkg.recreateAll 1 5 [(0, 0, shipped)] p = some q := by
  have hr : ((List.range 64).find? fun c => (p.ctxs.get? c).isNone) = some 0 := by
    rw [List.range_eq_range', List.range'_succ, List.find?_cons, hc]
    rfl
  obtain ⟨t, ht⟩ := witness_import_context h hm
  exact recreateAll_one hr ht

theorem witness_import :
    ∃ q, Pkg.recreateAll 1 5 [(0, 0, shipped)]
      ((Pkg.clustersOf 1).foldl (fun (q : Pkg) c => q.updCluster c fun _ => { restore := true })
        (Pkg.updVf { imported.pkg with keyVf := [5].foldl (fun m k => m.set k 1) imported.pkg.keyVf } 1 fun v =>
          { v with stopped := true, raised := true, resident := none, incoming := none })) = some q :=
  witness_import_contexts _ rfl rfl rfl

/-! ### Power, settings, platform -/

/-- A window, a sample and an accounting interval that are over, and a sample and an interval that are not. -/
theorem witness_windows :
    let due : State := { idle with pkg := { idle.pkg with time := 1000000, phases := [(143, 64000)] } }
    let early : State := { idle with pkg := { idle.pkg with time := 9999 } }
    64 * ((due.slope 143).windows + 1) ≤ due.pkg.cycleOf 143 ∧ 10000 * (due.power.samples + 1) ≤ due.pkg.time ∧
    due.power.intervalStart + due.power.interval ≤ due.pkg.time ∧ early.pkg.time < 10000 * (early.power.samples + 1) ∧
    early.pkg.time < early.power.intervalStart + early.power.interval := by decide +kernel

/-- Slopes at rest and at the ceiling; a meter sample above and below the limits; a calm package; readings at each limit. -/
theorem witness_power :
    let hot : State := { idle with power := { idle.power with ceiling := 950, calmSamples := 1000 } }
    idle.plat.booted = 4 ∧ 143 < 144 ∧ (idle.slope 143).last ≤ 64 ∧ 950 ≤ idle.power.ceiling ∧ 950 ≤ hot.power.ceiling ∧
    idle.power.packageLimit < 2401 ∧ 2400 ≤ idle.power.packageLimit ∧ idle.functionLimit 0 < 301 ∧ 300 ≤ idle.functionLimit 0 ∧
    950 < min idle.power.ceiling (idle.power.functionClocks.get 0 1300) ∧
    min hot.power.ceiling (hot.power.functionClocks.get 0 1300) ≤ 950 ∧ 8 < hot.pkg.stepCeilings.get 0 64 ∧
    1000 ≤ hot.power.calmSamples ∧ hot.power.ceiling < 1300 ∧ idle.power.calmSamples < 1000 := by decide +kernel

/-- Contexts with no quota, with one not yet reached, and with one reached exactly. -/
theorem witness_energy :
    let s : State := { idle with pkg := { idle.pkg with ctxs := idle.pkg.ctxs.mapVals fun _ c => { c with record := (100 : BitVec 1024) <<< 416 } } }
    ((s.pkg.ctxs.get? 0).any fun c => crQuota c.record == 100 && !c.exhausted && c.charge == 0) = true ∧
    ((idle.pkg.ctxs.get? 0).any fun c => crQuota c.record == 0) = true ∧ 100 ≤ 0 + 100 ∧ 0 + 99 < 100 ∧
    ((idle.pkg.strand? 0).any fun st => st.park.isNone && !st.finished && !st.ended && idle.pkg.isResident 0) = true := by
  decide +kernel

/-- Shares that fit: all 64 parts of a resource, the other functions' 56 and these 8; and 9 that do not. -/
theorem witness_shares :
    let total (x : Nat) : Nat := shareTotal (fun v => if v = 0 then x else idle.fabricShare v)
    total 8 ≤ 64 ∧ 64 < total 9 ∧ (List.replicate 12 8).length = 12 ∧
    (∀ stack, stack < 12 → shareTotal (fun v => if v = 0 then 8 else idle.hbmShare v stack) ≤ 64) := by decide +kernel

/-- A boot whose first stage has no image; the rates, widths, ports and addresses at the ends of their ranges. -/
theorem witness_platform :
    ((idle.plat.staged.reverse ++ ([] : List BootImage)).find? fun i => i.stage == 0) = none ∧ 7 < 8 ∧ 47 < 48 ∧ 511 < 512 ∧
    (1280 ∈ [25, 50, 80, 160, 320, 640, 1280]) ∧ (16 ∈ [1, 2, 4, 8, 16]) ∧ (hbmTop - 8) + 8 ≤ hbmTop ∧ isAliasPa (hbmTop - 8) = false ∧
    (hbmTop - 8) % 128 + 8 ≤ 128 ∧ (idle.pkg.strand? 0).isSome = true ∧ 95 < 96 ∧
    ((idle.pkg.strand? 0).any fun st => modeLegal st.nregs (modeReset &&& modeMask)) = true := by decide +kernel

/-! ### The step and the invariants -/

/-- A turn of a strand whose word is an addition, of an event, of an event's place taken by a word, of a strand of an exhausted
context, and of a corrected error; and an entry that is due before the turn. -/
theorem witness_turns :
    let now := State.advance { before 0x27 6 2 4 [] with agenda := [] } 0 []
    let spent : State := { before 0x27 6 2 4 [] with pkg := { (before 0x27 6 2 4 []).pkg with ctxs := (before 0x27 6 2 4 []).pkg.ctxs.mapVals fun _ c => { c with exhausted := true } } }
    ((before 0x27 6 2 4 []).agenda.map (·.act) == [.run 0]) = true ∧
    ((now.pkg.strand? 0).any fun st => now.pkg.mayRun 0 st && decide (decode (wordBytes (st.words.getD st.slot 0)) = .ok (.addw 6 2 4 false false false, []))) = true ∧
    now.pkg.isExhausted 0 = false ∧ encode (.slopeWindow 0 0) = none ∧ (encode (.addw 6 2 4 false false false)).isSome = true ∧
    spent.pkg.isExhausted 0 = true ∧ now.dueRaising = none ∧
    (State.dueRaising { now with pkg := { now.pkg with raisings := [rtEntry 0 0 5 1 1 0 7] } }).isSome = true := by decide +kernel

/-- The widest fields: every operand bit and reserved bit set. -/
theorem witness_encoding :
    (Instr.addw 127 127 127 true true true).wf = true ∧ (encode (.addw 127 127 127 true true true)).isSome = true := by decide +kernel

/-- A turn that sets a slope register, from a state within the limits. -/
theorem witness_limits :
    let s : State := { State.reset with
      agenda := [{ ns := 0, mhz := [], act := .event (.setSlopeStep 5 2) }], power := { packageLimit := 2000 } }
    s.PowerLegal ∧ ∃ t, step s = .next t := by
  refine ⟨⟨?_, ?_, ?_, ?_, ?_, ?_, ?_, ?_, ?_, ?_⟩, _, rfl⟩ <;> first | decide +kernel | exact fun e h => nomatch h

theorem witness_canonical : (mapped idle).pkg.mem.wf = true ∧ 0 ≠ 1 := by decide +kernel

/-! ### Further clauses -/

/-! ### More clauses -/

/-- A pair, a temporary, cf and a mask word as the destination of a form that computes each lane by itself. -/
theorem witness_destinations :
    [(100 : Field), 107, 123, 125, 127].all (fun d => admitted (before 0 d 2 4 []) 0 d 2 4 (fun x => x.ripple == [] && x.form.d.regs == 1 && x.st.isOn 0)) = true ∧
    admitted (before 0x28 98 2 4 []) 0x28 98 2 4 (fun x => x.ripple == [] && x.form.d.regs == 2 && x.d + 2 == 100) = true := by decide +kernel

/-- In a launch with the dovetail flag: a dv operand of DVDECL, a ripple that may not, a second declaration, a channel not
declared, and a predecessor that declared another. -/
theorem witness_dovetail_misuse :
    let ch : Channel := { vs := 6, dist := 1, self := false, defaults := [(0, 7)] }
    let gates (s : State) (op d a b : Nat) (f : Form → Strand → Bool) : Bool := (s.pkg.strand? 0).any fun st =>
      ldDovetail (s.pkg.descOf st) && (formOf op b (modeElem st.mode) st.truss).any fun g =>
        g.vector && !privileged op b && legalOperands g op d a b st.nregs st.litCount st.mode && f g st
    let declared := dovetailed (before 0x6D 6 2 0 []) [(0, ch)]
    let next := dovetailed (before 0 6 2 108 []) [(0, ch)] [(0, { chans := [(0, { ch with vs := 7 })] })] 1
    gates declared 0x6D 6 2 0 (fun f st => Pkg.dvSources f 6 2 0 == [] && ((declared.pkg.dove st.launch st.sn).chans.get? (0 / 32)).isSome) = true ∧
    gates (ripples 0x01 6 2 108) 0x01 6 2 108 (fun f st => Pkg.dvSources f 6 2 108 == [0] &&
      ((ripples 0x01 6 2 108).pkg.channel st 0).any fun c => c.self && (f.writes (modeSizes st.mode) 6 2 108).contains c.vs) = true ∧
    [0x6E, 0x6F].all (fun op => gates (dovetailed (before op 0 0 1 []) [(0, ch)]) op 0 0 1 fun _ st =>
      ((dovetailed (before op 0 0 1 []) [(0, ch)]).pkg.channel st 1).isNone) = true ∧
    gates declared 0 6 2 109 (fun f st => Pkg.dvSources f 6 2 109 == [1] && Pkg.dvNamed 0 109 == none && (declared.pkg.channel st 1).isNone) = true ∧
    gates next 0 6 2 108 (fun f st => Pkg.dvSources f 6 2 108 == [0] && Pkg.dvNeeds st f 0 6 2 108 == [(0, [0])] &&
      next.pkg.channel st 0 == some ch && next.pkg.readDv st 0 0 == .misuse) = true ∧
    (let s := before 0x6E 0 0 0 []
     ldDovetail (s.pkg.descOf ((s.pkg.strand? 0).getD (placedStrand 0 false))) = false ∧ Pkg.dvNamed 0x6E 0 = some 0) := by decide +kernel

/-- −∞ below +∞; both zeros; both NaNs; a number that rounds to itself; positions at the ends of a slot's table. -/
theorem witness_float_clauses :
    numLt fp32 0xFF800000 0x7F800000 ∧ (fp32.isZero 0 = true ∧ fp32.isZero 0x80000000 = true ∧ fp32.isNeg 0x80000000 = true ∧ fp32.isNeg 0 = false) ∧
    (fp32.isNaN 0x7FC00000 = true ∧ fp32.isSNaN 0x7FC00000 = false ∧ fp32.isSNaN 0x7F800001 = true) ∧ fp32.isInf 0x7F800000 = true ∧
    fp64 ∈ [fp64, fp32, fp16, bf16] ∧ (fp32, fp64) ∈ [(fp32, fp64), (fp16, fp32), (bf16, fp32)] ∧ fp32.isFinite 0x3F800000 := by
  refine ⟨Or.inl (by decide +kernel), by decide +kernel, by decide +kernel, by decide +kernel, by simp, by simp, by decide +kernel⟩

theorem exactVal_zero : exactVal (exactOf fp32 0) = 0 := by
  have h : (exactOf fp32 0).m = 0 := by decide +kernel
  simp [exactVal, h]

theorem witness_activation_values :
    let sl : ActSlot := { lo := 0, hi := 0, inv := 0x3F800000, linear := true, knots := List.replicate 257 0 }
    let u (x : Nat) : Nat := (fMul fp32 0 (fSub fp32 0 x sl.lo.toNat).bits sl.inv.toNat).bits
    u 0 = 0 ∧ u 0xBF800000 = 0xBF800000 ∧ u 0x44000000 = 0x44000000 ∧ fp32.isFinite 0xBF800000 ∧ fp32.isFinite 0x44000000 ∧
      exactVal (exactOf fp32 0) = 0 := by
  refine ⟨by decide +kernel, by decide +kernel, by decide +kernel, by decide +kernel, by decide +kernel, exactVal_zero⟩

/-- A location of each kind of scratchpad, its bytes in canonical form; a word that L1 holds; a store beside no race. -/
theorem witness_scratchpads :
    let s := before 0 6 2 4 []
    padHeld s.pkg (.lane 0 0 4092) ∧ padHeld s.pkg (.core 3 0 0) ∧ padHeld s.pkg (.clus 3 0) ∧ padHeld s.pkg (.die 0 0) ∧
    noRace s.pkg 0x30000 8 0x30008 ∧ ({ s.pkg with l1 := [(0, [(5, (9 : Word))])] } : Pkg).l1Word 0 5 = some 9 ∧ sidCore 0 = some 0 := by
  refine ⟨⟨_, rfl, by unfold Mem.Canonical; decide +kernel⟩, ⟨_, rfl, by unfold Mem.Canonical; decide +kernel⟩,
    ⟨_, rfl, fun k => rfl⟩, ⟨_, rfl, by unfold Mem.Canonical; decide +kernel⟩,
    (by intro e he; cases he), by decide +kernel, by decide +kernel⟩

/-- An outstanding operation of strand 0, ready, and what its clause asks of it. -/
def outstanding (k : OpKind) (more : State → State) (f : Pkg → Strand → Op → Bool) : Bool :=
  let o : Op := { id := 1, flag := 0, dests := [6], entry := false, kind := k }
  let s := more (before 0 0 0 0 [] fun st => { st with ops := [o] })
  s.plat.booted == 4 && s.pkg.isResident 0 && (s.pkg.strand? 0).any fun st =>
    st.ops.find? (fun o => o.id == 1) == some o && s.pkg.opReady 0 st o && f s.pkg st o &&
      (opReads s.pkg 0 st o.kind).all (fun y => !s.pkg.badIn y.1 y.2)

/-- The locking of lines, shape records, counters, tiles and activation records. -/
theorem witness_more_operations :
    let acc : LaneAcc := { lane := 0, reg := 98, loc := .hbm 0x30000, bytes := 4 }
    let pinned (s : State) : State := { s with pkg := { s.pkg with pinned := [(0x600, 0)] } }
    (outstanding (.unlock [acc]) pinned (fun p _ _ => p.pinned.get? 0x600 == some 0 && p.lineOf acc.loc == some 0x600) &&
      outstanding (.query [acc]) pinned (fun p _ _ => (p.ctxs.get? (sidCtx 0)).isSome && decide (acc.lane < 96 ∧ acc.reg + 2 ≤ 100)) &&
      outstanding (.shapeLoad 15 (.hbm 0x30000)) id (fun _ _ _ => true) &&
      outstanding (.shapeStore (.clus 3 0) (List.replicate 64 0)) id (fun _ _ _ => true) &&
      outstanding (.counterRead 98 (.clus 3 0)) id (fun _ _ _ => true) &&
      outstanding (.tileRead 0 [(6, 0, 1)]) id (fun _ _ _ => true) &&
      outstanding (.tileWrite 31 63 [(0, 1), (63, 2)]) id (fun p st _ => (p.bents.get? st.bent).isSome) &&
      outstanding (.actLoad 3 [.hbm 0x30000]) id (fun p st o => !p.slotBefore 0 3 o && p.opReady 0 st o && o.id == 1) &&
      outstanding (.actLoad 3 [.hbm 0x30000]) (fun s => { s with pkg := { s.pkg with badLines := [0x600] } })
        (fun p st o => !p.slotBefore 0 3 o && p.opReady 0 st o) &&
      true) = true := by decide +kernel

/-- A chain descriptor of two slots at 0x10040 in page 1, its slots in page 2. -/
def posting (d : Nat) (s : State) : State :=
  let s := mapped s
  { s with pkg := { s.pkg with mem := s.pkg.mem.writeBytes 0x30040 (leBytes 64 d) } }

/-- A post to a chain with a reserved bit set, to a full one, and to one with room, at the last slot of the ring. -/
theorem witness_posts :
    let post : OpKind := .post false 98 0x10040 [] none
    let meets (f : Nat → Pkg → Strand → Bool) (p : Pkg) (st : Strand) : Bool :=
      match p.checkGlobal (.lane 0) (sidCtx 0) (p.leaseOf st) needAtomic [⟨st.low, 0x10040⟩] with
      | (p1, .ok (l :: _)) => !p1.isBad l &&
        (let p2 := ((p1.dropLoc (sidCore 0) l 64).readHome l 64).1
         p2.strand? 0 == some st && f (leNat (p1.readHome l 64).2) p2 st)
      | _ => false
    (outstanding post (posting (2 ^ 384)) (fun p st _ => meets (fun d _ _ => cdBad d false) p st) &&
      outstanding post (posting (0x20000 + 2 ^ 64 + 2 * 2 ^ 128)) (fun p st _ => meets (fun d _ _ =>
        !cdBad d false && decide (2 ^ cdLog d ≤ cdTail d - cdCompleted d)) p st) &&
      outstanding post (posting (0x20000 + 2 ^ 64 + 2 ^ 128)) (fun p st _ => meets (fun d p2 st =>
        !cdBad d false && decide (cdTail d - cdCompleted d < 2 ^ cdLog d) && decide (cdTail d + 1 < 2 ^ 64 - 1) && cdSlot d (cdTail d + 1) % 64 == 0 &&
          st.park == none &&
          match p2.checkGlobal (.lane 0) (sidCtx 0) (p2.leaseOf st) needWrite [⟨st.low, cdSlot d (cdTail d + 1)⟩] with
          | (p3, .ok (_ :: _)) => p3.strand? 0 == some st
          | _ => false) p st)) = true := by decide +kernel

/-- A SPAWN of a legal descriptor, and of one that is not. -/
theorem witness_spawns :
    let meets (valid : Bool) (p : Pkg) (st : Strand) : Bool :=
      (p.ctxs.get? (sidCtx 0)).any (fun c => decide (c.spawnQueue.length < 256) && !p.isBad (.hbm 0x30040) &&
        descValid (BitVec.ofNat 512 (leNat (p.readLoc (sidCore 0) 0 (.hbm 0x30040) 64).2)) c.leases == valid) &&
      (p.trees.get? (p.treeKeyOf st)).isSome
    (outstanding (.spawn 99 (.hbm 0x30040)) (posting placedDesc.toNat) (fun p st _ => meets true p st) &&
      outstanding (.spawn 99 (.hbm 0x30040)) (posting 0) (fun p st _ => meets false p st)) = true := by decide +kernel

/-- A sweep of each code over four words, its elements reachable; a reduction's run that goes on behind its group, and one that ends. -/
def sweeping (code : Nat) (D A : BitVec 512) : Bool :=
  let w : Sweep := { code := code, shD := 0, shA := 1, shB := 1, recA := A, recB := A, sel := 0, mode := modeReset, lowLane := 0 }
  let o : Op := { id := 1, flag := 0, dests := [], entry := false, kind := .sweep w }
  let s := before 0 0 0 0 [] fun st => { st with sh := [(0, D)], ops := [o] }
  s.plat.booted == 4 && s.pkg.isResident 0 && (s.pkg.strand? 0).any fun st =>
    let g := agentOf s.pkg 0 st
    let d := shapeOf (st.shape 0)
    let a := shapeOf w.recA
    let clear := clearOf s.pkg 0 st o
    let ixs := (List.range 4).map fun k => Shape.indexOf d.extent k
    (st.ops.find? (fun o => o.id == 1) == some o) && d.handle == 0 &&
    if code == 0xBC then
      match s.pkg.sweepLocate g clear a needRead ((List.range (min 96 (a.extent 0))).map fun k => sourceIndex 0 a (Shape.indexOf a.extent k)) with
      | (p1, .ok la) =>
        match (p1.readEach g.core a.esize la).1.sweepLocate g clear d needWrite [(Shape.indexOf a.extent 0).drop 1] with
        | (_, .ok [_]) => (List.range 5).all fun k => decide (((Shape.indexOf a.extent 0).drop 1).getD k 0 < d.extent k)
        | _ => false
      | _ => false
    else
      match s.pkg.sweepLocate g clear a needRead (ixs.map (sourceIndex w.code a)) with
      | (p1, .ok _) =>
        match p1.sweepLocate g clear a needRead (ixs.map (sourceIndex w.code a)) with
        | (p2, .ok _) =>
          match p2.sweepLocate g clear d (if code == 0xB7 then needUpdate else needWrite) ixs with
          | (_, .ok _) => true
          | _ => false
        | _ => false
      | _ => false

theorem witness_sweep_groups :
    (List.range' 0xB5 9).all (fun code => code == 0xBC || sweeping code (shp 0 2 0 [4] [1]) (shp 64 2 0 [4] [1])) = true ∧
    sweeping 0xBC (shp 0 2 0 [1] [1]) (shp 64 2 0 [4] [1]) = true ∧ sweeping 0xBC (shp 0 2 0 [1] [1]) (shp 64 2 0 [97] [1]) = true := by
  decide +kernel

/-- SREAD of the place and the rank, its context in the gang and not; of a trap record word and of a frame; SWRITE #33 of 1,025
pages, and while its invalidation is pending. -/
theorem witness_more_system_forms :
    let f : Frame := { clause := 0x500, slot := 3, temps := [], mode := modeReset, em := 1 }
    let own (e : Nat × DWord) (s : State) : Bool :=
      (((s.pkg.ctxs.get? 0).map (·.gang)).getD []).contains e && e.2.getLsbD 15 && bits e.2.toNat 8 0 == s.pkg.yardPort
    let member : State := { before 0xDD 6 0 3 [] with pkg := { (before 0xDD 6 0 3 []).pkg with
                              yardPort := 3
                              ctxs := [(0, { record := 0, vf := 0, twinPa := 0, saveArea := 0, gang := [(1, 0x8003)], leases := [(1, placedLease)] })] } }
    let at33 (v : Word) (inv : Option Nat) : State := before 0xDE 0 2 33 [(2, v)] fun st => { st with handler := true, frame := some f, invalidation := inv }
    let pending : State := { at33 0 (some 7) with pkg := { (at33 0 (some 7)).pkg with invalidations := [(7, ⟨0, 1, 1⟩)] } }
    [(2 : Field), 3, 16, 27, 40, 42].all (fun b => admitted (before 0xDD 6 0 b [] fun st => { st with handler := true, frame := some f }) 0xDD 6 0 b
      (fun x => x.st.handler && decide (sidCluster x.sid < 144 ∧ sidCtx x.sid < 64))) = true ∧
    admitted (before 0xDD 6 0 27 []) 0xDD 6 0 27 (fun x => !x.st.handler) = true ∧
    (admitted member 0xDD 6 0 3 (fun _ => own (1, 0x8003) member) && ((before 0xDD 6 0 3 []).pkg.ctxs.get? 0).any fun c => c.gang == []) = true ∧
    admitted (at33 1025 none) 0xDE 0 2 33 (fun x => x.st.invalidation == none && decide (1024 < (x.env.get x.a x.st.low).toNat % 2048)) = true ∧
    admitted pending 0xDE 0 2 33 (fun x => x.st.invalidation == some 7 && (x.p.invalidations.get? 7).isSome) = true := by decide +kernel

/-- A queue of eight operations before a matrix form of each kind. -/
theorem witness_full_queue :
    let op : MatOp := { seq := 1, code := 3, tile := 7, recA := 0, recB := 0, mode := modeReset }
    let full (s : State) : State := { s with pkg := { s.pkg with bents := s.pkg.bents.mapVals fun _ b => { b with matq := List.replicate 8 op } } }
    [0xE0, 0xE1].all (fun op => admitted (full (matrixWord op 3 0 1)) op 3 0 1 (fun x =>
      (x.p.bents.get? x.st.bent).any (fun b => decide (8 ≤ b.matq.length)) && !mmaIllegal (op - 0xE0) 3 0 (shapeOf (x.st.shape 0)) (shapeOf (x.st.shape 1)))) = true ∧
    admitted (full (before 0xE3 7 0 0 [])) 0xE3 7 0 0 (fun x => (x.p.bents.get? x.st.bent).any fun b => decide (8 ≤ b.matq.length)) = true := by
  decide +kernel

/-- ACCRD and ACCWR of a tile that an operation has yet to complete. -/
theorem witness_busy_tiles :
    let op : MatOp := { seq := 5, code := 3, tile := 3, recA := 0, recB := 0, mode := modeReset }
    let t (s : State) : State := { s with pkg := { s.pkg with
      launches := s.pkg.launches.mapVals fun _ l => { l with desc := l.desc ||| (4 : BitVec 512) <<< 64 }
      bents := s.pkg.bents.mapVals fun _ b => { b with matq := [op] } } }
    [(0xE6, (6 : Field), (3 : Field), (4 : Field)), (0xE7, 3, 2, 4)].all (fun e => admitted (t (before e.1 e.2.1 e.2.2.1 e.2.2.2 [])) e.1 e.2.1 e.2.2.1 e.2.2.2 (fun x =>
      ldTruss (x.p.descOf x.st) != 0 && (if e.1 == 0xE6 then x.a else x.d) == 3 &&
        (x.p.bents.get? x.st.bent).any fun b => b.matq.find? (fun o => o.tiles.contains 3) == some op)) = true := by decide +kernel

/-- An operation in execution on cluster 0, with its shapes. -/
def executing (o : MatOp) : State :=
  let s := before 0xE3 7 0 0 []
  { s with pkg := { s.pkg with bents := s.pkg.bents.mapVals fun _ b => { b with matq := [{ o with seq := 1, started := true }], mseq := 1 } } }

/-- An MMA and an MMAZ of depth 8 with its step made; an ACCLD at its last row; an ACCST's row. -/
theorem witness_matrix_completion :
    let m (base fmt k : Nat) : BitVec 512 := shp base 2 fmt [64, k] [1, 64]
    let a : BitVec 512 := shp 0x8000 2 1 [8, 64] [1, 8]
    [0, 1].all (fun code =>
      let o : MatOp := { seq := 1, code := code, tile := 3, recA := a, recB := m 0 1 8, mode := modeReset, started := true, steps := 1 }
      let s := executing o
      (s.pkg.bents.get? 3).any fun b => s.pkg.runsOn b.cluster b.ctx && decide (o.code ≤ 2) && b.matq == [o] && s.pkg.canStep 3 b o &&
        decide (Pkg.depthSteps o ≤ o.steps) &&
        match s.pkg.fetchAll (s.pkg.bentAgent 3 b) (shapeOf o.recB) ((List.range (64 * 8)).map fun n => [n / 8, n % 8]) with
        | (q1, .ok _) =>
          (q1.bents.get? 3).isSome && match q1.fetchAll (s.pkg.bentAgent 3 b) (shapeOf o.recA) ((List.range (64 * 8)).map fun n => [n % 8, n / 8]) with
          | (q, .ok _) => (q.bents.get? 3).isSome
          | _ => false
        | _ => false) = true ∧
    (let o : MatOp := { seq := 1, code := 4, tile := 3, recA := m 0 0 64, recB := 0, mode := modeReset, started := true, nextRow := 63 }
     let s := executing o
     (s.pkg.bents.get? 3).any fun b => s.pkg.runsOn b.cluster b.ctx && b.matq == [o] &&
       match s.pkg.fetchAll (s.pkg.bentAgent 3 b) (shapeOf o.recA) ((List.range 64).map fun n => [n % 64, 63 + n / 64]) with
       | (q, .ok _) => (q.bents.get? 3).isSome
       | _ => false) = true ∧
    (let o : MatOp := { seq := 1, code := 5, tile := 3, recA := m 0 0 64, recB := 0, mode := modeReset, started := true, nextRow := 63 }
     let s := executing o
     (s.pkg.bents.get? 3).any fun b => s.pkg.runsOn b.cluster b.ctx && b.matq == [o] &&
       match s.pkg.locate (s.pkg.bentAgent 3 b) (shapeOf o.recA) needWrite ((List.range 64).map fun j => [j, 63]) with
       | (q0, .ok _) => (match q0.capture (s.pkg.bentAgent 3 b) (fun _ _ => true) 0 [] with | (_, .ok false) => true | _ => false)
       | _ => false) = true := by decide +kernel

/-- An ACCLD whose shape lies in a page that is not mapped. -/
theorem witness_accld_fails :
    let o : MatOp := { seq := 1, code := 4, tile := 3, recA := shp 0x30000 0 0 [64, 64] [1, 64], recB := 0, mode := modeReset, started := true, nextRow := 63 }
    let s := executing o
    (s.pkg.bents.get? 3).any (fun b => b.matq == [o] &&
       match s.pkg.fetchAll (s.pkg.bentAgent 3 b) (shapeOf o.recA) ((List.range 64).map fun n => [n % 64, 63 + n / 64]) with
       | (q, .error (.fail ..)) => (q.bents.get? 3).isSome
       | _ => false) = true ∧
    (let s := executing o
     let h : Bent := { ((s.pkg.bents.get? 3).getD { ctx := 0, launch := 1, index := 0, cluster := 0, crews := [] }) with hidden := [(3, (.clus 3 0, [1]))] }
     ({ s.pkg with bents := [(3, h)] } : Pkg).bents.get? 3 = some h ∧ h.hidden = [(3, (.clus 3 0, [1]))]) := by decide +kernel

/-- A WAITSEQ that has met its word already, and one whose word is beside no error; a tree whose context is served; a walk that
reads no codebook window; a bent that holds no ACCST's rows back. -/
theorem witness_more_parks :
    let s : State := before 0 6 2 4 [] fun st => { st with park := some (.waitseq (.hbm 0) 0 true) }
    ((s.pkg.strand? 0).any fun st => st.park == some (.waitseq (.hbm 0) 0 true) && !s.pkg.isBad (.hbm 0)) = true ∧
    idle.pkg.served 0 = true ∧ (idle.pkg.bents.all fun b => b.2.hidden == []) = true ∧
    (walkReads (mapped idle).pkg 0 0x10000).all (fun a => !isAliasPa a) = true ∧ (idle.pkg.aliasLines.all fun e => !e.2.dirty) = true := by
  decide +kernel

/-- An entry's chain that its engine serves; a copy to a scratchpad with a line absent for it; a copy to one and to two pages of
global memory and to a twin; what a chain hides; a descriptor that cannot be read. -/
theorem witness_more_engine_events :
    let e := running 1 0x1000000000000000 fun e => { e with destAt := some (.die 0 0) }
    let s := withEntry e (withShare (tabled []))
    let s : State := { s with pkg := { s.pkg with ctxs := s.pkg.ctxs.mapVals fun _ c => { c with absent := [(0, 9)] } } }
    let c : Chain := { ctx := 0, desc := 0x1000, fabric := false, next := 2, completed := 0 }
    (!s.pkg.isExhausted 0 && !cdUnserved 0x1040 false && (s.pkg.absentOf (.die 0 0)).contains (0, 9)) = true ∧
    [(128, 0x10000), (128, 0x1FFC0)].all (fun n =>
      let e := running 1 (BitVec.ofNat 64 n.2)
      let t := withEntry e (mapped idle)
      let t : State := { t with pkg := { t.pkg with chains := [(0x1000, c)] } }
      t.pkg.entryActive e && t.pkg.chooseSides e == e && (match Pkg.fetchSource t.pkg 9 e 128 with
        | (q, .ok _) => q.entries.get? 9 == some e &&
          (match q.pieceLocs e needWrite (Pkg.pieces n.2 128) with
          | (r, .ok [(.hbm _, m)]) => n.2 == 0x10000 && m == 128 && r.chains.get? 0x1000 == some c
          | (r, .ok [(.hbm _, m), (.hbm _, k)]) => n.2 == 0x1FFC0 && m == 64 && k == 64 && r.chains.get? 0x1000 == some c
          | _ => false)
        | _ => false)) = true ∧
    (let h : Chain := { c with hidden := [(1, 0x10000, .hbm 0x30000, [1])] }
     ({ s.pkg with chains := [(0x1000, h)] } : Pkg).chains.get? 0x1000 = some h) ∧
    (let e := running 1 0x10000 fun e => { e with done := 128 }
     let t := withEntry e idle
     let t : State := { t with pkg := { t.pkg with chains := [(0x1000, { c with desc := 0x7001 })] } }
     (t.pkg.entryOver 9 e == some 2 && !t.pkg.stoppedAll e.vf &&
       match (Pkg.bookRead { t.pkg.abandonLines 9 true with entries := t.pkg.entries.erase 9 } 0 0x7001 64) with | (_, none) => true | _ => false) = true) := by
  decide +kernel

theorem witness_copy_scratchpad :
    padHeld (withShare (tabled [])).pkg (.die 0 0) := ⟨_, rfl, by unfold Mem.Canonical; decide +kernel⟩

/-- A copy whose destination page is a twin's. -/
theorem witness_copy_twin :
    let e := running 1 0x10000
    let s := withEntry e (twinned idle)
    (s.pkg.entryActive (s.pkg.chooseSides e) && isAliasPa (s.pkg.shadowPa 0 0 0x30000) == false && s.pkg.mem.wf &&
      match s.pkg.pieceLocs (s.pkg.chooseSides e) needWrite (Pkg.pieces 0x10000 128) with
      | (_, .ok [(.twin 0 0 _, 128)]) => true
      | _ => false) = true := by decide +kernel

/-- A held request that can be performed, one whose checks fail, and one behind an elastic page. -/
theorem witness_held_requests :
    let hold (k : Packet) (s : State) : State := { s with pkg := { s.pkg with vfs := [(0, { resident := some 0, faultHold := [k] })] } }
    [2 ^ 60, 2 ^ 55].all (fun target =>
      let s := hold (packetOf 0x01 0 target [1]) (withShare idle)
      s.pkg.heldReady [] (s.pkg.vfs.get 0 {}).faultHold == some (packetOf 0x01 0 target [1]) &&
      match (s.pkg.updVf 0 fun v => { v with faultHold := [] }).checkRequest (headOf (packetOf 0x01 0 target [1])) with
      | (_, .ok ..) => target == 2 ^ 60
      | (_, .fail _) => target == 2 ^ 55
      | _ => false) = true ∧
    (idle.pkg.savedAt (sidCtx 0) (sidCluster 0) = false ∧ (headOf (packetOf 0x10 0 0 [])).source = 3) := by decide +kernel

/-- An entry that the table holds already, with another generation; a kind-2 entry whose kind-1 entry is closed; partitions at rest. -/
theorem witness_more_raisings :
    let e (kind seq time gen : Nat) : BitVec 256 := rtEntry time 0 5 gen 1 kind seq
    let p : Pkg := { idle.pkg with raisings := [e 0 0 60000 1] }
    let q : Pkg := { idle.pkg with vfs := [(0, { outClosed := true })] }
    (rtSequence (e 0 0 60000 2) = 0 ∧ rtTime (e 0 0 60000 2) = 60000 ∧ e 0 0 60000 2 ∉ p.raisings) ∧
    ((q.vfs.get 0 {}).outClosed = true ∧ q.openTime 0 = none ∧ rtKind (e 2 0 60000 1) = 2) ∧
    (let s (v : Vf) : Pkg := { idle.pkg with raisings := [e 2 7 0 1], vfs := [(0, v)] }
     (s { stopped := true, openOut := some (6, 0, 1, 0) }).raisings.find? (fun x => rtSequence x == 7 && rtKind x == 2) = some (e 2 7 0 1) ∧
     ((s { heldRefused := true, openOut := some (6, 0, 1, 0) }).vfs.get 0 {}).released = false) := by decide +kernel

/-- An occupied cluster, at rest, and its strand; a save area whose bytes lie one by one on its stack. -/
theorem witness_saves :
    let p := idle.pkg
    let q := p.haltAll [0]
    let r := (q.writeSection 0 0).saveCluster false 0
    ((p.clusters.get 0 {}).occupant = some 0 ∧ (q.strands.all fun e => e.2.ops.all fun o => !Pkg.endsAtHalt o.kind) = true ∧
      (q.bents.all fun b => b.2.hidden == [] && b.2.matq.all fun o => !o.started) = true ∧ (q.strands.map (·.1)).Nodup ∧
      (q.clusters.get 0 {}).occupant = some 0 ∧ (q.ctxs.get? 0).isSome = true ∧ (q.strand? 0).isSome = true ∧ sidCtx 0 = 0 ∧ sidCluster 0 = 0) ∧
    (r.ctxs.get? 0).any (fun c => !isAliasPa c.saveArea) = true ∧
    ((List.range 4).all fun i => !isAliasPa (Pkg.saveAddr 7 (0xA210000 + i)) &&
      Pkg.areaOffset 7 (Pkg.saveAddr 7 (0xA210000 + i)) == some (0xA210000 + i)) = true := by decide +kernel

/-- A framer that is live, with a gang package in step, out of step by its report, and itself; one held offset short of seven and
at seven; no function's context ganged. -/
theorem witness_more_framer :
    let p : Pkg := { idle.pkg with framer := some 0, framers := [(0, (255, 0))] }
    let out : Pkg := { p with outOfStep := [4] }
    (p.isFramer && p.framer == some p.yardPort && p.liveFramer == some p.yardPort && !p.knownOutOfStep 4 && out.knownOutOfStep 4 &&
      !p.knownOutOfStep p.yardPort && decide ((p.unretired 4).length < 256) && 4 != p.yardPort &&
      (List.range 8).all (fun v => match p.presentOf v with | some cid => !p.ganged cid | none => true)) = true ∧
    ({ p with inStep := false, goodOffsets := 6 } : Pkg).goodOffsets < 7 ∧ ({ p with inStep := false, goodOffsets := 7 } : Pkg).inStep = false := by
  decide +kernel

/-- A lease hold of a ring that Amiah serves and of one that it does not; a header past the tail, and one past the ring's end. -/
theorem witness_more_rings :
    let s := ringed (5 + 2 ^ 16) [] (some (.lease 2 []))
    (!s.pkg.leaseUsed 0 2 && (match s.pkg.servedRing 0 0 with
      | (q, some d) => (q.ringBytes 0 d (rdHead d) 16).2.isSome
      | _ => false) && (s.pkg.servedRing 0 16).2.isNone &&
      decide ((s.pkg.ringOf 0 0).tail < rdHead (2 ^ 64) + 16) &&
      decide (rdHead (4088 * 2 ^ 64 + 12 * 2 ^ 192) + 16 ≤ 8192 ∧
        ringSize (4088 * 2 ^ 64 + 12 * 2 ^ 192) < rdHead (4088 * 2 ^ 64 + 12 * 2 ^ 192) % ringSize (4088 * 2 ^ 64 + 12 * 2 ^ 192) + 16)) = true := by
  decide +kernel

/-- The host command queue, enabled, of 4 KiB at 0x1000 with one command in it. -/
def commanded (l : List (Nat × List Byte)) (s : State := idle) : State :=
  { s with pkg := { s.pkg with
      hostRing := BitVec.ofNat 512 (0x1000 + 64 * 2 ^ 128 + 12 * 2 ^ 192 + 2 ^ 202)
      hostMem := l.foldl (fun m e => Mem.writeBytes m (0x1000 + e.1) e.2) [] } }

/-- DESTROY of context 5, at the head of the queue and not. -/
theorem witness_host_queue :
    (let s := commanded [(0, [2]), (8, leBytes 8 5)]
     s.pkg.hostAdmits (.destroy 0x1000 5) && !idle.pkg.hostAdmits (.destroy 0x1000 5) && !isWord (.destroy 0x1000 5) &&
      Pkg.hostCommand (.destroy 0x1000 5) == some (0x1000, 2, [5]) && s.pkg.hostHead == some 0x1000 &&
      (s.pkg.hostMem.read 0x1000).toNat == 2 && s.pkg.hostOperand 0x1000 0 == 5 && s.pkg.twinOperand (.destroy 0x1000 5)) = true := by
  decide +kernel

theorem witness_host_command_runs (s : State) : ∃ t, exec (.destroy 0x1000 5) s = .next t := ⟨_, rfl⟩

/-- Codes that no command has, at the head of the queue. -/
theorem witness_unknown_at_the_head :
    [0, 11, 15, 24, 31, 33, 255].all (fun n =>
      let s := commanded [(0, [BitVec.ofNat 8 n])]
      s.plat.booted == 4 && s.pkg.hostHead == some 0x1000 && (s.pkg.hostMem.read 0x1000).toNat == n &&
        (n == 0 || decide (10 < n ∧ n < 16) || decide (23 < n ∧ n ≠ 32))) = true := by decide +kernel

/-- A strand with an entry of its own. -/
theorem witness_own_entry :
    (let s := withEntry (running 5 0 fun e => { e with chain := none, sid := some 0 }) idle
     (s.pkg.entries.any fun e => e.2.chain.isNone && e.2.sid == some 0) &&
       (s.pkg.strand? 0).any (fun st => (s.pkg.trees.get? (s.pkg.treeKeyOf st)).isSome)) = true := by decide +kernel

/-- STOP while a packet of the function is still out, and when none is; a good save area; a function stopped and one that stops;
room for an image. -/
theorem witness_more_function_commands :
    let v (v : Vf) : Pkg := { idle.pkg with vfs := [(0, v)] }
    (!({ (asked none none idle).pkg with vfs := [(0, { stopped := true, stopping := true })] } : Pkg).drained 0 && idle.pkg.drained 0 &&
      (v { stopped := true, stopping := true }).drained 0 && !(v { stopped := true, stopping := true }).stoppedAll 0 &&
      (v { stopped := true }).stoppedAll 0 && (idle.pkg.ctxs.get? 0).any (fun c => !idle.pkg.areaBad c 0xA210000 (crShare c.record))) = true := by
  decide +kernel

/-- A window that is not over and one that is, within its steps; a cluster that meters energy for its occupant; no code line
stored over. -/
theorem witness_more_power :
    let s : State := { idle with pkg := { idle.pkg with clusters := [(0, { occupant := some 0, meter := 9 })] } }
    let late : State := { idle with pkg := { idle.pkg with phases := [(143, 64000)] } }
    (s.pkg.cycleOf 143 < 64 * ((s.slope 143).windows + 1) ∧ 64 * ((late.slope 143).windows + 1) ≤ late.pkg.cycleOf 143 ∧
      (late.slope 143).steps ≤ late.pkg.windowTop 143 ∧ s.pkg.chargeOf 0 = some 0 ∧ (s.pkg.clusters.get 0 {}).meter = 9 ∧
      s.pkg.codeBefore = [] ∧ s.pkg.regions = []) ∧
    (s.pkg.ctxs.get? 0).any (fun c => isAliasPa c.saveArea == false && c.saveArea % 128 == 0) = true := by decide +kernel

/-- Settings that change something and settings that do not. -/
theorem witness_more_settings :
    (2400 = idle.power.packageLimit ∧ ∀ vf w, (List.replicate 8 300)[vf]? = some w → idle.functionLimit vf = w) ∧
    2399 ≠ idle.power.packageLimit ∧ (8 = idle.fabricShare 0 ∧ ∀ stack x, (List.replicate 12 8)[stack]? = some x → idle.hbmShare 0 stack = x) ∧
    7 ≠ idle.fabricShare 0 := by
  have h (w : Nat) (l : List Nat) (f : Nat → Nat) (hl : ∀ k, k < l.length → f k = w) (hw : ∀ x ∈ l, x = w) :
      ∀ k x, l[k]? = some x → f k = x := fun k x e => by
    rw [hw x (List.mem_of_getElem? e)]
    exact hl k (List.getElem?_eq_some_iff.1 e).1
  refine ⟨⟨by decide +kernel, h 300 _ _ (by decide +kernel) (by decide +kernel)⟩, by decide +kernel,
    ⟨by decide +kernel, h 8 _ _ (by decide +kernel) (by decide +kernel)⟩, by decide +kernel⟩

/-- A restore of a saved section, of an area without a bad line; regions of a save area, each where the canonical form is held. -/
theorem witness_more_restores :
    let s : State := { idle with pkg := { idle.pkg with ctxs := idle.pkg.ctxs.mapVals fun _ c => { c with saved := 1 } } }
    (s.pkg.ctxs.get? 0).any (fun c => !isAliasPa (c.saveArea + 16) && !isAliasPa (Pkg.saveAddr (c.saveArea / 65536) 0x40) &&
      Pkg.areaOffset (c.saveArea / 65536) (Pkg.saveAddr (c.saveArea / 65536) 0x40) == some 0x40) = true ∧
    s.pkg.mem.wf = true ∧ (s.pkg.strands.map (·.1)).Nodup ∧ (s.pkg.strands.all fun e => match e.2.park with | some (.waitseq _ _ false) => false | _ => true) = true ∧
    (({ s.pkg with clusters := [(0, { occupant := some 0 })] } : Pkg).clusters.get 0 {}).occupant = some 0 := by decide +kernel

/-! ### Clauses of widened statements -/

/-- A strand that executes a clause of a literal pool, and one that is to fetch its clause again. -/
theorem witness_plain_words :
    (placedStrand 0 false).executing = true ∧ ((idle.pkg.strand? 0).map (·.executing)) = some false ∧
    Strand.executing { placedStrand 0 false with words := [encodeHeader 2 0 0 0 false] } = true ∧
    (let st : Strand := { placedStrand 0 false with slot := 1, words := [encodeHeader 1 1 0 0 false, 0x27000380, 5] }
     st.slot ≤ st.count ∧ st.slot = st.count ∧ st.slot + 1 < st.words.length) := by decide +kernel

/-- A pair of temporaries at the end of the pool, and a truss strand's lane registers. -/
theorem witness_pairs_of_temporaries :
    admitted (before 0x28 106 2 4 []) 0x28 106 2 4 (fun x => x.ripple == [] && x.form.d.regs == 2 && x.d + 2 == 108 && x.st.isOn 0) = true ∧
    (let s := before 0xE3 0 0 0 []
     (s.pkg.strand? 9216).any (·.truss) && decide (9216 / 16384 = 0)) = true ∧ (120 ≤ 122 ∧ 122 ≤ 122) := by decide +kernel

/-- A store of the strand's own under the word that WAITSEQ, POLLQ and LCSET read; and none. -/
theorem witness_own_stores :
    let put (l : Loc) (on : Bool) (s : State) : State := { s with pkg := { s.pkg with strands := s.pkg.strands.mapVals fun _ st =>
      { st with ops := if on then [{ id := 1, flag := 0, dests := [], entry := false, kind := .store 0 [{ lane := 0, reg := 0, loc := l, bytes := 8 }] }] else [] } } }
    let ring := tabled [(1024, leBytes 64 (0x1000 + 16 * 2 ^ 128 + 12 * 2 ^ 192 + 2 ^ 200 + 2 ^ 202))] (before 0xC3 6 2 4 [(2, 1)])
    [true, false].all (fun on =>
      admitted (put (.hbm 0x30000) on (at1 0xC2 0 2 4 [(4, 5)])) 0xC2 0 2 4 (fun x =>
        globalRun x 8 needRead [⟨x.st.low, (x.env.get64 x.a x.st.low).toNat⟩] fun p ls =>
          ls == [.hbm 0x30000] && selfClear p x.sid x.st (.hbm 0x30000) 8 != on) &&
      admitted (put (.hbm 0x50400) on ring) 0xC3 6 2 4 (fun x => x.env.get64 x.a x.st.low == 1 && x.p.ringsClear x.sid x.st 1 != on) &&
      admitted (put (.clus 3 0) on (before 0xC7 6 2 4 [(3, 0x20000000)])) 0xC7 6 2 4 (fun x =>
        (counterAt x.p x.sid x.st (x.env.get64 x.a x.st.low).toNat).any fun t => selfClear x.p x.sid x.st t.loc 8 != on)) = true := by
  decide +kernel

/-- The forms of the global accesses whose failing outcomes are stated: opcode, the field b, alignment and need. -/
def globalForms : List (Nat × Field × Nat × Need) :=
  [(0x88, 64, 4, needRead), (0x89, 64, 4, needWrite), (0x8D, 0, 1, needRead), (0x8E, 0, 1, needRead), (0x8F, 0, 1, needRead),
    (0xA0, 0, 4, needAtomic), (0xA0, 64, 8, needAtomic), (0xA3, 6, 4, needAtomic), (0xA4, 6, 8, needAtomic), (0xA5, 12, 16, needAtomic)]

/-- Every one of them, with an address in lane 0, in a changed state: what the checks find passes a test. -/
def eachGlobal (va : Nat) (more : State → State) (f : Nat → Bool → List (Want × Trans) → Bool) : Bool :=
  globalForms.all fun (op, b, n, need) =>
    let at' (w : Word × Word) : State := more (mapped (before op 8 2 b [(2, w.1), (3, w.2)]))
    admitted (at' (BitVec.ofNat 32 va, BitVec.ofNat 32 (va / 2 ^ 32))) op 8 2 b fun x =>
      let lease := x.p.leaseOf x.st
      deviceLanes x == [] && globalWants x == [⟨0, va⟩] &&
        f n ((leaseRange? lease va).isSome || (x.p.twinTable (sidCtx x.sid) va).isSome) (x.p.translateAll (.lane x.sid) (sidCtx x.sid) lease need [⟨0, va⟩]).2

/-- An address that is misaligned for every form with an alignment, and one outside the lease; a page that is not mapped, pinned and
elastic; a frame of another key; a leaf that lacks a permission; and accesses that pass. -/
theorem witness_failing_accesses :
    let elastic (s : State) : State :=
      { s with pkg := { s.pkg with launches := s.pkg.launches.mapVals fun _ l => { l with lease := [⟨0, 2 ^ 39 - 1, true⟩] } } }
    let rekeyed (s : State) : State := { s with pkg := { s.pkg with frameKeys := [(3, 0x8002)] } }
    let lacking (s : State) : State := { s with pkg := { s.pkg with mem := s.pkg.mem.write 0x20008 0x62 } }
    eachGlobal 0x10001 id (fun n inLease _ => inLease && (n == 1 || 0x10001 % n != 0)) = true ∧
    eachGlobal (2 ^ 55) id (fun n inLease _ => !inLease && 2 ^ 55 % n == 0) = true ∧
    eachGlobal 0x30000 id (fun _ inLease l => inLease && l == [(⟨0, 0x30000⟩, .permission 1)]) = true ∧
    eachGlobal 0x30000 elastic (fun _ inLease l => inLease && l == [(⟨0, 0x30000⟩, .elastic 0x30000)]) = true ∧
    eachGlobal 0x10000 rekeyed (fun _ inLease l => inLease && l.any fun e => match e.2 with | .keyAlias 1 0x8002 => true | _ => false) = true ∧
    eachGlobal 0x10000 lacking (fun _ inLease l => inLease && l.any fun e => match e.2 with | .permission r => r == 3 || r == 4 | _ => false) = true := by
  decide +kernel

/-- What the walk of an address finds where no cached translation serves and no range of the tables holds it, for the boundaries of
the clauses: an invalid and a malformed entry; a leaf that passes the key check, that does not, that lacks a permission; a device
leaf in a window, also where an access may not touch a device, and one in none; a twin leaf that passes, whose other side fails,
that its descriptor does not serve, and that lacks a permission. -/
theorem witness_walks :
    let s := mapped (before 0 6 2 4 [])
    let t := twinned (before 0 6 2 4 [])
    let found (s : State) (va : Nat) (f : Pkg → Ctx → Walk → Bool) : Bool := (s.pkg.ctxs.get? 0).any fun c =>
      (s.pkg.twinTable 0 va).isNone && (leaseRange? placedLease va).isSome && (s.pkg.cached (.lane 0 0) 0 c.vf (va / 65536)).isNone &&
        !s.pkg.walkBad (crRoot c.record) va &&
        f (s.pkg.readWalk (crRoot c.record) va) c (walkTree (s.pkg.readWalk (crRoot c.record) va) (crRoot c.record) va)
    let keys (f k : Nat) (s : State) : State := { s with pkg := { s.pkg with frameKeys := s.pkg.frameKeys.set f (BitVec.ofNat 16 k) } }
    let byte (a b : Nat) (s : State) : State := { s with pkg := { s.pkg with mem := s.pkg.mem.write a (BitVec.ofNat 8 b) } }
    let keyed (q : Pkg) (c : Ctx) (f : Nat) : Bool := (q.keyFails c.vf 1 f).isNone && (f * 65536 < hbmTop)
    found s 0x30000 (fun _ _ w => w == .invalid) = true ∧
    found (byte 0x20018 1 s) 0x30000 (fun _ _ w => w == .malformed) = true ∧
    found s 0x10000 (fun q c w => w == .leaf 0x20008 0x1000000003007E && keyed q c 3) = true ∧
    found (keys 3 0x8002 s) 0x10000 (fun q c w => w == .leaf 0x20008 0x1000000003007E && !keyed q c 3) = true ∧
    found (byte 0x20008 0x62 s) 0x10000 (fun q c w => keyed q c 3 && match w with | .leaf _ e => !e.testBit 2 | _ => false) = true ∧
    (let d := byte 0x2000E 8 s
     let w (s : State) : State := { s with pkg := { s.pkg with vfs := [(0, { devWin := [(0x8000000030000, 1)] })] } }
     [d, w d].all fun s => found s 0x10000 (fun q c x =>
       match x with
       | .leaf _ e => isDevicePa (leafFrame e * 65536) && leafKey e == 0 &&
         ((q.vfs.get c.vf {}).devWin == [] || decide ((0x8000000030000 : Nat) = leafFrame e * 65536))
       | _ => false)) = true ∧
    (let ok (f : Nat → Bool → Bool → Bool → Bool) (s : State) : Bool := found s 0x10000 (fun q c w =>
       match w with
       | .leaf _ e =>
         let d := q.twinDesc 0 (leafTwin e)
         leafKind e == 3 && f e (keyed q c (leafFrame e)) (keyed q c (sidePa d (leafFrame e * 65536) true / 65536))
           (twEnabled d && twContext d == 0 && decide (twBase d ≤ 0x10000 ∧ 0x10000 < twBase d + twLength d))
       | _ => false)
     ok (fun e a b v => a && b && v && e.testBit 3) t && ok (fun _ a b v => !a && b && v) (keys 3 0 t) && ok (fun _ a b v => a && !b && v) (keys 4 0 t) &&
       ok (fun _ a b v => a && b && !v) (byte 0x50038 0 t) && ok (fun e a b v => a && b && v && !e.testBit 3) (byte 0x20008 0x77 t)) = true := by
  decide +kernel

/-- Values that lie in the format, that do not, that overflow and that are tiny, as the rounding clauses split them; a NaN, an
infinity, a zero and a finite number of each sign, for the special values. -/
theorem witness_rounded_values :
    let e (m : Nat) (k : Int) : Exact := ⟨false, m, k, false⟩
    ((e 1 0).sticky = false ∧ (e 3 (-1)).m ≠ 0 ∧ (e 0 0).m = 0) ∧
    (reaches 0 false ((2 : ℝ) ^ 128) ((2 : ℝ) ^ 128) ((2 : ℝ) ^ 104) ∧ ¬ reaches 0 false 1 ((2 : ℝ) ^ 128) ((2 : ℝ) ^ 104) ∧
      (fp32.bias + 1 = 128 ∧ (fp32.bias : ℤ) - fp32.frac = 104)) ∧
    ([fp64, fp32].all fun f =>
      f.isFinite 1 && !f.isZero 1 && !f.isNeg 1 && f.isZero 0 && f.isZero (f.signed true 0) && f.isInf f.inf && f.isNeg (f.signed true f.inf) &&
        f.isInf (f.signed true f.inf) && f.isNaN f.canon && f.isNeg (f.signed true 1) && !f.isZero (f.signed true 1) &&
        !f.isNaN (f.signed true 1) && decide (f.signed true f.inf < 2 ^ f.width) && decide (f.canon < 2 ^ f.width)) = true := by
  refine ⟨by decide +kernel, ⟨?_, ?_, by decide +kernel⟩, by decide +kernel⟩ <;> norm_num [reaches]

/-- 3.0 is the integer 3, for FEXP2. -/
theorem witness_integral_power : fp32.isFinite 0x40400000 = true ∧ exactVal (exactOf fp32 0x40400000) = (3 : ℤ) ∧ (-149 : ℤ) ≤ 3 ∧ (3 : ℤ) ≤ 127 := by
  have h : exactOf fp32 0x40400000 = ⟨false, 12582912, -22, false⟩ := by decide +kernel
  refine ⟨by decide +kernel, ?_, by decide, by decide⟩
  simp only [h, exactVal]
  norm_num

/-- The pattern of the pivot substitute that the reset mode asks for, 2^-40; a pivot word of order 2 of each sign, and the
permutation that it is; a right-hand side of order 2. -/
theorem witness_pivots_and_permutations :
    isTau modeReset 0x2B800000 ∧ pivotValid (modeOrder modeReset) 8 = true ∧ [0, 0].length = modeOrder modeReset ∧
    (∀ i : Fin 2, ((1 : Equiv.Perm (Fin 2)) i).val = bits 8 (3 * i.val + 2) (3 * i.val)) ∧
    (∀ i : Fin 2, ((Equiv.swap 0 1 : Equiv.Perm (Fin 2)) i).val = bits 1 (3 * i.val + 2) (3 * i.val)) ∧
    Equiv.Perm.sign (1 : Equiv.Perm (Fin 2)) = 1 ∧ Equiv.Perm.sign (Equiv.swap 0 1 : Equiv.Perm (Fin 2)) = -1 := by
  have h : exactOf (smFmt modeReset) 0x2B800000 = ⟨false, 8388608, -63, false⟩ := by decide +kernel
  have n : (if modeFP64 modeReset then modeTP modeReset else min (modeTP modeReset) 149 : ℕ) = 40 := by decide +kernel
  refine ⟨⟨by decide +kernel, by decide +kernel, ?_⟩, by decide +kernel, by decide +kernel, by decide +kernel, by decide +kernel,
    Equiv.Perm.sign_one, Equiv.Perm.sign_swap (by decide)⟩
  rw [n]
  simp only [h, exactVal]
  norm_num

/-- Registers, flags and columns of different lanes, as SMCHOL lands them; a lane whose SG and NP are clear, and one whose SG is set. -/
theorem witness_landing_columns :
    let writes : List (Nat × Nat × Word) := [(6, 0, 1)]
    let flags : List (Nat × Word) := [(0, 16)]
    let columns : List (Nat × Word) := [(0, 5)]
    let o : Op := { id := 1, flag := 0, dests := [6], entry := false, kind := .regs writes flags columns }
    let s (cf : Word) : State := before 0 0 0 0 [] fun st => { st with ops := [o], cf := [(0, cf)] }
    ((s 0).pkg.isResident 0 && writes.all (fun w => w.1 != 123) && columns.all (fun c => decide (c.2.toNat < 8)) &&
      flags.all (fun f => f.2.extractLsb' 5 3 == 0) &&
      [0, 8].all fun cf => ((s cf).pkg.strand? 0).any fun st => st.ops.find? (fun o => o.id == 1) == some o && (s cf).pkg.opReady 0 st o &&
        ((!(st.cfAt 0).getLsbD 3 && !(st.cfAt 0).getLsbD 4) == (cf == 0))) = true ∧ (columns.map (·.1)).Nodup := by decide +kernel

/-- A frame to which an access is on its way, and one to which none is. -/
theorem witness_frames_in_flight :
    let s := before 0 0 0 0 [] fun st =>
      { st with ops := [{ id := 1, flag := 0, dests := [], entry := false, kind := .store 0 [{ lane := 0, reg := 0, loc := .hbm 0x30000, bytes := 4 }] }] }
    s.pkg.frameInFlight 3 = true ∧ s.pkg.frameInFlight 4 = false ∧ unplaced.pkg.frameInFlight 9437183 = false := by decide +kernel

/-- A line that two copies still write and one that one does, of a copy's destination. -/
theorem witness_lines_of_two_copies :
    let p : Pkg := (withShare { idle with pkg := { idle.pkg with ctxs := idle.pkg.ctxs.mapVals fun _ c => { c with absent := [(0, 9), (0, 8), (1, 9), (2, 0)] } } }).pkg
    ((0, 9) ∈ p.absentOf (.die 0 0) ∧ (0, 8) ∈ p.absentOf (.die 0 0) ∧ (2, 0) ∈ p.absentOf (.die 0 0) ∧ (2, 9) ∉ p.absentOf (.die 0 0)) := by
  decide +kernel

/-- A stopped partition and one held for a refusal, with an entry of each kind due; an open out-of-turn entry and none. -/
theorem witness_entries_of_a_stopped_function :
    let e (kind : Nat) : BitVec 256 := rtEntry 0 0 5 1 1 kind 7
    let s (kind : Nat) (v : Vf) : State := { idle with pkg := { idle.pkg with raisings := [e kind], vfs := [(0, v)] } }
    [0, 1, 2].all (fun k => [{ stopped := true }, { stopped := true, openOut := some (6, 0, 1, 0) }, { heldRefused := true, openOut := some (6, 0, 1, 0) }].all
      fun v =>
        let t := s k v
        let w := t.pkg.vfs.get 0 {}
        t.plat.booted == 4 && rtFunctions (e k) == [0] && decide (rtTime (e k) ≤ t.pkg.time) && rtKind (e k) == k &&
          t.pkg.raisings.find? (fun x => rtSequence x == 7 && rtKind x == k) == some (e k) &&
          (w.stopped || w.heldRefused && !w.released) && (w.openOut.isSome || w.stopped)) = true := by decide +kernel

/-- A framer that owes no end, and one that owes one; a request of a package with room. -/
theorem witness_owed_ends :
    let r : UrgentRequest := { yardPort := 4, sendTime := 0, vf := 0, ctx := 0, footprint := 1, gang := [] }
    let p : Pkg := { idle.pkg with framer := some 0, framers := [(0, (255, 0))] }
    (p.owedEnds = [] ∧ p.isFramer = true ∧ (p.unretired 4).length < 256 ∧ ∀ g ∈ r.gang, g.1 = r.yardPort) ∧
    (p.liveFramer = some 0 ∧ ({ p with framer := none } : Pkg).framer ≠ some 0) ∧
    (let q : Pkg := { p with framers := [] }
     q.isFramer = false ∧ q.framer = some q.yardPort ∧ ({ q with framer := some 7 } : Pkg).framer ≠ some q.yardPort) ∧
    ({ p with owedEnds := [r] } : Pkg).owedEnds ≠ [] := by decide +kernel

/-- A context with a bent on a cluster that it runs on, where nothing of it is saved; and one that is saved. -/
theorem witness_saved_sections :
    let held : State := { idle with pkg := { idle.pkg with clusters := [(0, { occupant := some 0 })] } }
    ((List.range 144).all fun k => !held.pkg.savedAt 0 k || (held.pkg.bentsAt 0 k).isEmpty) = true ∧
    held.pkg.savedAt (sidCtx 0) (sidCluster 0) = false ∧
    (let p : Pkg := { idle.pkg with clusters := [(0, {})] }
     p.savedAt (sidCtx 0) (sidCluster 0) = true ∧ p.bentsAt 0 0 ≠ []) := by decide +kernel

/-- Samples whose averages with what the meter holds lie above the limits, at them, and below the 95 percent. -/
theorem witness_averages :
    let p : Power := { idle.power with packageWatts := List.replicate 120 2400, functionWatts := [(0, [300, 300])] }
    let s : State := { idle with power := p, pkg := { idle.pkg with time := 1000000 } }
    let sum (w : Nat) : Nat := ((w :: s.power.packageWatts).take 100).sum
    let length (w : Nat) : Nat := ((w :: s.power.packageWatts).take 100).length
    (10000 * (s.power.samples + 1) ≤ s.pkg.time ∧ length 0 = 100) ∧
    (s.power.packageLimit * length 2401 < sum 2401 ∧ sum 2400 ≤ s.power.packageLimit * length 2400 ∧
      100 * sum 2400 > 95 * (s.power.packageLimit * length 2400)) ∧
    (100 * ((0 :: idle.power.packageWatts).take 100).sum ≤ 95 * (idle.power.packageLimit * ((0 :: idle.power.packageWatts).take 100).length)) ∧
    (s.functionLimit 0 * 3 < ((301 :: s.power.functionWatts.get 0 []).take 100).sum ∧
      ((300 :: s.power.functionWatts.get 0 []).take 100).sum ≤ s.functionLimit 0 * 3) := by decide +kernel

/-- A REDFADD and a SWRED whose sum sets a flag at a node, and ones whose sums set none. -/
theorem witness_flags_of_sums :
    [((0x3F800000 : Word), true), (0, false)].all (fun e =>
      admitted (before 0x68 6 2 0 [(2, e.1)] fun st => { st with present := 3, em := 3, v := [(2, [(0, e.1), (1, 0x33000000)])] }) 0x68 6 2 0 (fun x =>
        (x.st.onLanes.length == 2) && ((fAdd fp32 0 (x.env.get x.a 0).toNat (x.env.get x.a 1).toNat).flags != 0) == e.2)) = true := by
  decide +kernel

end Sys2Proof.Tests
end

section
/-!
PROOFS. The integer and address forms, opcodes 0x00 to 0x2B (R211 to R218): each computes in a lane the number that the
spec's table names, taken modulo the width of the result.
-/
namespace Sys2Proof.Machine

/-! ### Lane forms by the kind of their result -/

/-- A short form with a 32-bit result that leaves C. -/
theorem LaneForm.of_out32 {i : Instr} {op : Nat} {d a b : Field} {f g : LaneIn → Word} (h : ∀ l, f l = g l)
    (hi : ∀ s, exec i s = execWord op d a b (Pkg.Exe.short fun l => out32 (f l)) s) : LaneForm i op d a b (gives g) :=
  .of_short hi (funext fun l => congrArg out32 (h l))

/-- A short form with a 32-bit result that gives C. -/
theorem LaneForm.of_outCarry {i : Instr} {op : Nat} {d a b : Field} {f g : LaneIn → Word} {c e : LaneIn → Bool}
    (h : ∀ l, f l = g l) (hc : ∀ l, c l = e l)
    (hi : ∀ s, exec i s = execWord op d a b (Pkg.Exe.short fun l => outCarry (f l) (c l)) s) :
    LaneForm i op d a b (givesC g e) :=
  .of_short hi (funext fun l => congrArg₂ outCarry (h l) (hc l))

/-- A comparison. -/
theorem LaneForm.of_outBool {i : Instr} {op : Nat} {d a b : Field} {f g : LaneIn → Bool} (h : ∀ l, f l = g l)
    (hi : ∀ s, exec i s = execWord op d a b (Pkg.Exe.short fun l => outBool (f l)) s) :
    LaneForm i op d a b (givesBool g) :=
  .of_short hi (funext fun l => congrArg outBool (h l))

/-- A short form with a 64-bit result that leaves C. -/
theorem LaneForm.of_out64 {i : Instr} {op : Nat} {d a b : Field} {f g : LaneIn → DWord} (h : ∀ l, f l = g l)
    (hi : ∀ s, exec i s = execWord op d a b (Pkg.Exe.short (gives64 f)) s) : LaneForm i op d a b (gives64 g) :=
  .of_short hi (congrArg gives64 (funext h))

/-- A short form with a 64-bit result that gives C. -/
theorem LaneForm.of_out64C {i : Instr} {op : Nat} {d a b : Field} {f g : LaneIn → DWord} {c : LaneIn → Bool}
    (h : ∀ l, f l = g l) (hi : ∀ s, exec i s = execWord op d a b (Pkg.Exe.short (gives64C f c)) s) :
    LaneForm i op d a b (gives64C g c) :=
  .of_short hi (congrArg (gives64C · c) (funext h))

/-! ### Arithmetic of words as arithmetic of numbers -/

theorem mul_eq_ofNat {w : Nat} (x y : BitVec w) : x * y = BitVec.ofNat w (x.toNat * y.toNat) := by
  simp [BitVec.ofNat_mul]

theorem sub_eq_ofInt {w : Nat} (x y : BitVec w) : x - y = BitVec.ofInt w ((x.toNat : Int) - y.toNat) := by
  rw [Int.sub_eq_add_neg, BitVec.ofInt_add, BitVec.ofInt_neg, BitVec.ofInt_natCast, BitVec.ofInt_natCast,
    BitVec.ofNat_toNat, BitVec.ofNat_toNat, BitVec.setWidth_eq, BitVec.setWidth_eq, BitVec.sub_eq_add_neg]

/-- ABS (R211). -/
theorem zero_sub_eq_ofInt_toInt {w : Nat} (x : BitVec w) : 0 - x = BitVec.ofInt w (-x.toInt) := by
  simp [BitVec.ofInt_neg]

/-- NEG (R211). -/
theorem zero_sub_eq_ofInt_toNat {w : Nat} (x : BitVec w) : 0 - x = BitVec.ofInt w (-(x.toNat : Int)) := by
  simp [BitVec.ofInt_neg, BitVec.ofInt_natCast]

/-- MAD (R211). -/
theorem mul_add_eq_ofNat {w : Nat} (x y z : BitVec w) :
    x * y + z = BitVec.ofNat w (x.toNat * y.toNat + z.toNat) := by
  rw [BitVec.ofNat_add, ← mul_eq_ofNat, BitVec.ofNat_toNat, BitVec.setWidth_eq]

theorem ite_one_zero_eq_ofNat (w : Nat) (c : Bool) : (if c then 1 else 0 : BitVec w) = BitVec.ofNat w c.toNat := by
  cases c <;> rfl

/-- ADDC (R211). -/
theorem add_add_carry_eq_ofNat {w : Nat} (x y : BitVec w) (c : Bool) :
    x + y + (if c then 1 else 0) = BitVec.ofNat w (x.toNat + y.toNat + c.toNat) := by
  rw [BitVec.ofNat_add, ← BitVec.add_def, ite_one_zero_eq_ofNat]

/-- SUBB (R211). -/
theorem sub_sub_borrow_eq_ofInt {w : Nat} (x y : BitVec w) (c : Bool) :
    x - y - (if c then 1 else 0) = BitVec.ofInt w ((x.toNat : Int) - y.toNat - c.toNat) := by
  rw [Int.sub_eq_add_neg, BitVec.ofInt_add, ← sub_eq_ofInt, BitVec.ofInt_neg, BitVec.ofInt_natCast,
    ite_one_zero_eq_ofNat, BitVec.sub_eq_add_neg]

theorem signExtend_mul_signExtend (x y : Word) :
    x.signExtend 64 * y.signExtend 64 = BitVec.ofInt 64 (x.toInt * y.toInt) := by
  rw [BitVec.ofInt_mul]; rfl

theorem setWidth_mul_setWidth (x y : Word) :
    x.setWidth 64 * y.setWidth 64 = BitVec.ofNat 64 (x.toNat * y.toNat) := by
  rw [BitVec.ofNat_mul, BitVec.ofNat_toNat, BitVec.ofNat_toNat]

theorem extractLsb'_high_ofInt (p : Int) :
    (BitVec.ofInt 64 p).extractLsb' 32 32 = BitVec.ofInt 32 (p / 2 ^ 32) := by
  apply BitVec.eq_of_toNat_eq
  simp [Nat.shiftRight_eq_div_pow]
  omega

theorem extractLsb'_high_ofNat (n : Nat) :
    (BitVec.ofNat 64 n).extractLsb' 32 32 = BitVec.ofNat 32 (n / 2 ^ 32) := by
  apply BitVec.eq_of_toNat_eq
  simp [Nat.shiftRight_eq_div_pow]
  omega

/-- MULHI.S (R211). -/
theorem mulHigh_eq_ofInt (x y : Word) :
    (x.signExtend 64 * y.signExtend 64).extractLsb' 32 32 = BitVec.ofInt 32 (x.toInt * y.toInt / 2 ^ 32) := by
  rw [signExtend_mul_signExtend, extractLsb'_high_ofInt]

/-- MULHI.N (R211). -/
theorem mulHigh_eq_ofNat (x y : Word) :
    (x.setWidth 64 * y.setWidth 64).extractLsb' 32 32 = BitVec.ofNat 32 (x.toNat * y.toNat / 2 ^ 32) := by
  rw [setWidth_mul_setWidth, extractLsb'_high_ofNat]

/-- MADW.N (R218). -/
theorem mulWide_add_eq_ofNat (x y : Word) (z : DWord) :
    x.setWidth 64 * y.setWidth 64 + z = BitVec.ofNat 64 (x.toNat * y.toNat + z.toNat) := by
  rw [setWidth_mul_setWidth, BitVec.ofNat_add, BitVec.ofNat_toNat, BitVec.setWidth_eq]

theorem beq_eq_decide_toNat {w : Nat} (x y : BitVec w) : (x == y) = decide (x.toNat = y.toNat) := by
  rw [beq_eq_decide, decide_eq_decide, BitVec.toNat_inj]

theorem bne_eq_decide_toNat {w : Nat} (x y : BitVec w) : (x != y) = decide (x.toNat ≠ y.toNat) := by
  rw [bne, beq_eq_decide_toNat, decide_not]

/-- SEL (R216). -/
theorem ite_bne_zero (x y z : Word) : (if x != 0 then y else z) = if x = 0 then z else y := by
  simp only [bne_iff_ne, ite_not]

/-! ### Shifts and rotates -/

theorem shiftLeft_eq_ofNat {w : Nat} (x : BitVec w) (n : Nat) : x <<< n = BitVec.ofNat w (x.toNat * 2 ^ n) :=
  BitVec.eq_of_toNat_eq (by simp [Nat.shiftLeft_eq])

theorem ushiftRight_eq_ofNat {w : Nat} (x : BitVec w) (n : Nat) : x >>> n = BitVec.ofNat w (x.toNat / 2 ^ n) := by
  rw [← Nat.shiftRight_eq_div_pow, ← BitVec.toNat_ushiftRight, BitVec.ofNat_toNat, BitVec.setWidth_eq]

/-- SHL (R212): an amount from 32 upwards shifts every bit out. -/
theorem shl_eq_ofNat (x : Word) (n : Nat) :
    (if 32 ≤ n then 0 else x <<< n) = BitVec.ofNat 32 (x.toNat * 2 ^ n) := by
  rw [← shiftLeft_eq_ofNat, ite_eq_right_iff]
  exact fun h => (BitVec.shiftLeft_eq_zero h).symm

/-- SHR (R212): an amount from 32 upwards shifts every bit out. -/
theorem shr_eq_ofNat (x : Word) (n : Nat) :
    (if 32 ≤ n then 0 else x >>> n) = BitVec.ofNat 32 (x.toNat / 2 ^ n) := by
  rw [← ushiftRight_eq_ofNat, ite_eq_right_iff]
  exact fun h => (BitVec.ushiftRight_eq_zero h).symm

/-- An arithmetic shift by more than 31 gives what the shift by 31 gives: copies of bit 31 (R212). -/
theorem sshiftRight_min (x : Word) (n : Nat) : x.sshiftRight (min n 31) = x.sshiftRight n := by
  obtain h | h := Nat.le_total n 31
  · rw [Nat.min_eq_left h]
  rw [Nat.min_eq_right h]
  apply BitVec.eq_of_getLsbD_eq
  intro i hi
  rw [BitVec.getLsbD_sshiftRight, BitVec.getLsbD_sshiftRight, BitVec.msb_eq_getLsbD_last]
  obtain rfl | hi0 := Nat.eq_zero_or_pos i
  · obtain rfl | hn := Nat.eq_or_lt_of_le h
    · rfl
    · rw [if_pos (by decide), if_neg (by omega)]
  · rw [if_neg (by omega), if_neg (by omega)]

/-- SAR (R212). -/
theorem sar_eq_ofInt (x : Word) (n : Nat) : x.sshiftRight (min n 31) = BitVec.ofInt 32 (x.toInt / 2 ^ n) := by
  rw [sshiftRight_min, BitVec.sshiftRight, Int.shiftRight_eq_div_pow]
  rfl

/-- The two parts of a rotated word have no bit in common. -/
theorem shiftLeft_and_ushiftRight_eq_zero (x : Word) {r : Nat} (hr : r < 32) : (x <<< r) &&& (x >>> (32 - r)) = 0 := by
  apply BitVec.eq_of_getLsbD_eq
  intro i hi
  by_cases h : i < r
  · simp [h]
  · have : x.getLsbD (32 - r + i) = false := x.getLsbD_of_ge _ (by omega)
    simp [this]

/-- ROL (R212). -/
theorem rotateLeft_eq_ofNat (x : Word) (n : Nat) :
    x.rotateLeft (n % 32) = BitVec.ofNat 32 (x.toNat * 2 ^ (n % 32) + x.toNat / 2 ^ (32 - n % 32)) := by
  have hr : n % 32 < 32 := Nat.mod_lt _ (by decide)
  rw [BitVec.rotateLeft_def, Nat.mod_eq_of_lt hr,
    ← BitVec.add_eq_or_of_and_eq_zero _ _ (shiftLeft_and_ushiftRight_eq_zero x hr), BitVec.ofNat_add,
    ← shiftLeft_eq_ofNat, ← ushiftRight_eq_ofNat]

/-! ### Bit fields and byte permutation -/

theorem bfPos_eq (y : Word) : bfPos y = y.toNat % 32 := by
  simp [bfPos]

theorem bfWidth_eq (y : Word) : bfWidth y = min (y.toNat / 256 % 64) (32 - bfPos y) := by
  simp [bfWidth, Nat.shiftRight_eq_div_pow]

/-- A field never extends past bit 31 (R213). -/
theorem bfPos_add_bfWidth_le (y : Word) : bfPos y + bfWidth y ≤ 32 := by
  have hp := bfPos_eq y
  have hw : bfWidth y ≤ 32 - bfPos y := Nat.min_le_right _ _
  omega

/-- The bits of a field's mask are those from its position up to its end. -/
theorem getLsbD_bfMask (y : Word) (i : Nat) :
    (bfMask y).getLsbD i = (decide (bfPos y ≤ i) && decide (i < bfPos y + bfWidth y)) := by
  have h := bfPos_add_bfWidth_le y
  rw [bfMask, BitVec.getLsbD_ofNat, Nat.testBit_mul_two_pow, Nat.testBit_two_pow_sub_one, Bool.eq_iff_iff]
  simp only [Bool.and_eq_true, decide_eq_true_eq]
  omega

/-- The field of `x`, moved down to bit 0 (R213). -/
theorem toNat_field (x y : Word) :
    ((x &&& bfMask y) >>> bfPos y).toNat = x.toNat / 2 ^ bfPos y % 2 ^ bfWidth y := by
  apply Nat.eq_of_testBit_eq
  intro i
  rw [BitVec.testBit_toNat, BitVec.getLsbD_ushiftRight, BitVec.getLsbD_and, getLsbD_bfMask, Nat.testBit_mod_two_pow,
    Nat.testBit_div_two_pow, BitVec.testBit_toNat, Nat.add_comm i]
  simp [Bool.and_comm]

/-- BFX.N (R213). -/
theorem field_eq_ofNat (x y : Word) :
    (x &&& bfMask y) >>> bfPos y = BitVec.ofNat 32 (x.toNat / 2 ^ bfPos y % 2 ^ bfWidth y) := by
  rw [← toNat_field, BitVec.ofNat_toNat, BitVec.setWidth_eq]

theorem signedOf_mod (w n : Nat) : signedOf w (n % 2 ^ w) = signedOf w n := by
  simp only [signedOf, Nat.mod_mod]

/-- BFX.S (R213). -/
theorem signedOf_field (x y : Word) :
    signedOf (bfWidth y) ((x &&& bfMask y) >>> bfPos y).toNat = signedOf (bfWidth y) (x.toNat / 2 ^ bfPos y) := by
  rw [toNat_field, signedOf_mod]

/-- Bit `i` of a number put together from its bits below `p`, `w` bits from there on, and the bits above those. -/
theorem testBit_three_parts (l m h p w i : Nat) :
    (l % 2 ^ p + m % 2 ^ w * 2 ^ p + h * 2 ^ (p + w)).testBit i =
      if i < p then l.testBit i else if i < p + w then m.testBit (i - p) else h.testBit (i - (p + w)) := by
  have low : l % 2 ^ p < 2 ^ p := Nat.mod_lt _ (Nat.two_pow_pos _)
  have parts : l % 2 ^ p + m % 2 ^ w * 2 ^ p + h * 2 ^ (p + w) = 2 ^ p * (2 ^ w * h + m % 2 ^ w) + l % 2 ^ p := by ring
  rw [parts, Nat.testBit_two_pow_mul_add _ low, Nat.testBit_two_pow_mul_add _ (Nat.mod_lt _ (Nat.two_pow_pos _)),
    Nat.testBit_mod_two_pow, Nat.testBit_mod_two_pow]
  by_cases hl : i < p
  · simp [hl]
  by_cases hm : i < p + w
  · simp [hl, hm, show i - p < w by omega]
  · simp [hl, hm, show ¬ i - p < w by omega, Nat.sub_sub]

/-- BFI (R213). -/
theorem insert_eq_ofNat (x y z : Word) :
    (z &&& ~~~bfMask y) ||| ((x <<< bfPos y) &&& bfMask y) =
      BitVec.ofNat 32 (z.toNat % 2 ^ bfPos y + x.toNat % 2 ^ bfWidth y * 2 ^ bfPos y +
        z.toNat / 2 ^ (bfPos y + bfWidth y) * 2 ^ (bfPos y + bfWidth y)) := by
  apply BitVec.eq_of_getLsbD_eq
  intro i hi
  rw [BitVec.getLsbD_ofNat, testBit_three_parts, Nat.testBit_div_two_pow]
  simp only [BitVec.getLsbD_or, BitVec.getLsbD_and, BitVec.getLsbD_not, BitVec.getLsbD_shiftLeft, getLsbD_bfMask,
    BitVec.testBit_toNat, hi, decide_true, Bool.true_and]
  by_cases hp : i < bfPos y
  · simp [hp, Nat.not_le.mpr hp]
  by_cases hw : i < bfPos y + bfWidth y
  · simp [hp, hw, Nat.not_lt.mp hp]
  · simp [hp, hw, Nat.sub_add_cancel (Nat.not_lt.mp hw)]

/-- A selector nibble of PERMB (R215). -/
theorem toNat_nibble (y : Word) (k : Nat) : (y.extractLsb' (4 * k) 4).toNat = y.toNat / 16 ^ k % 16 := by
  rw [BitVec.extractLsb'_toNat, Nat.shiftRight_eq_div_pow, Nat.pow_mul]

/-! ### The obligations -/

/-- Settles O1: every form's word operation is the operation on numbers, taken modulo 2^32. -/
theorem integerArithmetic : Obligations.IntegerArithmetic := by
  intro d a b x y z
  refine ⟨?add, ?sub, ?mul, ?mulhiS, ?mulhiN, ?mad, ?addc, ?subb, ?minS, ?minN, ?maxS, ?maxN, ?abs, ?neg⟩
  case add => exact .of_outCarry (fun l => BitVec.add_def l.xw l.yw) (fun _ => rfl) fun _ => rfl
  case sub => exact .of_outCarry (fun l => sub_eq_ofInt l.xw l.yw) (fun _ => rfl) fun _ => rfl
  case mul => exact .of_out32 (fun l => mul_eq_ofNat l.xw l.yw) fun _ => rfl
  case mulhiS => exact .of_out32 (fun l => mulHigh_eq_ofInt l.xw l.yw) fun _ => rfl
  case mulhiN => exact .of_out32 (fun l => mulHigh_eq_ofNat l.xw l.yw) fun _ => rfl
  case mad => exact .of_out32 (fun l => mul_add_eq_ofNat l.xw l.yw l.zw) fun _ => rfl
  case addc => exact .of_outCarry (fun l => add_add_carry_eq_ofNat l.xw l.yw l.c) (fun _ => rfl) fun _ => rfl
  case subb =>
    refine .of_outCarry (fun l => sub_sub_borrow_eq_ofInt l.xw l.yw l.c) (fun l => ?_) fun _ => rfl
    exact decide_eq_decide.mpr (by omega)
  case minS => exact .of_out32 (fun _ => rfl) fun _ => rfl
  case minN => exact .of_out32 (fun _ => rfl) fun _ => rfl
  case maxS => exact .of_out32 (fun _ => rfl) fun _ => rfl
  case maxN => exact .of_out32 (fun _ => rfl) fun _ => rfl
  case abs => exact .of_out32 (fun l => by rw [← zero_sub_eq_ofInt_toInt]) fun _ => rfl
  case neg =>
    exact .of_outCarry (fun l => zero_sub_eq_ofInt_toNat l.xw) (fun l => bne_eq_decide_toNat l.xw 0) fun _ => rfl

/-- Settles O2: the shifts and rotates are products and quotients by powers of two, and a field's mask holds exactly the
bits of the field. -/
theorem logicAndFields : Obligations.LogicAndFields := by
  constructor
  · intro d a b x y z
    refine ⟨?and, ?or, ?xor, ?andn, ?not, ?shl, ?shr, ?sar, ?rol⟩
    case shl => exact .of_out32 (fun l => shl_eq_ofNat l.xw l.yw.toNat) fun _ => rfl
    case shr => exact .of_out32 (fun l => shr_eq_ofNat l.xw l.yw.toNat) fun _ => rfl
    case sar => exact .of_out32 (fun l => sar_eq_ofInt l.xw l.yw.toNat) fun _ => rfl
    case rol => exact .of_out32 (fun l => rotateLeft_eq_ofNat l.xw l.yw.toNat) fun _ => rfl
    all_goals exact .of_out32 (fun _ => rfl) fun _ => rfl
  · intro d a b x y z
    -- Fold the statement's position, width and selector nibbles into the model's names.
    simp only [← bfPos_eq, ← bfWidth_eq, ← toNat_nibble]
    refine ⟨?bfxS, ?bfxN, ?bfi, ?popc, ?clz, ?ctz, ?brev, ?permb, ?sel, ?mov, ?eq, ?ne, ?ltS, ?leS, ?ltN, ?leN⟩
    case bfxS => exact .of_out32 (fun l => congrArg (BitVec.ofInt 32) (signedOf_field l.xw l.yw)) fun _ => rfl
    case bfxN => exact .of_out32 (fun l => field_eq_ofNat l.xw l.yw) fun _ => rfl
    case bfi => exact .of_out32 (fun l => insert_eq_ofNat l.xw l.yw l.zw) fun _ => rfl
    case sel => exact .of_out32 (fun l => ite_bne_zero l.xw l.yw l.zw) fun _ => rfl
    case eq => exact .of_outBool (fun l => beq_eq_decide_toNat l.xw l.yw) fun _ => rfl
    case ne => exact .of_outBool (fun l => bne_eq_decide_toNat l.xw l.yw) fun _ => rfl
    case ltS | leS | ltN | leN => exact .of_outBool (fun _ => rfl) fun _ => rfl
    all_goals exact .of_out32 (fun _ => rfl) fun _ => rfl

/-- Settles O3: every form's pair operation is the operation on numbers, taken modulo 2^64. -/
theorem wideInteger : Obligations.WideInteger := by
  intro d a b x y z
  refine ⟨?addw, ?subw, ?mulwS, ?mulwN, ?madwN⟩
  case addw => exact .of_out64C (fun l => BitVec.add_def l.x l.y) fun _ => rfl
  case subw => exact .of_out64C (fun l => sub_eq_ofInt l.x l.y) fun _ => rfl
  case mulwS => exact .of_out64 (fun l => signExtend_mul_signExtend l.xw l.yw) fun _ => rfl
  case mulwN => exact .of_out64 (fun l => setWidth_mul_setWidth l.xw l.yw) fun _ => rfl
  case madwN => exact .of_out64C (fun l => mulWide_add_eq_ofNat l.xw l.yw l.z) fun _ => rfl

end Sys2Proof.Machine
end

section
/-!
PROOFS. The shuffles and the votes, opcodes 0x60 to 0x66 and 0x6C (R271, R272): the lane that a shuffle reads, and what
the votes say of the lanes with On(j) whose test bit is set.
-/
namespace Sys2Proof.Machine

open Pkg (Exe)

/-! ### Shuffles (R271) -/

/-- The lane that lane `j` reads where its form computes position `q j` of the sub-group; none where that position lies
outside the sub-group or its lane is absent. -/
def Pkg.Exe.sourceAt (x : Exe) (q : Nat → Int) (j : Nat) : Option Nat :=
  let g := modeShuffle x.st.mode
  if 0 ≤ q j ∧ q j < g ∧ x.st.isPresent (j - j % g + (q j).toNat) then some (j - j % g + (q j).toNat) else none

/-- The strand after a shuffle whose lanes read from the positions `q`. -/
def Pkg.Exe.shuffled (x : Exe) (q : Nat → Int) : Strand :=
  let st := x.st.put x.d x.st.isOn fun j => x.env.get x.a ((x.sourceAt q j).getD j)
  if x.d = 123 then st else st.orFlags x.st.isOn fun j => if x.sourceAt q j = none then cfOOR else 0

/-- The model's source of a shuffle, by the position that the form computes from the reader's. -/
theorem shuffleSource_eq_sourceAt (q : Int → Int → Int) (x : Exe) (j : Nat) :
    shuffleSource x.st (modeShuffle x.st.mode) q j (x.env.get x.b j) =
      x.sourceAt (fun j => q (j % modeShuffle x.st.mode : Nat) (x.env.get x.b j).toNat) j := by
  have base : modeShuffle x.st.mode * (j / modeShuffle x.st.mode) = j - j % modeShuffle x.st.mode :=
    Nat.eq_sub_of_add_eq (Nat.div_add_mod ..)
  have position : j - (j - j % modeShuffle x.st.mode) = j % modeShuffle x.st.mode := Nat.sub_sub_self (Nat.mod_le ..)
  simp only [shuffleSource, Exe.sourceAt, base, position, Bool.and_eq_true, decide_eq_true_eq, and_assoc]

theorem bodyShuffle_eq_shuffled (q : Int → Int → Int) (x : Exe) :
    bodyShuffle q x = .next (x.p.setStrand x.sid
      (x.shuffled fun j => q (j % modeShuffle x.st.mode : Nat) (x.env.get x.b j).toNat)) := by
  simp only [bodyShuffle, Exe.shuffled, shuffleSource_eq_sourceAt, beq_iff_eq, Option.isNone_iff_eq_none]

/-- A shuffle answers the state in which every lane has read from the position that the form computes. -/
theorem execWord_shuffle {s : State} {op : Nat} {d a b : Field} {x : Exe} (h : s.Admits op d a b x)
    (q : Int → Int → Int) :
    execWord op d a b (bodyShuffle q) s = .next (s.after x
      (x.shuffled fun j => q (j % modeShuffle x.st.mode : Nat) (x.env.get x.b j).toNat)) :=
  execWord_strand h _ _ (bodyShuffle_eq_shuffled q x)

/-! ### Votes (R272) -/

/-- Lane `j` has On(j), and its test bit is set. -/
def Pkg.Exe.votesIn (x : Exe) (j : Nat) : Bool := x.st.isOn j && (x.env.get x.a j).getLsbD 0

theorem Strand.isOn_of_le (st : Strand) {j : Nat} (h : 96 ≤ j) : st.isOn j = false := by
  simp [Strand.isOn, Strand.isPresent, BitVec.getLsbD_of_ge _ _ h]

theorem Pkg.Exe.votesIn_of_le (x : Exe) {j : Nat} (h : 96 ≤ j) : x.votesIn j = false := by
  simp [Exe.votesIn, x.st.isOn_of_le h]

@[simp] theorem Strand.mem_onLanes (st : Strand) (j : Nat) : j ∈ st.onLanes ↔ j < 96 ∧ st.isOn j = true := by
  simp [Strand.onLanes]

theorem votes_eq_filter (x : Exe) : votes x = (List.range 96).filter x.votesIn := by
  simp only [votes, Strand.onLanes, List.filter_filter]
  exact List.filter_congr fun j _ => Bool.and_comm ..

theorem mem_votes (x : Exe) (j : Nat) : j ∈ votes x ↔ j < 96 ∧ x.votesIn j = true := by
  simp [votes_eq_filter]

theorem getLsbD_foldl_or_lane (l : List Nat) (m : BitVec 96) (k : Nat) :
    (l.foldl (fun m j => m ||| ((1 : BitVec 96) <<< j)) m).getLsbD k =
      (m.getLsbD k || (decide (k < 96) && decide (k ∈ l))) := by
  induction l generalizing m with
  | nil => simp
  | cons j l ih =>
    have bit : ((1 : BitVec 96) <<< j).getLsbD k = (decide (k < 96) && decide (k = j)) := by
      change (1#96 <<< j).getLsbD k = _
      rw [← BitVec.twoPow_eq, BitVec.getLsbD_twoPow, Bool.eq_iff_iff]
      simp only [Bool.and_eq_true, decide_eq_true_eq]
      omega
    rw [List.foldl_cons, ih, BitVec.getLsbD_or, bit]
    simp only [List.mem_cons, Bool.decide_or, Bool.and_or_distrib_left, Bool.or_assoc]

/-- A mask holds exactly the lanes of its list. -/
theorem getLsbD_laneMask (l : List Nat) (k : Nat) : (laneMask l).getLsbD k = (decide (k < 96) && decide (k ∈ l)) := by
  rw [laneMask, getLsbD_foldl_or_lane]
  simp

/-- VOTE: mask word `w` has a bit for each lane of its 32 that votes. -/
theorem getLsbD_voteWord (x : Exe) (w k : Nat) (hk : k < 32) :
    ((laneMask (votes x)).extractLsb' (32 * w) 32).getLsbD k = x.votesIn (32 * w + k) := by
  rw [BitVec.getLsbD_extractLsb', getLsbD_laneMask, Bool.eq_iff_iff]
  simp only [hk, mem_votes, Bool.and_eq_true, decide_eq_true_eq, true_and, and_self_left, and_iff_right_iff_imp]
  intro hv
  by_contra hge
  simp [x.votesIn_of_le (Nat.not_lt.mp hge)] at hv

/-- VANY (R272) tests the list of votes for being empty. -/
theorem votes_isEmpty_iff (x : Exe) : (votes x).isEmpty = true ↔ ∀ j, j < 96 → x.votesIn j = false := by
  simp [votes_eq_filter]

/-- VALL (R272) compares the number of votes with the number of lanes with On(j). -/
theorem votes_length_eq_iff (x : Exe) :
    (votes x).length = x.st.onLanes.length ↔ ∀ j, j < 96 → x.st.isOn j = true → x.votesIn j = true := by
  rw [votes, List.length_filter_eq_length_iff]
  simp +contextual [Exe.votesIn]

/-- FIRSTL: the lane that it answers, 96 where no lane votes. -/
def Pkg.Exe.firstVote (x : Exe) : Nat := (votes x).head?.getD 96

theorem firstVote_spec (x : Exe) :
    x.firstVote ≤ 96 ∧ (x.firstVote < 96 → x.votesIn x.firstVote = true) ∧
      ∀ j, j < x.firstVote → x.votesIn j = false := by
  rw [Exe.firstVote, votes_eq_filter, List.head?_filter]
  cases hf : (List.range 96).find? x.votesIn with
  | none => simpa using hf
  | some n =>
    obtain ⟨hn, hlt, hfirst⟩ := List.find?_range_eq_some.mp hf
    rw [List.mem_range] at hlt
    exact ⟨hlt.le, fun _ => hn, fun j hj => by simpa using hfirst j hj⟩

/-! ### The words that the votes write -/

theorem boolWord_eq_setWidth (c : Bool) : boolWord c = (if c then 1 else 0 : Word).setWidth 64 := by
  cases c <;> rfl

/-- A vote answers the state in which every present lane holds its value. -/
theorem execWord_uniform {s : State} {op : Nat} {d a b : Field} {x : Exe} (h : s.Admits op d a b x) (body : Exe → Eff)
    (v : Word) (hb : body x = x.uniformResult 1 (v.setWidth 64)) :
    execWord op d a b body s = .next (s.after x (x.putAll 1 (v.setWidth 64))) :=
  execWord_strand h body _ hb

/-! ### The obligation -/

/-- Settles O14: a shuffle reads the lane at the position that its form computes, and a vote's value is a fact about the
set of the lanes that vote. -/
theorem shufflesAndVotes : Obligations.ShufflesAndVotes := by
  constructor
  · intro d a b r0 r1 r2 s x
    refine ⟨?shfl, ?shflup, ?shfldn, ?shflx⟩
    case shfl => exact fun h => execWord_shuffle h shflPos
    case shflup => exact fun h => execWord_shuffle h shflupPos
    case shfldn => exact fun h => execWord_shuffle h shfldnPos
    case shflx => exact fun h => execWord_shuffle h shflxPos
  · intro d a b r0 r1 r2 s x
    refine ⟨?vote, ?vany, ?vall, ?firstl⟩
    case vote =>
      intro h
      obtain ⟨-, -, -, hb, -, -⟩ := h.env
      rw [← hb]
      exact ⟨_, execWord_uniform h bodyVote _ rfl, getLsbD_voteWord x x.b⟩
    case vany =>
      intro h
      refine ⟨_, execWord_uniform h bodyVany _ (congrArg (x.uniformResult 1) (boolWord_eq_setWidth _)), ?_, ?_⟩
      · rintro ⟨j, hj, hv⟩
        have some_vote : ¬ (votes x).isEmpty = true := fun he =>
          Bool.false_ne_true (((votes_isEmpty_iff x).mp he j hj).symm.trans hv)
        simp [some_vote]
      · intro no_vote
        simp [(votes_isEmpty_iff x).mpr no_vote]
    case vall =>
      intro h
      refine ⟨_, execWord_uniform h bodyVall _ (congrArg (x.uniformResult 1) (boolWord_eq_setWidth _)), ?_, ?_⟩
      · intro all_vote
        simp [(votes_length_eq_iff x).mpr all_vote]
      · rintro ⟨j, hj, hon, hv⟩
        have not_all : (votes x).length ≠ x.st.onLanes.length := fun he =>
          Bool.false_ne_true (hv.symm.trans ((votes_length_eq_iff x).mp he j hj hon))
        simp [not_all]
    case firstl =>
      intro h
      refine ⟨x.firstVote, execWord_uniform h bodyFirstl _ ?_, firstVote_spec x⟩
      have fits : x.firstVote < 2 ^ 32 := (firstVote_spec x).1.trans_lt (by decide)
      rw [BitVec.setWidth_ofNat_of_le_of_lt (by decide) fits]
      rfl

end Sys2Proof.Machine
end

section
/-!
PROOFS. The element-wise forms and the products of small matrices, opcodes 0x72 to 0x79, 0x7E and 0x7F (R285 to R287):
what each On lane computes, element by element in row-major order, and the flags of every step.
-/
namespace Sys2Proof.Machine

open Pkg (Exe)

/-! ### Issue (R285) -/

/-- The completion class (R169) of an admitted word, where the form of its opcode is known. -/
theorem State.Admits.cls_eq {s : State} {op : Nat} {d a b : Field} {x : Exe} (h : s.Admits op d a b x) {f : Form}
    (hf : formOf op b.toNat (modeElem x.st.mode) x.st.truss = some f) : x.form.cls = f.cls :=
  congrArg Form.cls (h.form_eq hf)

/-- A flag-B form without a pivot word issues what its On lanes compute. -/
theorem execWord_smLater {s : State} {op : Nat} {d a b : Field} {x : Exe} (h : s.Admits op d a b x)
    (hc : x.form.cls = .flagB) (body : Exe → Eff) (g : Nat → SmOut) (hb : body x = smLater x none g) :
    execWord op d a b body s = .next (s.smIssued x g []) := by
  refine execWord_issue h body s.pkg (x.st.flagOf true) _ false _ (hb.trans ?_)
  have no_entry : false = true → s.pkg.canEnter x.sid x.st = true := nofun
  rw [smLater, Exe.later, h.pkg, issueOp_ok _ _ _ _ _ no_entry, hc]
  simp [List.flatMap_map, List.filterMap_map]

/-- A form issues `vals` as the elements of each On lane, with the flags that `flag` names and no offending column. -/
def State.SmGives (s : State) (x : Exe) (i : Instr) (vals : Nat → List Nat) (flag : Nat → Nat → Prop) : Prop :=
  ∃ g : Nat → SmOut, exec i s = .next (s.smIssued x g []) ∧
    ∀ j, (g j).vals = vals j ∧ (g j).col = none ∧ ∀ k, (g j).flags.testBit k = true ↔ flag j k

/-! ### Elements (R280) -/

theorem smRead_getD (x : Exe) (c : Nat) {count i : Nat} (j : Nat) (hi : i < count) :
    (smRead x c count j).getD i 0 = x.env.getN (smRegs x.st.mode) (c + smRegs x.st.mode * i) j := by
  simp [smRead, hi]

theorem smAt_smMat (x : Exe) (c j : Nat) {row col : Nat} (hr : row < modeOrder x.st.mode) (hc : col < modeOrder x.st.mode) :
    smAt (modeOrder x.st.mode) (smMat x c j) row col =
      x.env.getN (smRegs x.st.mode) (c + smRegs x.st.mode * (modeOrder x.st.mode * row + col)) j :=
  smRead_getD x c j (Nat.mul_add_lt_mul_of_lt_of_lt hr hc)

/-- Two row-major lists are equal where their elements are. -/
theorem flatMap_range_congr {rows cols : Nat} {e g : Nat → Nat → Nat} (h : ∀ r c, r < rows → c < cols → e r c = g r c) :
    ((List.range rows).flatMap fun r => (List.range cols).map fun c => e r c) =
      (List.range rows).flatMap fun r => (List.range cols).map fun c => g r c :=
  List.flatMap_congr fun r hr => List.map_congr_left fun c hc => h r c (List.mem_range.mp hr) (List.mem_range.mp hc)

/-! ### Flags of a list of results (R77) -/

theorem testBit_foldl_or {α : Type} (φ : α → Nat) (l : List α) (z k : Nat) :
    (l.foldl (fun fl e => fl ||| φ e) z).testBit k = true ↔ z.testBit k = true ∨ ∃ e ∈ l, (φ e).testBit k = true := by
  induction l generalizing z with
  | nil => simp
  | cons e l ih => simp [ih, or_assoc]

/-! ### Sums of products (R287) -/

/-- One more term after the first is one more fused multiply-add. -/
theorem smDot_concat (f : Fmt) (mode : Nat) (p q : Nat × Nat) (l : List (Nat × Nat)) :
    smDot f mode ((p :: l) ++ [q]) =
      let r := fFma f mode q.1 q.2 (smDot f mode (p :: l)).1
      (r.bits, (smDot f mode (p :: l)).2 ||| r.flags) := by
  simp [smDot]

theorem smDot_range_succ (f : Fmt) (mode : Nat) (t : Nat → Nat × Nat) (n : Nat) :
    smDot f mode ((List.range (n + 2)).map t) =
      let r := fFma f mode (t (n + 1)).1 (t (n + 1)).2 (smDot f mode ((List.range (n + 1)).map t)).1
      (r.bits, (smDot f mode ((List.range (n + 1)).map t)).2 ||| r.flags) := by
  rw [List.range_succ (n := n + 1), List.map_append, List.range_succ_eq_map]
  exact smDot_concat f mode _ _ _

theorem smDot_bits (f : Fmt) (mode : Nat) (t : Nat → Nat × Nat) (n : Nat) :
    (smDot f mode ((List.range (n + 1)).map t)).1 = (sumUpTo f mode t n).bits := by
  induction n with
  | zero => rfl
  | succ n ih => rw [smDot_range_succ, ih, sumUpTo]

/-- The flags of a sum are those of each of its steps. -/
theorem smDot_flags (f : Fmt) (mode : Nat) (t : Nat → Nat × Nat) (n k : Nat) :
    (smDot f mode ((List.range (n + 1)).map t)).2.testBit k = true ↔
      ∃ m, m < n + 1 ∧ (sumUpTo f mode t m).flags.testBit k = true := by
  induction n with
  | zero => simp [smDot, sumUpTo]
  | succ n ih =>
    rw [smDot_range_succ, Nat.testBit_or, Bool.or_eq_true, ih, smDot_bits, ← sumUpTo]
    exact Nat.exists_lt_succ_right.symm

/-- A sum over terms that agree with those of a rule. -/
theorem smDot_eq_sumUpTo (f : Fmt) (mode : Nat) {t u : Nat → Nat × Nat} {n : Nat} (hn : 0 < n) (ht : ∀ m, m < n → t m = u m) :
    (smDot f mode ((List.range n).map t)).1 = (sumUpTo f mode u (n - 1)).bits ∧
      ∀ k, (smDot f mode ((List.range n).map t)).2.testBit k = true ↔
        ∃ m, m < n ∧ (sumUpTo f mode u m).flags.testBit k = true := by
  rw [List.map_congr_left fun m hm => ht m (List.mem_range.mp hm)]
  cases n with
  | zero => exact absurd hn (Nat.lt_irrefl 0)
  | succ n => exact ⟨smDot_bits f mode u n, smDot_flags f mode u n⟩

/-- A product form sums, for each element, the terms that its rule names. -/
theorem smGives_product {s : State} {op : Nat} {d a b : Field} {x : Exe} (h : s.Admits op d a b x)
    (hc : x.form.cls = .flagB) {body : Exe → Eff} {cols : Nat} {t u : Nat → Nat → Nat → Nat → Nat × Nat}
    {i : Instr} (hi : exec i s = execWord op d a b body s) (hb : body x = smProduct x (modeOrder x.st.mode) cols t)
    (ht : ∀ j r c m, r < modeOrder x.st.mode → c < cols → m < modeOrder x.st.mode → t j r c m = u j r c m) :
    let n := modeOrder x.st.mode
    let sum (j r c m : Nat) : FRes := sumUpTo (smFmt x.st.mode) (modeRound x.st.mode) (u j r c) m
    s.SmGives x i
      (fun j => (List.range n).flatMap fun r => (List.range cols).map fun c => (sum j r c (n - 1)).bits)
      fun j k => ∃ r c m, r < n ∧ c < cols ∧ m < n ∧ (sum j r c m).flags.testBit k = true := by
  intro n sum
  have sums (j r c : Nat) (hr : r < n) (hc : c < cols) :=
    smDot_eq_sumUpTo (smFmt x.st.mode) (modeRound x.st.mode) (Nat.zero_lt_of_lt hr) fun m hm => ht j r c m hr hc hm
  refine ⟨_, hi.trans (execWord_smLater h hc body _ hb), fun j => ⟨?vals, rfl, fun k => ?flags⟩⟩
  case vals =>
    simp only [List.map_flatMap, List.map_map]
    exact flatMap_range_congr fun r c hr hc => (sums j r c hr hc).1
  case flags =>
    simp only [testBit_foldl_or, Nat.zero_testBit, Bool.false_eq_true, false_or, List.mem_flatMap, List.mem_map,
      List.mem_range]
    constructor
    · rintro ⟨_, ⟨r, hr, c, hc, rfl⟩, hk⟩
      obtain ⟨m, hm, hm'⟩ := ((sums j r c hr hc).2 k).mp hk
      exact ⟨r, c, m, hr, hc, hm, hm'⟩
    · rintro ⟨r, c, m, hr, hc, hm⟩
      exact ⟨_, ⟨r, hr, c, hc, rfl⟩, ((sums j r c hr hc).2 k).mpr ⟨m, hm⟩⟩

/-! ### Element-wise forms (R286) -/

theorem smMat_zipIdx_map {α : Type} (x : Exe) (c j : Nat) (φ : Nat × Nat → α) :
    (smMat x c j).zipIdx.map φ = (List.range (modeOrder x.st.mode * modeOrder x.st.mode)).map fun i =>
      φ (x.env.getN (smRegs x.st.mode) (c + smRegs x.st.mode * i) j, i) := by
  apply List.ext_getElem <;> simp [smMat, smRead]

/-- An element-wise form computes each element by itself. -/
theorem smGives_map {s : State} {op : Nat} {d a b : Field} {x : Exe} (h : s.Admits op d a b x)
    (hc : x.form.cls = .flagB) {body : Exe → Eff} {second u : Nat → Nat → Nat} {f : Nat → Nat → FRes}
    {i : Instr} (hi : exec i s = execWord op d a b body s) (hb : body x = smMap x second f)
    (hu : ∀ j m, m < modeOrder x.st.mode * modeOrder x.st.mode → second j m = u j m) :
    let n := modeOrder x.st.mode
    let e (j m : Nat) : FRes := f (x.env.getN (smRegs x.st.mode) (x.a + smRegs x.st.mode * m) j) (u j m)
    s.SmGives x i (fun j => (List.range (n * n)).map fun m => (e j m).bits)
      fun j k => ∃ m, m < n * n ∧ (e j m).flags.testBit k = true := by
  intro n e
  have elements (j : Nat) : ((smMat x x.a j).zipIdx.map fun p => f p.1 (second j p.2)) = (List.range (n * n)).map (e j) := by
    rw [smMat_zipIdx_map]
    exact List.map_congr_left fun m hm => by rw [hu j m (List.mem_range.mp hm)]
  refine ⟨_, hi.trans (execWord_smLater h hc body _ hb), fun j => ⟨?vals, rfl, fun k => ?flags⟩⟩
  case vals => simp [elements]
  case flags => simp [elements, testBit_foldl_or]

/-- A form that copies bit patterns sets no flag. -/
theorem smGives_copy {s : State} {op : Nat} {d a b : Field} {x : Exe} (h : s.Admits op d a b x)
    (hc : x.form.cls = .flagB) {body : Exe → Eff} {v w : Nat → List Nat}
    {i : Instr} (hi : exec i s = execWord op d a b body s) (hb : body x = smLater x none fun j => { vals := v j })
    (hv : ∀ j, v j = w j) : s.SmGives x i w fun _ _ => False :=
  ⟨_, hi.trans (execWord_smLater h hc body _ hb), fun j => ⟨hv j, rfl, fun k => by simp⟩⟩

/-! ### The obligation -/

/-- Settles O23: each form is a product, an element-wise form or a copy over the elements that its operands name. -/
theorem smallMatrixProducts : Obligations.SmallMatrixProducts := by
  intro d a b r0 r1 r2 s x
  refine ⟨?smmul, ?smmult, ?smtmul, ?smadd, ?smsub, ?smscl, ?smtrn, ?smmv, ?smid, ?smcopy⟩
  case smmul =>
    exact fun h => smGives_product h (h.cls_eq rfl) rfl rfl fun j r c m hr hc hm =>
      Prod.ext (smAt_smMat x x.a j hr hm) (smAt_smMat x x.b j hm hc)
  case smmult =>
    exact fun h => smGives_product h (h.cls_eq rfl) rfl rfl fun j r c m hr hc hm =>
      Prod.ext (smAt_smMat x x.a j hr hm) (smAt_smMat x x.b j hc hm)
  case smtmul =>
    exact fun h => smGives_product h (h.cls_eq rfl) rfl rfl fun j r c m hr hc hm =>
      Prod.ext (smAt_smMat x x.a j hm hr) (smAt_smMat x x.b j hm hc)
  case smadd =>
    exact fun h => smGives_map h (h.cls_eq rfl) rfl rfl fun j _ hm => smRead_getD x x.b j hm
  case smsub =>
    exact fun h => smGives_map h (h.cls_eq rfl) rfl rfl fun j _ hm => smRead_getD x x.b j hm
  case smscl =>
    exact fun h => smGives_map h (h.cls_eq rfl) rfl rfl fun _ _ _ => rfl
  case smtrn =>
    exact fun h => smGives_copy h (h.cls_eq rfl) rfl rfl fun j =>
      flatMap_range_congr fun r c hr hc => smAt_smMat x x.a j hc hr
  case smmv =>
    exact fun h => smGives_product h (h.cls_eq rfl) rfl rfl fun j r c m hr hc hm =>
      Prod.ext (smAt_smMat x x.a j hr hm) (smRead_getD x x.b j hm)
  case smid =>
    exact fun h => smGives_copy h (h.cls_eq rfl) rfl rfl fun j =>
      flatMap_range_congr fun r c hr hc => by simp
  case smcopy =>
    exact fun h => smGives_copy h (h.cls_eq rfl) rfl rfl fun _ => rfl

end Sys2Proof.Machine
end
